-- ==== Sys2Proof/Word.lean ====
section
/-! DEFINITION. The word types of the engine and the type of sparse stores. -/

namespace Sys2Proof

/-- A byte of a frame, of an image or of memory. -/
abbrev Byte := BitVec 8

/-- A narrow feature code (R31). -/
abbrev Code := BitVec 16

/-- A wide feature word (R32), a sequence number or a ring index. -/
abbrev Word32 := BitVec 32

/-- A register word (R489), an entity key or a slot word. -/
abbrev Word := BitVec 64

/-- A store with one item per index, held as the list of the items that differ from the store's
default, in rising order of index. -/
abbrev Sparse (α : Type) := List (Nat × α)

/-- Signed 128-bit value of a certified lane (R140). -/
abbrev Quad := BitVec 128

end Sys2Proof
end

