-- ==== Sys2Proof/Syntax.lean ====
section
/-! DEFINITION. The commands of the engine: one constructor of Instr for each row of the table of operations and events,
with the operands the model gives it. The table gives no operands: each constructor's docstring names the rule
that says what the operand is (assumption log entry 1). -/

namespace Sys2Proof

/-- A single-event upset: a stored bit or an adder's residue that the environment disturbs at the moment of a
step. The checks of R385 exist because such upsets happen; an upset is never an effect of the engine (log entry 3). -/
inductive Upset where
  /-- Bit b of the 43 stored bits of a fret cell (bit 42 is the parity bit, R85). -/
  | cellBit (phys : Nat) (plane : Bool) (slot cell b : Nat)
  /-- A bit of a slot descriptor. -/
  | descBit (phys : Nat) (plane : Bool) (slot b : Nat)
  /-- A bit of a physical category mask. -/
  | maskBit (phys mask b : Nat)
  /-- Bit b of the 175 stored bits of a Bridge row (R89). -/
  | rowBit (phys bank row b : Nat)
  /-- A bit of the multiplier or zero point of a scale entry an array holds. -/
  | scaleBit (phys idx b : Nat)
  /-- Bit b of a 64-bit word of a local feature buffer place; bit 64 is its parity bit (R17, R386). -/
  | featureBuffer (phys place word b : Nat)
  /-- The residue of an element: at level 0 of the column of the node-th position of the group, at levels 1 to 5 of the sum of a Chord
  node, at level 128 of the Tuner's sum of its node-th token (R129, R131, R142). -/
  | residue (level node element : Nat)
  /-- Bit b of the 72 stored bits of a Tally word (R160). -/
  | tallyBit (word b : Nat)
  /-- A bit of the acceptance buffer head at a place (R334). -/
  | headBit (place : Nat)
  /-- A bit of the feature block at a place (R334). -/
  | blockBit (block : Nat)
  /-- A bit of an index entry of the entity table (R225). -/
  | indexBit (entry : Nat)
deriving DecidableEq, Repr

/-- The rail whose charge integrator debits (R366). -/
inductive Rail where
  | core
  | sram
  | mram
deriving DecidableEq, Repr

/-- The source of a sag (SAG_SRC of R460). -/
inductive SagSource where
  | sagN
  | vddSfd
  | vddmSfd
  | vppSfd
deriving DecidableEq, Repr

/-- The commands, one per row of the table of operations and events, in the table's order. -/
inductive Instr where
  /-- R176. Link module, and the bytes the module carried: the 8 B tag (R464) and the frame behind it. -/
  | frameArrival (module : Nat) (bytes : List Byte)
  /-- R184. Lane, and the wait steps the record had (R183, R184). -/
  | decodeDone (lane wait : Nat)
  /-- R185. Lane, and the wait steps the record had. -/
  | decodeBudget (lane wait : Nat)
  /-- R210. The record; whether a repeated index lookup succeeds (R225); upsets. -/
  | entityJoin (stream : Nat) (seq : Word32) (again : Bool) (ups : List Upset)
  /-- R215. The record in the reorder window whose key is fetched, and whether the outer code decodes every line that is read
  (R216). -/
  | outriderFetch (stream : Nat) (seq : Word32) (decodes : Bool)
  /-- R188. Stream. -/
  | acceptance (stream : Nat)
  /-- R318. -/
  | jobDispatch
  /-- R316. Ring. -/
  | jobRefusal (ring : Nat)
  /-- R320. Job context. -/
  | score (job : Nat)
  /-- R252. Job context. -/
  | scoreTremolo (job : Nat)
  /-- R221. Job context, and whether a repeated index lookup succeeds (R225). -/
  | entityUpdate (job : Nat) (again : Bool)
  /-- R218. As for an update. -/
  | entityEvict (job : Nat) (again : Bool)
  /-- R222. As for an update. -/
  | entityInvalidate (job : Nat) (again : Bool)
  /-- R116. Job context. -/
  | leafPatch (job : Nat)
  /-- R117. Job context and BASE of the group. -/
  | patchBoundary (job base : Nat)
  /-- R287. Job context. -/
  | loadHarness (job : Nat)
  /-- R287. Job context. -/
  | loadFirstPass (job : Nat)
  /-- R287. Job context, and the logical position, half, slot and cell whose read-back differs, if any (R81). -/
  | loadSecondPass (job : Nat) (badCell : Option (Nat × Nat × Nat × Nat))
  /-- R336. Job context. -/
  | mount (job : Nat)
  /-- R350. Whether the same write carries DISCARD (R358). -/
  | mountGo (discard : Bool)
  /-- R348. -/
  | mountDiscard
  /-- R352. -/
  | mountApply
  /-- R82. BASE of the group, and the read-backs that fail in the copies to its Tandem twins (R424), as in a Remount. -/
  | groupPlaneSwitch (base : Nat) (badCopies : List (Nat × Nat))
  /-- R124. Running number of the group that ended. -/
  | planeEndInvalidate (ended : Nat)
  /-- R157. Job context. -/
  | drainTile (job : Nat)
  /-- R159. Job context, and how many of its tiles memory has acknowledged in full. -/
  | drainWritesAcked (job upTo : Nat)
  /-- R335. Job context. -/
  | fence (job : Nat)
  /-- R335. Job context. -/
  | fenceComplete (job : Nat)
  /-- R332. Job context. -/
  | release (job : Nat)
  /-- R332. The word written. -/
  | sfdRelease (value : Word)
  /-- R78. BASE of the group; whether a second read of a bad acceptance buffer entry passes (R334); upsets. -/
  | recordDispatch (base : Nat) (again : Bool) (ups : List Upset)
  /-- R95. The attempt, the position within its group and the bank, whose next token this is; upsets. -/
  | bridgeSearch (attempt pos bank : Nat) (ups : List Upset)
  /-- R127. The attempt and the position within its group; upsets. -/
  | accumulationColumn (attempt pos : Nat) (ups : List Upset)
  /-- R131. The attempt, the level from 1, and the node within it; upsets. -/
  | chordNode (attempt level node : Nat) (ups : List Upset)
  /-- R140. The attempt; upsets. -/
  | tunerAdd (attempt : Nat) (ups : List Upset)
  /-- R149. The attempt; upsets. -/
  | tallyWrite (attempt : Nat) (ups : List Upset)
  /-- R327. Job context. -/
  | recordCommit (job : Nat)
  /-- R298. BASE of the group. -/
  | doubleRunSwitch (base : Nat)
  /-- R391. Upsets while the retry repeats the affected work (a part that is broken fails again: R388); the read-backs that fail in
  a Remount, each with its spare and the writes done, an item twice where it fails twice (R410); and whether it is the twin that
  disagrees where the referee of an arbitration agrees with both arrays or with neither (R426). -/
  | faultRecovery (ups : List Upset) (badSpares : List (Nat × Nat)) (twinWrong : Bool)
  /-- R428. Physical array; upsets. -/
  | curryItem (phys : Nat) (ups : List Upset)
  /-- R421. Tile. -/
  | tileSpared (tile : Nat)
  /-- R401. Memory-port address of a 128 B line, its bytes and its check bytes as returned. -/
  | memoryReadReturn (addr : Nat) (line check : List Byte)
  /-- R467. Module, lane, and the bytes of the frame it cuts, if one was arriving. -/
  | linkLane (module lane : Nat) (cut : List Byte)
  /-- R468. Module and the width trained: 0 down, 1 ×16, 2 ×8; whether at 16 GT/s; and the bytes of the frame that the retrain cut, if one
  was arriving when it began of itself. -/
  | linkRetrainDone (module width : Nat) (fast : Bool) (cut : List Byte)
  /-- R309. Ring and the word written. -/
  | sfdRingSdb (ring : Nat) (value : Word)
  /-- R310. Ring and the word written. -/
  | sfdRingCdb (ring : Nat) (value : Word)
  /-- R233. The word written. -/
  | sfdSndDb (value : Word)
  /-- R238. -/
  | sndFrameStart
  /-- R237. -/
  | sndFrameDone
  /-- R365. The word written. -/
  | sfdLedger (value : Word)
  /-- R366. Rail. -/
  | ledgerDebit (rail : Rail)
  /-- R479. Whether a write of the voltage that is not yet answered succeeds; whether the status read succeeds, and VDone of its response. -/
  | avsPoll (wrote ok vdone : Bool)
  /-- R363. The voltage the engine's own monitor reads, in mV. -/
  | gaitReached (mv : Nat)
  /-- R364. Whether the cause is the 65,536 tok bound. -/
  | avsErr (timeout : Bool)
  /-- R364. The word written to SFD_GAIT_STAT. -/
  | avsErrClear (value : Word)
  /-- R380. Sensor, its code, and whether its self-check passes. -/
  | sensorConversion (sensor : Nat) (code : BitVec 10) (ok : Bool)
  /-- R433. The word written. -/
  | sfdFaultAck (value : Word)
  /-- R507. The word written. -/
  | sfdDbgCapCtl (value : Word)
  /-- R511. The word written. -/
  | sfdDbgChordSel (value : Word)
  /-- R510. -/
  | sfdDbgTally
  /-- R346. Agent, offset and the word written. -/
  | registerWrite (agent offset : Nat) (value : Word)
  /-- R278. Agent, register 0 to 3 and the word written. -/
  | sfdImgExpectWrite (agent index : Nat) (value : Word)
  /-- R444. The rails VDD_SFD, VDDM_SFD, VPP_SFD and VHOLD in mV (R436); whether every region of a save but its heads and feature blocks
  passes its CRC (R451). -/
  | powerOn (vdd vddm vpp vhold : Nat) (regionsOk : Bool)
  /-- R442. -/
  | engineReset
  /-- R441. -/
  | warmRequest
  /-- R440. Whether VDDM_SFD stayed within range (R164). -/
  | packageWarmReset (vddmKept : Bool)
  /-- R447. Source, and the level of the rail that crosses in mV (R436). -/
  | sag (source : SagSource) (mv : Nat)
  /-- R447. VHOLD at the seal in mV. -/
  | saveSealed (vhold : Nat)
  /-- R448. -/
  | saveIncomplete
  /-- R439. VHOLD in mV. -/
  | vholdLow (mv : Nat)
  /-- R342. Whether a second read of a bad acceptance buffer entry passes (R334). -/
  | replay (again : Bool)
  /-- R481. The address of the access (R480), and the bytes the controller writes. -/
  | telemetrySelect (addr : BitVec 7) (bytes : List Byte)
  /-- R481. The address of the access (R480). -/
  | telemetryRead (addr : BitVec 7)
  /-- R480. -/
  | enec
  /-- R480. -/
  | disec
  /-- R480. -/
  | rstdaa
  /-- R480. The address assigned. -/
  | entdaa (addr : BitVec 7)
  /-- R480. The address assigned. -/
  | setdasa (addr : BitVec 7)
  /-- R480. -/
  | getpid
  /-- R480. -/
  | getbcr
  /-- R480. -/
  | getdcr
  /-- R480. -/
  | getstatus
  /-- R480. -/
  | getmrl
  /-- R482. -/
  | bypass
  /-- R496. -/
  | idcode
  /-- R482. The values shifted into the boundary cells. -/
  | samplePreload (cells : BitVec 7)
  /-- R482. -/
  | extest
  /-- R475. Ring. -/
  | memoryWriteAcknowledged (ring : Nat)
deriving DecidableEq, Repr

end Sys2Proof
end

