-- ==== Sys2Proof/Decode.lean ====
section
/-! DEFINITION. The engine is a block that takes commands, and no row of its table of operations and events is
given bits, so no word spells a command. -/

namespace Sys2Proof

/-- The command a word spells by the table's bits. The table gives no row any bits, so none. -/
def decodeTableWord (_nbits _w : Nat) : Option Instr := none

end Sys2Proof
end

