-- ==== Sys2Proof/Machine/Bits.lean ====
section
/-! DEFINITION. Bit fields, byte order and counters, and the operations of sparse stores. -/

namespace Sys2Proof.Machine

/-- Bits [lo+len−1:lo] of a number, as the field maps of the spec give them. -/
def fieldOf (n lo len : Nat) : Nat := (n >>> lo) % 2 ^ len

/-- Bit i of a number. -/
def bitOf (n i : Nat) : Bool := n.testBit i

/-- A field value at its place in a word. -/
def place (v lo len : Nat) : Nat := (v % 2 ^ len) <<< lo

/-- A flag as a one-bit field. -/
def flag (b : Bool) : Nat := if b then 1 else 0

/-- A register word made of its fields: values, lowest bits and lengths. -/
def wordOf (fs : List (Nat × Nat × Nat)) : Word :=
  BitVec.ofNat 64 (fs.foldl (fun a f => a + place f.1 f.2.1 f.2.2) 0)

/-- The little-endian number of a list of bytes (Conventions of the scope file). -/
def leNat : List Byte → Nat
  | [] => 0
  | b :: bs => b.toNat + 256 * leNat bs

/-- The k low bytes of a number, little-endian. -/
def leBytes : Nat → Nat → List Byte
  | 0, _ => []
  | k + 1, n => BitVec.ofNat 8 (n % 256) :: leBytes k (n / 256)

/-- Number of 1 bits among the w low bits. -/
def ones (w n : Nat) : Nat := (List.range w).foldl (fun a i => a + flag (n.testBit i)) 0

/-- Even parity bit over the w low bits. -/
def parityOf (w n : Nat) : Bool := ones w n % 2 == 1

/-- A counter of len bits that saturates at its maximum. -/
def satAdd (len n k : Nat) : Nat := min (n + k) (2 ^ len - 1)

/-- Bit mask of a list of bit numbers. -/
def maskOf (bs : List Nat) : Nat := bs.foldl (fun a b => a ||| (1 <<< b)) 0

/-- Distance from a to b in the ring of 2^32 cursors (R172). -/
def dist (a b : Word32) : Nat := (b - a).toNat

/-- Item i of a list, replaced. -/
def setAt {α : Type} (xs : List α) (i : Nat) (x : α) : List α := xs.set i x

/-! ## Sparse stores -/

/-- The item at an index, the default where none is listed. -/
def sget {α : Type} (d : α) : Sparse α → Nat → α
  | [], _ => d
  | (i, x) :: m, k => if i = k then x else sget d m k

/-- The store with no item at an index. -/
def sdel {α : Type} : Sparse α → Nat → Sparse α
  | [], _ => []
  | (i, x) :: m, k => if i < k then (i, x) :: sdel m k else if i = k then m else (i, x) :: m

/-- The store with an item at an index, whatever the item. -/
def sput {α : Type} : Sparse α → Nat → α → Sparse α
  | [], k, x => [(k, x)]
  | (i, y) :: m, k, x =>
    if i < k then (i, y) :: sput m k x else if i = k then (k, x) :: m else (k, x) :: (i, y) :: m

/-- The store with the item at an index set, in canonical form: an item equal to the default is not listed. -/
def sset {α : Type} [DecidableEq α] (d : α) (m : Sparse α) (k : Nat) (x : α) : Sparse α :=
  if x = d then sdel m k else sput m k x

/-- The store with the item at an index changed by a function. -/
def smod {α : Type} [DecidableEq α] (d : α) (m : Sparse α) (k : Nat) (f : α → α) : Sparse α :=
  sset d m k (f (sget d m k))

/-- The canonical form of a store: indices strictly rise from a bound, and no item is the default. -/
def sparseFrom {α : Type} [DecidableEq α] (d : α) : Nat → Sparse α → Bool
  | _, [] => true
  | lo, (i, x) :: m => decide (lo ≤ i) && decide (x ≠ d) && sparseFrom d (i + 1) m

/-- A store is in canonical form. -/
def sparseOk {α : Type} [DecidableEq α] (d : α) (m : Sparse α) : Bool := sparseFrom d 0 m

/-- The lowest index below a bound that a list does not hold. -/
def lowestFree (bound : Nat) (used : List Nat) : Option Nat :=
  (List.range bound).find? (fun i => !used.contains i)

/-- A number inserted into a rising list of numbers without repeats. -/
def insertNat : List Nat → Nat → List Nat
  | [], k => [k]
  | i :: m, k => if i < k then i :: insertNat m k else if i = k then i :: m else k :: i :: m

end Sys2Proof.Machine
end

