-- ==== Sys2Proof/Machine/Codes.lean ====
section
/-! DEFINITION. The codes of the engine: CRC-32C (R169), SHA-256 (R277), the outer code RS(136,128) (R400, R401), the mixer of
Tremolo passes (R257) and the hash of the overflow table (R203). -/

namespace Sys2Proof.Machine

/-! ## CRC-32C -/

/-- One bit of the reflected CRC-32C register (R169). -/
def crcBit (c : Nat) : Nat := if c % 2 = 1 then (c / 2) ^^^ 0x82F63B78 else c / 2

def crcByte (c : Nat) (b : Byte) : Nat :=
  let x := c ^^^ b.toNat
  crcBit (crcBit (crcBit (crcBit (crcBit (crcBit (crcBit (crcBit x)))))))

/-- CRC-32C: initial value and final XOR 0xFFFF_FFFF. -/
def crc32c (bs : List Byte) : Nat := (bs.foldl crcByte 0xFFFFFFFF) ^^^ 0xFFFFFFFF

/-! ## SHA-256

The standard defines its constants by the first primes: the 64 round constants are the first 32 bits of the fractional parts of
their cube roots, the 8 starting words those of the square roots. They are computed here from that definition. The eight
working words are two lines of four, newest first: a round adds one word to each line and drops the oldest. -/

/-- The largest x below 2^n with x^e at most m, from the bits above n already settled in acc. -/
def rootBelow (e m : Nat) : Nat → Nat → Nat
  | 0, acc => acc
  | n + 1, acc => rootBelow e m n (if (acc + 2 ^ n) ^ e ≤ m then acc + 2 ^ n else acc)

/-- The first 64 primes. -/
def firstPrimes : List Nat :=
  (List.range 312).filter fun n => 2 ≤ n && (List.range 17).all fun d => n ≤ d + 2 || n % (d + 2) != 0

/-- The first 32 bits of the fractional part of the e-th root of p. -/
def rootFraction (e p : Nat) : Nat := rootBelow e (p * 2 ^ (32 * e)) 38 0 % 2 ^ 32

def shaRoundWords : List Nat := firstPrimes.map (rootFraction 3)

/-- Rotation of a 32-bit word to the right. -/
def turn32 (n x : Nat) : Nat := x / 2 ^ n + x % 2 ^ n * 2 ^ (32 - n)

/-- The exclusive or of a word's rotations by the amounts of a list. -/
def turns (ns : List Nat) (x : Nat) : Nat := ns.foldl (fun acc n => acc ^^^ turn32 n x) 0

/-- The two lines of working words: a to d, and e to h. -/
structure ShaLines where
  upper : List Nat
  lower : List Nat

/-- One round on the sum of its constant and its message word. -/
def ShaLines.round (l : ShaLines) (kw : Nat) : ShaLines :=
  match l.upper, l.lower with
  | [a, b, c, d], [e, f, g, h] =>
    let fresh := h + kw + turns [6, 11, 25] e + (g ^^^ (e &&& (f ^^^ g)))
    let major := (a &&& (b ||| c)) ||| (b &&& c)
    ⟨[(fresh + turns [2, 13, 22] a + major) % 2 ^ 32, a, b, c], [(d + fresh) % 2 ^ 32, e, f, g]⟩
  | _, _ => l

/-- The message words newest first, k more than given: each is made of the words 2, 7, 15 and 16 before it. -/
def shaExtend : Nat → List Nat → List Nat
  | 0, ws => ws
  | k + 1, ws =>
    let near := ws.getD 1 0
    let far := ws.getD 14 0
    let word := (turns [17, 19] near ^^^ near / 2 ^ 10) + ws.getD 6 0 + (turns [7, 18] far ^^^ far / 2 ^ 3) + ws.getD 15 0
    shaExtend k (word % 2 ^ 32 :: ws)

/-- One block of 16 words. -/
def ShaLines.absorb (l : ShaLines) (block : List Nat) : ShaLines :=
  let sums := List.zipWith (· + ·) shaRoundWords (shaExtend 48 block.reverse).reverse
  let last := sums.foldl ShaLines.round l
  let join := List.zipWith fun x y => (x + y) % 2 ^ 32
  ⟨join l.upper last.upper, join l.lower last.lower⟩

def shaAbsorbAll : Nat → ShaLines → List Nat → ShaLines
  | 0, l, _ => l
  | k + 1, l, ws => shaAbsorbAll k (l.absorb (ws.take 16)) (ws.drop 16)

def shaStart : ShaLines :=
  let words := (firstPrimes.take 8).map (rootFraction 2)
  ⟨words.take 4, words.drop 4⟩

/-- Big-endian words of a list of bytes whose length is a multiple of 4. -/
def beWords : List Byte → List Nat
  | a :: b :: c :: d :: r => leNat [d, c, b, a] :: beWords r
  | _ => []

/-- SHA-256 (R277), the 32 bytes in the order the standard produces them. -/
def sha256 (bs : List Byte) : List Byte :=
  let fill := List.replicate ((119 - bs.length % 64) % 64) 0
  let words := beWords (bs ++ 0x80 :: fill ++ (leBytes 8 (8 * bs.length)).reverse)
  let l := shaAbsorbAll (words.length / 16) shaStart words
  (l.upper ++ l.lower).flatMap fun w => (leBytes 4 w).reverse

/-! ## The outer code -/

/-- Multiplication by α in GF(2^8) with 0x11D (R400). -/
def gfDouble (a : Nat) : Nat := if a < 128 then 2 * a else (2 * a) ^^^ 0x11D

/-- Product in GF(2^8). -/
def gfMul (a b : Nat) : Nat :=
  ((List.range 8).foldl (fun (acc : Nat × Nat) i =>
      (if b.testBit i then acc.1 ^^^ acc.2 else acc.1, gfDouble acc.2)) (0, a)).1

def gfPow (a : Nat) : Nat → Nat
  | 0 => 1
  | n + 1 => gfMul (gfPow a n) a

/-- Inverse of a non-zero element: its 254th power. -/
def gfInv (a : Nat) : Nat :=
  let a2 := gfMul a a
  let a4 := gfMul a2 a2
  let a8 := gfMul a4 a4
  let a16 := gfMul a8 a8
  let a32 := gfMul a16 a16
  let a64 := gfMul a32 a32
  let a128 := gfMul a64 a64
  gfMul a128 (gfMul a64 (gfMul a32 (gfMul a16 (gfMul a8 (gfMul a4 a2)))))

/-- A polynomial over GF(2^8), lowest coefficient first, at a point. -/
def gfEval (p : List Nat) (x : Nat) : Nat := p.foldr (fun c acc => c ^^^ gfMul acc x) 0

/-- Coefficients of g(x) below x^8, highest first: the generator of R400. -/
def rsGenerator : List Nat :=
  let mulRoot (g : List Nat) (r : Nat) : List Nat :=   -- g highest first, times (x + r)
    List.zipWith (· ^^^ ·) (g ++ [0]) (0 :: g.map (gfMul r))
  ((List.range 8).foldl (fun g i => mulRoot g (gfPow 2 i)) [1]).drop 1

/-- One data byte into the division register of R400, highest coefficient first. -/
def rsStep (gen : List Nat) (reg : List Nat) (b : Byte) : List Nat :=
  let f := b.toNat ^^^ reg.headD 0
  List.zipWith (fun r g => r ^^^ gfMul f g) (reg.drop 1 ++ [0]) gen

/-- The 8 check bytes of a line of data bytes (R400), check byte 0 first. -/
def rsCheck (data : List Byte) : List Byte :=
  (data.foldl (rsStep rsGenerator) (List.replicate 8 0)).map (BitVec.ofNat 8)

/-- Syndromes S0 to S7 of 136 symbols, the coefficient of x^135 first. -/
def rsSyndromes (sym : List Nat) : List Nat :=
  (List.range 8).map (fun i => let a := gfPow 2 i; sym.foldl (fun acc c => gfMul acc a ^^^ c) 0)

def gfAddPoly : List Nat → List Nat → List Nat
  | [], q => q
  | p, [] => p
  | a :: p, b :: q => (a ^^^ b) :: gfAddPoly p q

/-- Berlekamp and Massey's locator of the errors, by steps: locator, last locator, last discrepancy, length, gap. -/
def rsLocator (syn : List Nat) : Nat → Nat → List Nat × List Nat × Nat × Nat × Nat → List Nat × Nat
  | 0, _, (c, _, _, l, _) => (c, l)
  | k + 1, n, (c, b, db, l, m) =>
    let d := (List.range (l + 1)).foldl (fun acc i => acc ^^^ gfMul (c.getD i 0) (syn.getD (n - i) 0)) 0
    if d = 0 then rsLocator syn k (n + 1) (c, b, db, l, m + 1)
    else
      let q := gfMul d (gfInv db)
      let c' := gfAddPoly c (List.replicate m 0 ++ b.map (gfMul q))
      if 2 * l ≤ n then rsLocator syn k (n + 1) (c', c, d, n + 1 - l, 1)
      else rsLocator syn k (n + 1) (c', b, db, l, m + 1)

/-- Error value at a locator root: Forney's formula with first root α^0. -/
def rsValue (syn loc : List Nat) (x xinv : Nat) : Nat :=
  let omega := (List.range 8).map (fun k =>
    (List.range (k + 1)).foldl (fun acc i => acc ^^^ gfMul (loc.getD i 0) (syn.getD (k - i) 0)) 0)
  let deriv := (List.range (loc.length / 2 + 1)).foldl
    (fun acc j => acc ^^^ gfMul (loc.getD (2 * j + 1) 0) (gfPow xinv (2 * j))) 0
  gfMul x (gfMul (gfEval omega xinv) (gfInv deriv))

/-- What the memory port makes of a line's 136 symbols under correction radius t (R401). -/
inductive LineDecode where
  | clean
  /-- The data bytes of the corrected line. -/
  | corrected (data : List Byte)
  | uncorrectable
deriving DecidableEq, Repr

/-- R401: bounded-distance decoding. The corrected word must be a code word with at most t symbols changed. -/
def rsDecode (t : Nat) (data check : List Byte) : LineDecode :=
  let sym := (data ++ check).map BitVec.toNat
  let syn := rsSyndromes sym
  if syn.all (· = 0) then .clean
  else
    let (loc, l) := rsLocator syn 8 0 ([1], [1], 1, 0, 1)
    if l = 0 ∨ t < l then .uncorrectable
    else
      let fixed := (List.range 136).map (fun i =>
        let x := gfPow 2 (135 - i)
        let xinv := gfInv x
        let c := sym.getD i 0
        if gfEval loc xinv = 0 then c ^^^ rsValue syn loc x xinv else c)
      let changed := (List.zipWith (fun a b => if a = b then 0 else 1) sym fixed).sum
      if (rsSyndromes fixed).all (· = 0) && decide (changed ≤ t) then
        .corrected ((fixed.take 128).map (BitVec.ofNat 8))
      else .uncorrectable

/-! ## Mixers -/

def gammaWord : Word := 0x9e3779b97f4a7c15

/-- mix of R257. -/
def mix64 (z : Word) : Word :=
  let z := (z ^^^ (z >>> 30)) * 0xbf58476d1ce4e5b9
  let z := (z ^^^ (z >>> 27)) * 0x94d049bb133111eb
  z ^^^ (z >>> 31)

/-- record_key of R257. -/
def recordKey (seed : Word) (st : Nat) (sq : Word32) : Word :=
  seed ^^^ ((sq.setWidth 64 <<< 32) + (BitVec.ofNat 64 st <<< 20))

/-- perturb of R257. -/
def perturb (code : Code) (feature drop amp : Nat) (rk : Word) (p : Nat) : Code :=
  let n := 1024 * p + feature + 1
  let u := mix64 (rk + BitVec.ofNat 64 n * gammaWord)
  if (u >>> 48).toNat < drop then 0xFFFF
  else if code = 0xFFFF then 0xFFFF
  else
    let l := u.toNat % 2 ^ 32
    let off : Int := ((l * (2 * amp + 1) / 2 ^ 32 : Nat) : Int) - amp
    let v : Int := code.toNat + off
    BitVec.ofInt 16 (if v < 0 then 0 else if 0xFFFE < v then 0xFFFE else v)

/-- Home bucket of a key in a table of 2^b buckets (R203). -/
def homeBucket (k : Word) (b : Nat) : Nat := (k * gammaWord).toNat / 2 ^ (64 - b)

end Sys2Proof.Machine
end

