-- ==== Sys2Proof/Machine/Numbers.lean ====
section
/-! DEFINITION. Numbers, codes and quantisation: binary32 read exactly (R37 to R40), and the comparisons of wide
features (R60). -/

namespace Sys2Proof.Machine

/-- An exact dyadic number m · 2^e. -/
structure Dyadic where
  m : Int
  e : Int
deriving DecidableEq, Repr

/-- A binary32 word read as IEEE 754 reads it. -/
inductive Real32 where
  | nan
  | inf (neg : Bool)
  | fin (d : Dyadic)
deriving DecidableEq, Repr

/-- The value of a binary32 word, subnormals included (R38). -/
def readReal32 (w : Word32) : Real32 :=
  let n := w.toNat
  let neg := bitOf n 31
  let ex := fieldOf n 23 8
  let fr := fieldOf n 0 23
  let sg : Int := if neg then -1 else 1
  if ex = 255 then (if fr = 0 then .inf neg else .nan)
  else if ex = 0 then .fin ⟨sg * fr, -149⟩
  else .fin ⟨sg * (2 ^ 23 + fr), (ex : Int) - 150⟩

/-- The larger factor 2^(a−b), for bringing two exponents together. -/
def pow2Gap (a b : Int) : Int := 2 ^ (a - b).toNat

/-- a ≤ b for dyadic numbers. -/
def Dyadic.le (a b : Dyadic) : Bool := decide (a.m * pow2Gap a.e b.e ≤ b.m * pow2Gap b.e a.e)

/-- a ≤ b under IEEE 754 ordering, for words that are no NaN; −0 equals +0 (R60). -/
def Real32.le : Real32 → Real32 → Bool
  | .nan, _ => false
  | _, .nan => false
  | .inf true, _ => true
  | _, .inf false => true
  | .inf false, _ => false
  | _, .inf true => false
  | .fin a, .fin b => a.le b

/-- n / d rounded to the nearest integer, ties away from zero, for d above 0 (R38). -/
def roundHalfAway (n d : Int) : Int :=
  if 0 ≤ n then (2 * n + d) / (2 * d) else -((2 * (-n) + d) / (2 * d))

/-- r limited to lo and hi. -/
def clampInt (r lo hi : Int) : Int := if r < lo then lo else if hi < r then hi else r

/-- SCALE, CENTRE, ZERO and KIND of a quantisation entry (R35). -/
def qScale (e : BitVec 128) : Word32 := BitVec.ofNat 32 (fieldOf e.toNat 0 32)
def qCentre (e : BitVec 128) : Word32 := BitVec.ofNat 32 (fieldOf e.toNat 32 32)
def qZero (e : BitVec 128) : Nat := fieldOf e.toNat 64 16
def qKind (e : BitVec 128) : Nat := fieldOf e.toNat 80 2

/-- R37 after its marker test, on a real value that is a dyadic number, an infinity or a NaN (R39). -/
def quantiseReal (x : Real32) (e : BitVec 128) : Code :=
  match x with
  | .nan => 0xFFFF
  | x =>
    if qScale e = 0 then
      -- R44: a constant feature codes only where the input lies relative to its centre
      let c := readReal32 (qCentre e)
      if x.le c && c.le x then BitVec.ofNat 16 (qZero e)
      else if c.le x then 0xFFFE else 0x0000
    else
      match x, readReal32 (qScale e) with
      | .inf false, _ => 0xFFFE
      | .inf true, _ => 0x0000
      | .fin a, .fin s =>
        let n := a.m * pow2Gap a.e s.e
        let d := s.m * pow2Gap s.e a.e
        BitVec.ofInt 16 (clampInt (roundHalfAway n d + qZero e) 0 0xFFFE)
      | _, _ => 0xFFFF

/-- R37 for a binary32 word, with the stream's missing marker where it is set. -/
def quantise (x : Word32) (e : BitVec 128) (marker : Option Word32) : Code :=
  if marker = some x then 0xFFFF else quantiseReal (readReal32 x) e

/-- R39: the code of an int8 value v under a block scale b. -/
def quantiseInt8 (v : Int) (b : Word32) (e : BitVec 128) : Code :=
  match readReal32 b with
  | .nan => 0xFFFF
  | .inf neg =>
    if v = 0 then 0xFFFF else quantiseReal (.inf (if v < 0 then !neg else neg)) e
  | .fin d => quantiseReal (.fin ⟨v * d.m, d.e⟩) e

/-- R40: a wide word as decode keeps it, for KIND 1 (binary32) or 2 (int32). -/
def keepWide (w : Word32) (kind : Nat) (marker : Option Word32) : Word32 :=
  if kind = 1 ∧ marker = some w then 0x7FC00000 else w

/-- R33: whether a wide word is missing. -/
def wideMissing (w : Word32) (kind : Nat) : Bool :=
  if kind = 1 then readReal32 w == .nan else w == 0x80000000

/-- R34: the word of a wide feature that nothing supplies. -/
def wideDefault (kind : Nat) : Word32 := if kind = 1 then 0x7FC00000 else 0x80000000

/-- R60: x ≥ t for a wide feature of a KIND. -/
def wideGe (x t : Word32) (kind : Nat) : Bool :=
  if kind = 1 then (readReal32 t).le (readReal32 x) else decide (t.toInt ≤ x.toInt)

/-- A positive, finite, normal binary32 (R36, R52). -/
def positiveNormal (w : Word32) : Bool :=
  let ex := fieldOf w.toNat 23 8
  !bitOf w.toNat 31 && ex != 0 && ex != 255

/-- R36: the conditions on a quantisation entry, by its number in the table. -/
def qEntryOk (i : Nat) (e : BitVec 128) : Bool :=
  let res := fieldOf e.toNat 82 46 == 0
  let s := qScale e
  let c := qCentre e
  let z := qZero e
  if i < 1024 then
    res && qKind e == 0 &&
      (if s = 0 then
        (match readReal32 c with | .fin _ => true | _ => false) && decide (1 ≤ z) && decide (z ≤ 0xFFFD)
       else positiveNormal s && c == 0 && decide (z ≤ 0xFFFE))
  else res && (qKind e == 1 || qKind e == 2) && s == 0 && c == 0 && z == 0

end Sys2Proof.Machine
end

