-- ==== Sys2Proof/Config.lean ====
section
/-! DEFINITION. What the spec leaves open: the free values, each a constant without a body. -/

namespace Sys2Proof

/-- The eight check bits that the part stores with a Tally word: the assignment of check bits to data bits is the
part's own (R160), so nothing is known of them (log entry 5). -/
opaque Config.tallyCheck : Word → BitVec 8

/-- What a read makes of a Tally word with three or more of its 72 stored bits wrong: R160 states what the code does
for one and for two wrong bits only. The value is the data word a miscorrection gives, or none when it is
detected (log entry 5). -/
opaque Config.tallyBeyond : Word → BitVec 72 → Option Word

/-- The answers to the I3C common command codes whose content the I3C standard and the unit fix and R480 does not
state, by code: 0 GETPID, 1 GETBCR, 2 GETDCR, 3 GETSTATUS, 4 GETMRL; and a running count (log entry 6). -/
opaque Config.i3cAnswer : Nat → Nat → List Byte

/-- The word stored in memory for a wide field of an entity row that no update has ever written: it is missing, and
R199 makes the missing pattern depend on the feature it is joined into (log entry 7). -/
opaque Config.missingWide : Nat → Word32

end Sys2Proof
end

