-- ==== Sys2Proof/Machine/State.lean ====
section
/-! DEFINITION. The state of the engine as plain data, why a step can stop, and the state after reset. -/

namespace Sys2Proof.Machine

/-- Why the engine stops with a fault: never. The spec gives every step an effect, so no fault has a name here. -/
inductive Fault
deriving DecidableEq, Repr

/-- Why a command has no meaning. Raised by no arm of exec: every command is modelled. -/
inductive Refusal where
  /-- Raised by exec for a command of this mnemonic that is not modelled yet (safe: the machine stops). -/
  | notModelled (mnemonic : String)
deriving DecidableEq, Repr

/-! ## Identity -/

/-- The package the die is assembled in (R2). -/
inductive Variant where
  | v16
  | v32
  | v32x
deriving DecidableEq, Repr

/-- What assembly and manufacture fix (R281, R495). -/
structure Package where
  variant : Variant
  version : BitVec 4
  serial : BitVec 48
deriving DecidableEq, Repr

/-! ## Staged registers -/

/-- Staged registers of one ring (R305), as whole words. -/
structure RingCfg where
  sbase : Word
  cbase : Word
  ctl : Word
deriving DecidableEq, Repr

/-- Staged registers of one Soundboard channel (R250), as whole words. -/
structure SndCfg where
  cfg : Word
  band : Word
  key : Word
  ring : Word
deriving DecidableEq, Repr

/-- Every staged field of the register block (R346). The engine holds two of these: the values in effect and the
shadows. -/
structure Staged where
  budget : Word
  entBase : Word
  entCfg : Word
  accBase : Word
  snd : List SndCfg
  notify0 : Word
  notify1 : Word
  expect : List Word
  hcopyBase : Word
  hcopySize : Word
  rings : List RingCfg
  ledgerCfg : Word
  gait : Word
  gaitWm : Word
  faultCfg : Word
  tandem : Word
  mirror : Word
  spare : Word
  holdCfg : Word
  /-- DURABLE of each tile (R155): the durable tiles in rising order. -/
  durable : List Nat
deriving DecidableEq, Repr

/-! ## Immediate selects and debug latches -/

/-- The Bridge capture (R507 to R509). rows holds the latched CAP_ROW words in order. -/
structure Capture where
  ctl : Word
  armed : Bool
  done : Bool
  count : Nat
  rows : List Word
  recWord : Word
deriving DecidableEq, Repr

/-- The Chord latch (R511, R512). -/
structure ChordLatch where
  sel : Word
  armed : Bool
  value : Word
  recWord : Word
deriving DecidableEq, Repr

/-- The select registers (R347) and the debug windows' latches (R503). -/
structure Selects where
  stream : Word
  snd : Word
  faultLog : Word
  model : Word
  fret : Word
  row : Word
  tally : Word
  /-- The last value read through SFD_DBG_TALLY, and SFD_DBG_TALLY_ECC (R510). -/
  tallyValue : Word
  tallyEcc : Word
  capture : Capture
  chord : ChordLatch
deriving DecidableEq, Repr

/-! ## Image-wide tables -/

/-- A stream entry of the ROUTE segment (R274). format: 0 RSP2, 1 RSP1, 2 Soundboard. pair: 0 none, 1 data, 2 scale. -/
structure Route where
  stream : Nat
  format : Nat
  pair : Nat
  qtable : Nat
  markerSet : Bool
  emapEn : Bool
  emap : Nat
  marker : Word32
  partner : Nat
  models : Word
deriving DecidableEq, Repr

/-- A stretch entry (R274). -/
structure Stretch where
  model : Nat
  group : Nat
  lo : Word
  hi : Word
deriving DecidableEq, Repr

/-- A scale group entry (R51). -/
structure ScaleGroup where
  mult : BitVec 8
  zero : Code
deriving DecidableEq, Repr

/-- A Tremolo feature entry (R254). -/
structure Tremolo where
  feature : Nat
  drop : Nat
  amp : Nat
deriving DecidableEq, Repr

/-- All that the segments of an image say of one model: CHORD (R125), BRIDGE (R91), SCALE (R51), TREMOLO (R254)
and the cost entry of ROUTE (R274), with the KIND of each wide feature in the model's table (R63). -/
structure ModelDef where
  model : Nat
  vote : Bool
  lanes : Nat
  cert : BitVec 16
  classes : Nat
  missVoid : Bool
  master : Word32
  scale : List ScaleGroup
  seed : Word
  tremolo : List Tremolo
  cost : List Nat
  /-- KIND of W0 to W31 in the table the model is compiled against (R63, R275): 1 binary32, 2 int32. -/
  wideKinds : List Nat
deriving DecidableEq, Repr

/-- A group of the image: its CHORD entry, HALVES of its FRET block, its digest (R288) and the models it holds. -/
structure GroupDef where
  base : Nat
  size : Nat
  dbl : Bool
  digest : List Byte
  models : List Nat
deriving DecidableEq, Repr

/-- The image-wide tables (R294): one copy live, one pending, and the retiring copies of R356. -/
structure Tables where
  /-- Quantisation tables of 1,056 raw entries (R35). -/
  quant : List (List (BitVec 128))
  /-- ENTMAP maps of 264 entries (R208). -/
  maps : List (List Code)
  routes : List Route
  stretches : List Stretch
  models : List ModelDef
  groups : List GroupDef
deriving DecidableEq, Repr

/-- A row of the BRIDGE segment at its image place (R91). -/
structure ImageRow where
  array : Nat
  half : Nat
  bank : Nat
  row : Nat
  slot : Nat
  key : Word
  care : Word
  payload : Word32
deriving DecidableEq, Repr

/-- Where content of an array stands in an image in generation 2 form (R270, R272): its offset, and either the part of a half of an
array, or the rows of a row block, each with its slot. -/
structure Extent where
  off : Nat
  half : Nat
  array : Nat
  rows : Option (List Nat)
deriving DecidableEq, Repr

/-- An image in generation 2 form (R285, R292). Cells are indexed ((half·32 + array)·256 + slot)·64 + cell, slot
descriptors (half·32 + array)·256 + slot, masks (half·32 + array)·1024 + number. -/
structure Image where
  gen : Nat
  caps : Word
  build : Word
  length : Nat
  digest : List Byte
  tables : Tables
  cells : Sparse Word
  slots : Sparse Word
  rows : List ImageRow
  masks : Sparse (BitVec 256)
  extents : List Extent
deriving DecidableEq, Repr

/-- A patch entry (R113). op: 1 REPLACE, 2 INSERT, 3 DELETE. -/
structure PatchEntry where
  key : Word
  care : Word
  payload : Word32
  slot : Nat
  bank : Nat
  row : Nat
  plane : Bool
  array : Nat
  op : Nat
deriving DecidableEq, Repr

/-- A journal entry: a patch entry with the BASE of its group and the generation that applied it (R119, R121). -/
structure JournalEntry where
  base : Nat
  gen : Nat
  entry : PatchEntry
deriving DecidableEq, Repr

/-- An area of the harness copy (R292): an image and its journal area. -/
structure HarnessArea where
  image : Image
  journal : List JournalEntry
deriving DecidableEq, Repr

/-- What a load does at one logical position (R288): planes lists the planes it writes. -/
structure Disposition where
  pos : Nat
  planes : List Bool
  keep : Bool
deriving DecidableEq, Repr

/-- A pending image (R287, R294). -/
structure Pending where
  area : HarnessArea
  disp : List Disposition
deriving DecidableEq, Repr

/-- A load in progress (R287). stage: 1 header checked, 2 first pass done. header and digest are those of the first pass,
records the resource records of step 3, interrupted the position whose remap ends the load (R291). -/
structure Load where
  job : Nat
  image : Nat
  length : Nat
  dry : Bool
  report : Nat
  stage : Nat
  header : List Byte
  digest : List Byte
  records : List Byte
  disp : List Disposition
  interrupted : Option Nat
deriving DecidableEq, Repr

/-- The images the engine holds and the load registers (R294). -/
structure Images where
  /-- The live area of the harness copy, with the live image. -/
  live : Option HarnessArea
  /-- The live area is the second half of the region (R292). -/
  second : Bool
  pend : Option Pending
  /-- The former live area, kept under R357. -/
  former : Option HarnessArea
  load : Option Load
  last : Nat
  foreign : Nat
  /-- The table generation in effect (R356), and the retiring copies by generation. -/
  tgen : Nat
  retiring : List (Nat × Tables)
deriving DecidableEq, Repr

/-! ## Ingest and decode -/

/-- Cursors and counters of a stream (R172, R197, R332). -/
structure Stream where
  started : Bool
  next : Word32
  accept : Word32
  release : Word32
  requested : Word32
  /-- A Mount has put the stream into a pair: it takes E and its accept cursor anew (R196). -/
  resync : Bool
  crcVoids : Nat
  formatVoids : Nat
  budgetVoids : Nat
  discards : Nat
  /-- Records accepted since the accept cursor was last written (R331). -/
  unwritten : Nat
deriving DecidableEq, Repr

/-- Where a record of the reorder window stands. -/
inductive WindowPhase where
  /-- Waits for a free lane (R182). -/
  | needLane
  /-- Holds a decode lane (R184). -/
  | inLane
  /-- Decoded, waits for its entity join (R210). -/
  | joining
  /-- Ready for acceptance (R515). -/
  | ready
deriving DecidableEq, Repr

/-- The block of a record of a block-scaled pair: which scale frame it is paired with, by the order of its check 4, the block's
number (R190) and its scales (R193). -/
structure BlockRef where
  entry : Nat
  number : Nat
  scales : List Word32
deriving DecidableEq, Repr

/-- A record in the reorder window (R187). narrow and wide hold what the payload supplied, then, once assembled,
every feature that is not missing. -/
structure WindowRecord where
  stream : Nat
  seq : Word32
  key : Word
  /-- Void status of ingest, 0 when none (R328). -/
  void : Nat
  /-- The frame, or nothing for a Soundboard record. -/
  frame : List Byte
  /-- Codes of a Soundboard record with the first feature (R236). -/
  sndFirst : Nat
  sndCodes : List Code
  /-- Order of check 4 (R182), table generation (R356) and decode budget (R355) of that moment. -/
  order : Nat
  tgen : Nat
  budget : Nat
  phase : WindowPhase
  /-- Work steps of the record (R183). -/
  work : Nat
  narrow : List (Nat × Code)
  wide : List (Nat × Word32)
  /-- A run-ahead fetch holds the key's row for this record (R214). -/
  fetched : Bool
  block : Option BlockRef
deriving DecidableEq, Repr

/-- A scale frame from its check 4 to the end of its decode (R191). -/
structure ScaleFrame where
  seq : Word32
  block : Nat
  ncount : Nat
  order : Nat
  budget : Nat
  frame : List Byte
  inLane : Bool
deriving DecidableEq, Repr

/-- A decoded scale frame in a pair's holding (R191). pairedTo: the data block (SEQ / 64) it is paired with, left: the records of
that block still to decode (R193). -/
structure HeldScale where
  seq : Word32
  block : Nat
  order : Nat
  pairedTo : Option Nat
  left : Nat
  scales : List Word32
deriving DecidableEq, Repr

/-- The state of a block-scaled pair (R191 to R196), indexed by its data stream. -/
structure Pair where
  unseated : Bool
  coming : List ScaleFrame
  /-- Oldest first. -/
  holding : List HeldScale
  dataBlock : Nat
  scaleBlock : Nat
  noScale : Bool
  scaleBad : Bool
deriving DecidableEq, Repr

/-- What a decode lane holds, with its order of check 4. scale: the lane decodes a scale frame, which is no record
(R191). -/
structure Lane where
  stream : Nat
  seq : Word32
  scale : Bool
  order : Nat
  work : Nat
  budget : Nat
deriving DecidableEq, Repr

/-- A frame in a receive buffer: its module, whether a retrain has cut it (R466), and its tag and bytes. -/
structure RxFrame where
  module : Nat
  cut : Bool
  bytes : List Byte
deriving DecidableEq, Repr

structure Ingest where
  /-- Frames in the receive buffers, in order of arrival (R189). -/
  rx : List RxFrame
  /-- Frames that have passed check 4 since the start, which orders those that wait for a lane (R182). -/
  order : Nat
  /-- The reorder window, in the order of check 4 (R187). -/
  window : List WindowRecord
  /-- The eight decode lanes (R182). -/
  lanes : List (Option Lane)
  streams : Sparse Stream
  pairs : Sparse Pair
  badGen : Nat
  hdrErr : Nat
  unrouted : Nat
deriving DecidableEq, Repr

/-! ## Entity table -/

/-- The fields of an entity row (R199). A wide field that no update has written is missing whatever its KIND. -/
structure EntityRow where
  narrow : Sparse Code
  wide : List (Option Word32)
deriving DecidableEq, Repr

/-- An index entry, an overflow entry or a stranded key (R201, R225). bad: its parity does not agree. -/
structure EntityEntry where
  key : Word
  row : Nat
  lost : Bool
  bad : Bool
deriving DecidableEq, Repr

/-- An overflow bucket (R202). -/
structure Bucket where
  passed : Nat
  entries : List (Nat × EntityEntry)
  lost : Bool
deriving DecidableEq, Repr

/-- A cached row (R214), least recently joined first in the cache. -/
structure CachedRow where
  key : Word
  row : EntityRow
deriving DecidableEq, Repr

/-- An update entry (R217). -/
structure UpdateEntry where
  key : Word
  place : Nat
  masked : Bool
  reserved : Bool
  fmask : BitVec 256
  fmaskX : BitVec 8
  row : EntityRow
deriving DecidableEq, Repr

/-- An entity job in progress (R220). phase: 0 dispatched, 1 rows written or entries checked. -/
structure EntityJob where
  job : Nat
  evict : Bool
  entries : List UpdateEntry
  newRows : List Nat
  phase : Nat
deriving DecidableEq, Repr

structure Entities where
  index : Sparse EntityEntry
  overflow : Sparse Bucket
  stranded : List EntityEntry
  rows : Sparse EntityRow
  cache : List CachedRow
  /-- Overflow buckets in the row cache, which prove keys absent (R215). -/
  buckets : List Nat
  job : Option EntityJob
  entityVoids : Nat
  ovfRefused : Nat
  /-- Retired index entries, and how many have been retired since the last reset (R225, R230). -/
  retired : List Nat
  retirements : Nat
  /-- Keys whose LOST was set before the last reset, which SFD_ENT_CNT no longer counts (R230). -/
  lostBefore : List Word
deriving DecidableEq, Repr

/-! ## Soundboard -/

/-- A Soundboard channel (R231 to R249). -/
structure Channel where
  /-- Write cursor (R233). -/
  write : Word32
  /-- Samples since the channel was enabled: the first sample of the next frame, and the frame's number. -/
  sample : Word32
  frame : Nat
  /-- Accept cursor when the channel was enabled (R236). -/
  q0 : Word32
  overruns : Nat
  backward : Nat
  /-- Doorbells that may still make a frame ready: cursor and running number, which orders the frames (R238). -/
  doors : List (Word32 × Nat)
  /-- Where frames start (R248): from a frame number on, its first sample and the hop, newest first. -/
  spans : List (Nat × Word32 × Nat)
deriving DecidableEq, Repr

/-- A frame being computed or held (R238, R239). -/
structure SoundFrame where
  channel : Nat
  stream : Nat
  seq : Word32
  key : Word
  first : Nat
  codes : List Code
  overrun : Bool
deriving DecidableEq, Repr

structure Soundboard where
  channels : List Channel
  frame : Option SoundFrame
  doorbells : Nat
deriving DecidableEq, Repr

/-! ## Acceptance buffer -/

/-- A job place of an acceptance buffer entry (R330). -/
structure JobPlace where
  job : Nat
  idx : Nat
  /-- Patch generation of the first dispatch (R119). -/
  gen : Nat
  /-- The group of the first comparison and its plane (R119, R514), until a restart that loads the image afresh. -/
  grp : Nat
  plane : Option Bool
  dispatched : Bool
  /-- The attempt of the first dispatch since the start, which orders marked records (R391). -/
  first : Option Nat
  /-- Tally marks of the plane-A and plane-B writes (R162). markA serves a group with one half, markB the VOIDS
  increment. -/
  markA : Bool
  markB : Bool
  /-- Tiles that a restart has zeroed since the marked write: the words in them are written again (R165). -/
  oweA : List Nat
  oweB : List Nat
  /-- The replay of R342 still has to score the record. -/
  replay : Bool
  /-- RESERVED no longer holds the record's cost (R373). -/
  paid : Bool
  /-- The record has its status in this job and may commit. -/
  settled : Bool
  commit : Bool
  status : Nat
  multi : Bool
  overflow : Bool
  miss : Bool
  /-- Words of the plane-A write before it, by global word, kept until the plane-B pass has settled (R154). -/
  undo : List (Nat × Word)
  /-- Words that the plane-A write saturated first (R154). -/
  undoSat : List Nat
deriving DecidableEq, Repr

/-- An accepted record: a head and, unless voided at ingest, a feature block (R330). -/
structure Head where
  place : Nat
  block : Option Nat
  stream : Nat
  seq : Word32
  key : Word
  void : Nat
  narrow : Sparse Code
  wide : List Word32
  /-- The CRC of the head or of the feature block does not agree (R334). -/
  headBad : Bool
  blockBad : Bool
  places : List JobPlace
deriving DecidableEq, Repr

structure Acceptance where
  heads : List Head
  retiredHeads : List Nat
  retiredBlocks : List Nat
deriving DecidableEq, Repr

/-! ## Rings and jobs -/

/-- Indices and status of a ring (R305). -/
structure Ring where
  subHead : Word32
  subTail : Word32
  cmpHead : Word32
  cmpTail : Word32
  halt : Nat
  restoring : Bool
  /-- Both SIZE fields saved with the ring (R344). -/
  savedS : Nat
  savedC : Nat
  armed : Bool
  /-- Writes of completion entries that memory has not acknowledged, oldest first: the module that carries each, and its address
  (R468, R475). -/
  unacked : List (Nat × Nat)
  /-- An armed ring has an announcement to send (R474). -/
  announce : Bool
  /-- Age of the descriptors within SUB_TAIL: tails in order, each with the doorbell count (R375). -/
  tails : List (Word32 × Nat)
deriving DecidableEq, Repr

/-- A job context (R319). -/
structure Job where
  id : Nat
  ring : Nat
  op : Nat
  tag : Nat
  desc : BitVec 512
  /-- First completion slot P (R318). -/
  slot : Word32
  /-- Records N of a scoring job. -/
  n : Nat
  model : Option ModelDef
  /-- The groups that score the job, each with its range of keys (R322). -/
  groups : List (Nat × Word × Word)
  tile : Nat
  tiles : Nat
  stride : Nat
  add : Bool
  k : Nat
  stream : Nat
  first : Word32
  /-- Next record index to offer (R320). -/
  next : Nat
  committed : Nat
  voided : Nat
  /-- Energy charged for each record, and what remains of the job's cost (R373). -/
  costRec : Nat
  costLeft : Nat
  /-- Groups of the job that a Mount has not kept (R322). -/
  voidGroups : List Nat
  /-- Sequence number from which indices are VOID_ROUTE (R324). -/
  routeGone : Option Word32
  /-- Status of record indices that have no job place of their own (R321, R324). -/
  special : Sparse Nat
  /-- Indices of special whose VOIDS increment a restart has lost with its tile (R165). -/
  owed : List Nat
  /-- The job's own step has been taken. -/
  begun : Bool
  /-- Tiles of a drain that memory has acknowledged (R159). -/
  acked : Nat
  owns : Bool
  written : Bool
  /-- A reset has ended the job before its job entry could be written (R516). -/
  ended : Bool
  status : Nat
  done : Nat
  detail : Nat
deriving DecidableEq, Repr

/-- A patch entry with the rows it has reserved and will free (R114): physical array, bank and rows. copy: 0 for the entry's own
position, 16 for its twin (R424). -/
structure PatchItem where
  grp : Nat
  entry : PatchEntry
  copy : Nat
  phys : Nat
  bank : Nat
  newRow : Option Nat
  oldRow : Option Nat
deriving DecidableEq, Repr

structure PatchJob where
  job : Nat
  items : List PatchItem
  /-- Numbers of the groups whose boundary is still to come. -/
  groups : List Nat
deriving DecidableEq, Repr

structure Jobs where
  jobs : List Job
  nextId : Nat
  doorbells : Nat
  patches : List PatchJob
deriving DecidableEq, Repr

/-! ## Arrays -/

/-- A fret cell's configuration and parity bit (R57, R85). -/
structure StoredCell where
  cfg : BitVec 42
  parity : Bool
deriving DecidableEq, Repr

/-- An image place: position, plane and slot (R417). -/
structure Home where
  pos : Nat
  plane : Bool
  slot : Nat
deriving DecidableEq, Repr

/-- A physical row of the Bridge (R89), with the row number of its content and the image place of the row's slot, which are no
stored bits of the row. -/
structure BridgeRow where
  key : Word
  care : Word
  payload : Word32
  slot : BitVec 4
  valid : Bool
  plane : Bool
  mlen : BitVec 7
  p0 : Bool
  p1 : Bool
  rownum : Nat
  own : Option Home
deriving DecidableEq, Repr

/-- A scale entry held in an array (R295). -/
structure ScaleItem where
  plane : Bool
  model : Nat
  group : Nat
  entry : ScaleGroup
deriving DecidableEq, Repr

/-- What a move map says (R417): content of an image slot stands at another place. pos, plane and slot of both. -/
structure Move where
  fromPos : Nat
  fromPlane : Bool
  fromSlot : Nat
  toPos : Nat
  toPlane : Bool
  toSlot : Nat
deriving DecidableEq, Repr

/-- A physical mask in use (R67): position and plane of the cells that reference it, the position and number of the image mask
it holds, and its number on the array. -/
structure MaskUse where
  pos : Nat
  plane : Bool
  fromPos : Nat
  mask : Nat
  phys : Nat
deriving DecidableEq, Repr

/-- A place of the local feature buffer (R17, R386): its narrow codes, missing ones left out, its wide words, and those of its 272
words of 64 bits whose parity bit does not agree. -/
structure FeaturePlace where
  narrow : Sparse Code
  wide : List Word32
  odd : List Nat
deriving DecidableEq, Repr

/-- The 34 physical arrays. Cells are indexed ((phys·2 + plane)·256 + slot)·64 + cell, descriptors
(phys·2 + plane)·256 + slot, masks phys·1024 + mask, rows (phys·16 + bank)·1152 + row, scale entries
phys·2048 + place. -/
structure Arrays where
  cells : Sparse StoredCell
  descs : Sparse (BitVec 10)
  masks : Sparse (BitVec 256)
  maskUse : List MaskUse
  rows : Sparse BridgeRow
  scales : Sparse (Option ScaleItem)
  /-- The two places of each array's local feature buffer, by phys·2 + place (R17), and the place that the next record is loaded
  into: one is compared while the other is loaded. -/
  buffers : Sparse FeaturePlace
  nextPlace : BitVec 34
  /-- Physical array of each logical position (R435). -/
  map : List Nat
  /-- Positions out of service, and retired physical arrays. -/
  out : BitVec 32
  retired : BitVec 34
  /-- Retired rows and slots, by physical index (R122, R408). -/
  retiredRows : List Nat
  retiredSlots : List Nat
  moves : List Move
  /-- Rows reserved by patches in progress (R93). -/
  reserved : List Nat
deriving DecidableEq, Repr

/-! ## Groups and attempts -/

/-- One pass of a record of a job in one plane. -/
structure PassRef where
  job : Nat
  idx : Nat
  pass : Nat
  plane : Bool
deriving DecidableEq, Repr

/-- A detected error (R385). check is the event code of R431; pos the logical position of the part, phys its array;
plane, bank, slot and place as the fault log has them, grp the number of the group, 0 for none. -/
structure Detected where
  check : Nat
  grp : Nat
  pos : Nat
  phys : Nat
  plane : Bool
  bank : Nat
  slot : Nat
  place : Nat
  model : Nat
  detail : Nat
  /-- The pass of a record whose check it was, none for a Curry comparison (R429). -/
  work : Option PassRef
deriving DecidableEq, Repr

/-- A group of the live image (R288, R294, R413). -/
structure Group where
  /-- Running number, from 1: a Mount that does not keep a group makes a new one. -/
  gid : Nat
  base : Nat
  size : Nat
  /-- A Mount has ended the group, whose planes R357 keeps until R124 frees their rows. -/
  ended : Bool
  dbl : Bool
  /-- The group is in Double by a refold: one Tally write for both halves (R413). -/
  refold : Bool
  /-- Live plane, of a group that is not in Double. -/
  plane : Bool
  /-- A plane switch of a Mount is due at the group's next record boundary (R82). -/
  switchDue : Bool
  gen : Nat
  digest : List Byte
  models : List Nat
  suspended : List Nat
  tandem : Bool
  paused : Bool
  /-- Records ready for the group: job and index. -/
  ready : List (Nat × Nat)
  /-- Records whose attempt failed a check (R391): the attempt of the first dispatch, which orders them, job and index. -/
  marked : List (Nat × Nat × Nat)
  /-- The Tremolo record in the group and its next pass (R253). -/
  tremolo : Option (Nat × Nat × Nat)
  /-- The run of a group in Double (R298), how many of it are dispatched in this plane, and which plane. -/
  run : List (Nat × Nat)
  runPos : Nat
  inB : Bool
deriving DecidableEq, Repr

/-- A leaf's contribution (R102): position, bank and payload. -/
structure Contribution where
  pos : Nat
  bank : Nat
  payload : Word32
deriving DecidableEq, Repr

/-- An element of a partial sum vector with its mod-3 residue (R127, R129). -/
structure Partial where
  value : Word
  residue : Nat
deriving DecidableEq, Repr

/-- One scoring pass of a record in a group: from its comparison to its sums. -/
structure Attempt where
  id : Nat
  /-- The attempt of the record's first dispatch. -/
  first : Nat
  grp : Nat
  base : Nat
  size : Nat
  dbl : Bool
  refold : Bool
  job : Nat
  idx : Nat
  stream : Nat
  seq : Word32
  pass : Nat
  plane : Bool
  /-- Chain depth h of the model in the group (R76). -/
  depth : Nat
  /-- Latched slot words of every used slot, by position·256 + slot (R78), and the descriptors of the model's slots. -/
  words : List (Nat × Word)
  descs : List (Nat × BitVec 10)
  /-- Tokens searched, by position·16 + bank (R95). -/
  tokens : Sparse Nat
  /-- Chain targets that a hand-off has named, by position·256 + slot (R75). -/
  handed : List Nat
  contribs : List Contribution
  partials : List (Nat × List Partial)
  /-- Sums of Chord nodes, by level·32 + node (R131). -/
  nodes : List (Nat × List Partial)
  /-- Certified sums by lane (R140), once the Tuner has added. -/
  cert : List Int
  tuned : Bool
  multi : Bool
  overflow : Bool
  miss : Bool
  /-- A leaf miss under VOID (R104). -/
  missVoid : Bool
deriving DecidableEq, Repr

/-- What a record's passes and halves have given so far (R261, R265, R413): totals by element, the squares, and the
totals of the plane-A half that wait for the plane-B half. -/
structure Gathered where
  job : Nat
  idx : Nat
  sums : List Int
  squares : List Int
  half : List Int
  multi : Bool
  overflow : Bool
  miss : Bool
  missVoid : Bool
deriving DecidableEq, Repr

structure Groups where
  groups : List Group
  nextGroup : Nat
  attempts : List Attempt
  nextAttempt : Nat
  gathered : List Gathered
  /-- Match counters by model (R501): multiple matches, overflows, misses. -/
  multi : Sparse Nat
  overs : Sparse Nat
  miss : Sparse Nat
deriving DecidableEq, Repr

/-! ## Tally -/

/-- A Tally word: the word last written, and which of its 72 stored bits (64 data bits below 8 check bits) have since
flipped (R160). -/
structure TallyWord where
  value : Word
  flips : BitVec 72
deriving DecidableEq, Repr

/-- Status of a tile (R155). saturated holds the indices of the words that have saturated since the last clear. -/
structure Tile where
  owner : Option Nat
  saturated : List Nat
  rebuilt : Bool
  lost : List Nat
  lastAdd : Bool
  voids : Nat
deriving DecidableEq, Repr

structure Tally where
  words : Sparse TallyWord
  tiles : Sparse Tile
  /-- Words whose last read was corrected and written back (R421). -/
  corrected : List Nat
  /-- Tiles that wait for a spare row, and tiles that have one. -/
  sparing : List Nat
  spared : List Nat
  /-- Words whose uncorrectable error has been reported, until they are written (R161). -/
  told : List Nat
  /-- Tiles whose words were not kept or restored at the last restart (R164). -/
  unkept : List Nat
deriving DecidableEq, Repr

/-! ## Mount -/

/-- A Mount request: of the register, or of a MOUNT job (R350). -/
inductive MountRequest where
  | register
  | job (id : Nat)
deriving DecidableEq, Repr

structure MountState where
  /-- The Mount in progress, and the requests that wait for it, in order. -/
  active : Option MountRequest
  waiting : List MountRequest
  /-- The active Mount has passed its apply point. -/
  applied : Bool
  /-- Writes held by the freeze (R352): offset and word. -/
  frozen : List (Nat × Word)
  lastOk : Bool
  appliedCnt : Nat
  failedCnt : Nat
  ignored : Nat
  fail : Word
deriving DecidableEq, Repr

/-! ## Ledger and gaits -/

structure Ledger where
  balance : Int
  reserved : Nat
  spills : Nat
  core : Nat
  sram : Nat
  mram : Nat
  /-- Available credit at the last derivation of the ledger target (R379). -/
  derivedAt : Int
deriving DecidableEq, Repr

/-- A thermal sensor (R382, R384). -/
structure Sensor where
  temp : Nat
  peak : Nat
  bad : Bool
  converted : Bool
deriving DecidableEq, Repr

structure GaitState where
  /-- Gait in effect, the gait last requested and whether a change is under way (R362, R363). -/
  now : Nat
  requested : Nat
  moving : Bool
  /-- G of R379. -/
  ledgerGait : Nat
  /-- The write of the voltage requested has succeeded (R364, R479). -/
  written : Bool
  /-- The regulator has reported the voltage reached. -/
  vdone : Bool
  attempts : Nat
  avsErr : Bool
  changes : Nat
  retries : Nat
  sensors : List Sensor
  /-- Thresholds of R380 in force: 0 none, 1 from 95 °C, 2 from 100 °C, 3 from 105 °C, 4 from 110 °C. -/
  thermal : Nat
deriving DecidableEq, Repr

/-! ## Faults -/

/-- A fault log entry (R435). -/
structure LogEntry where
  index : Word32
  event : Nat
  cls : Nat
  rung : Nat
  mask : Nat
  array : Nat
  phys : Nat
  plane : Bool
  bank : Nat
  slot : Nat
  place : Nat
  model : Nat
  detail : Nat
deriving DecidableEq, Repr

structure Faults where
  log : List LogEntry
  logHead : Word32
  ack : Word32
  logLost : Nat
  /-- The last entry overwritten before it was acknowledged: its log index, until ACK passes it (R432). -/
  lostAt : Option Word32
  queue : List Detected
  /-- Transient errors by part since the engine last started (R390): the part's key and the count. -/
  trans : List (Detected × Nat)
  transients : Nat
  lasting : Nat
  /-- Curry cycle place of each physical array (R428), cycles each has completed, and mismatches. -/
  curry : List Nat
  cycles : List Nat
  mismatches : Nat
  dropped : BitVec 16
  /-- Pages remapped to spares, oldest first, pages that failed, lines that a first read found uncorrectable or that were last
  corrected, and lines lost (R401 to R406). -/
  pages : List (Nat × Nat)
  retryLines : List Nat
  correctedLines : List Nat
  lostLines : List Nat
  /-- Lost lines of one copy of the harness copy, for which the line of the other copy is being read (R405). -/
  mirrorWaits : List Nat
  lineCorrected : Nat
  uncorrectable : Nat
  mirrorReads : Nat
  /-- Harness items marked lost (R406): ((half·32 + position)·256 + slot)·128 + cell, with 64 for the descriptor and 65 for the
  slot's rows. -/
  lostItems : List Nat
deriving DecidableEq, Repr

/-! ## Supplies, reset and the Saddlebag -/

inductive PowerPhase where
  /-- In reset (R437, R447). -/
  | inReset
  /-- Between the start and the next reset or save. -/
  | running
  /-- Writing a save (R447). -/
  | saving
deriving DecidableEq, Repr

structure Power where
  phase : PowerPhase
  /-- The rails in mV as last reported (R436). -/
  vddMv : Nat
  vddmMv : Nat
  vppMv : Nat
  vholdMv : Nat
  cause : Nat
  sagSrc : Nat
  replayDue : Bool
  tallyKept : Bool
  records : Nat
  savedDigest : List Byte
  saveLast : Word
  accHeld : Bool
  /-- The save in progress answers a warm reset request (R441). -/
  warm : Bool
  /-- VDDM_SFD has stayed within range since a warm save was sealed (R164). -/
  vddmKept : Bool
  /-- The journal of a restored save, until the saved image is mounted (R121). -/
  savedJournal : List JournalEntry
  /-- While a replay is due: the patch generation in effect at the reset, by BASE of the group (R121, R450). -/
  replayGens : List (Nat × Nat)
deriving DecidableEq, Repr

/-- What a save holds (R450). -/
structure Save where
  cause : Nat
  digest : List Byte
  streams : Sparse Stream
  /-- Ring state, with both SIZE fields in savedS and savedC; restoring marks the rings that hold a job context. -/
  rings : List Ring
  jobs : Jobs
  tiles : Sparse Tile
  journal : List JournalEntry
  groupGens : List (Nat × Nat)
  /-- The durable tiles and their words. -/
  durable : List Nat
  words : Sparse TallyWord
  heads : List Head
deriving DecidableEq, Repr

structure Saddlebag where
  save : Option Save
  sealed : Bool
  consumed : Bool
  /-- The save-begun mark (R459). -/
  begun : Bool
  saves : Nat
deriving DecidableEq, Repr

/-! ## Links, telemetry, test access, pins -/

structure LinkModule where
  /-- 0 down, 1 up ×16, 2 up ×8 (R476). -/
  state : Nat
  fast : Bool
  failedLane : Nat
  retrains : Nat
  tagErr : Nat
  cut : Nat
  retraining : Bool
  /-- A lane has failed since the last training, which is why the module retrains at ×8 (R467). -/
  degrade : Bool
  /-- Memory reads in flight on the module, in order (R468). -/
  requests : List Nat
deriving DecidableEq, Repr

structure Telemetry where
  index : Nat
  dynamic : Option (BitVec 7)
  events : Bool
  reply : List Byte
  answers : Nat
deriving DecidableEq, Repr

/-- The TAP (R482): the register selected, what it shifts out, and the boundary cells. -/
structure Tap where
  selected : Nat
  out : Word32
  cells : BitVec 7
  sampled : BitVec 7
deriving DecidableEq, Repr

/-- The board pins with boundary cells (R482, R483): SAG_N, SFD_FAULT_N (false is asserted) and the bus pins. -/
structure Pins where
  sagN : Bool
  faultN : Bool
  avsClk : Bool
  avsMdata : Bool
  avsSdata : Bool
  i3cScl : Bool
  i3cSda : Bool
deriving DecidableEq, Repr

/-- What the engine sends out of the block. -/
inductive Message where
  /-- Notification vector (R473). -/
  | notify (vector : Nat)
  /-- READY (R472). -/
  | ready
  /-- SAVE_SEALED (R472). -/
  | saveSealed
  /-- AVSBus write of a voltage in mV (R479). -/
  | avsWrite (mv : Nat)
  /-- AVSBus read of status (R479). -/
  | avsStatus
  /-- I3C in-band interrupt with the event code (R480). -/
  | inBand (event : Nat)
  /-- A memory read request on a module (R463). -/
  | memRead (module addr : Nat)
  /-- The write of a completion entry, issued again on a module (R468). -/
  | memWrite (module addr : Nat)
deriving DecidableEq, Repr

/-- The state of the engine. -/
structure State where
  pkg : Package
  live : Staged
  shadow : Staged
  sel : Selects
  img : Images
  ing : Ingest
  ent : Entities
  snd : Soundboard
  acc : Acceptance
  rings : List Ring
  jobs : Jobs
  arr : Arrays
  grp : Groups
  tally : Tally
  mnt : MountState
  led : Ledger
  gait : GaitState
  flt : Faults
  pwr : Power
  bag : Saddlebag
  link : List LinkModule
  tele : Telemetry
  tap : Tap
  pins : Pins
  /-- Memory as the engine's port has last written it or last had it returned. -/
  mem : List Host.Cell
  /-- Messages sent, oldest first. -/
  out : List Message
  /-- Commands that wait, first in, first out. -/
  pending : List Instr
deriving DecidableEq, Repr

/-! ## Reset values -/

def Staged.reset : Staged where
  budget := 0x10000
  entBase := 0
  entCfg := 0
  accBase := 0
  snd := List.replicate 64 ⟨0, 0, 0, 0⟩
  notify0 := 0
  notify1 := 0x5
  expect := [0, 0, 0, 0]
  hcopyBase := 0
  hcopySize := 0
  rings := List.replicate 64 ⟨0, 0, 0⟩
  ledgerCfg := 0xFFFF
  gait := 0x30
  gaitWm := 0
  faultCfg := 0xDA00160410
  tandem := 0
  mirror := 0
  spare := 0
  holdCfg := 0x5DC
  durable := []

def Capture.reset : Capture := ⟨0, false, false, 0, [], 0⟩

def Selects.reset : Selects :=
  ⟨0, 0, 0, 0, 0, 0, 0, 0, 0, Capture.reset, ⟨0, false, 0, 0⟩⟩

def Stream.reset : Stream := ⟨false, 0, 0, 0, 0, false, 0, 0, 0, 0, 0⟩

def Pair.reset : Pair := ⟨true, [], [], 0, 0, true, false⟩

def Images.reset : Images := ⟨none, false, none, none, none, 0, 0, 0, []⟩

def Ingest.reset : Ingest := ⟨[], 0, [], List.replicate 8 none, [], [], 0, 0, 0⟩

def Entities.reset : Entities := ⟨[], [], [], [], [], [], none, 0, 0, [], 0, []⟩

def Channel.reset : Channel := ⟨0, 0, 0, 0, 0, 0, [], []⟩

def Soundboard.reset : Soundboard := ⟨List.replicate 64 Channel.reset, none, 0⟩

def Ring.reset : Ring := ⟨0, 0, 0, 0, 0, false, 0, 0, false, [], false, []⟩

def Jobs.reset : Jobs := ⟨[], 0, 0, []⟩

def Arrays.reset : Arrays where
  cells := []
  descs := []
  masks := []
  maskUse := []
  rows := []
  scales := []
  buffers := []
  nextPlace := 0
  map := List.range 32
  out := 0
  retired := 0
  retiredRows := []
  retiredSlots := []
  moves := []
  reserved := []

def Groups.reset : Groups := ⟨[], 1, [], 0, [], [], [], []⟩

def Tally.reset : Tally := ⟨[], [], [], [], [], [], []⟩

def MountState.reset : MountState := ⟨none, [], false, [], false, 0, 0, 0, 0⟩

def Ledger.reset : Ledger := ⟨0, 0, 0, 0, 0, 0, 0⟩

def GaitState.reset : GaitState where
  now := 0
  requested := 0
  moving := false
  ledgerGait := 0
  written := false
  vdone := false
  attempts := 0
  avsErr := false
  changes := 0
  retries := 0
  sensors := List.replicate 8 ⟨0, 0, false, false⟩
  thermal := 0

def Faults.reset : Faults where
  log := []
  logHead := 0
  ack := 0
  logLost := 0
  lostAt := none
  queue := []
  trans := []
  transients := 0
  lasting := 0
  curry := List.replicate 34 0
  cycles := List.replicate 34 0
  mismatches := 0
  dropped := 0
  pages := []
  retryLines := []
  correctedLines := []
  lostLines := []
  mirrorWaits := []
  lineCorrected := 0
  uncorrectable := 0
  mirrorReads := 0
  lostItems := []

def Power.reset : Power where
  phase := .inReset
  vddMv := 0
  vddmMv := 0
  vppMv := 0
  vholdMv := 0
  cause := 0
  sagSrc := 0
  replayDue := false
  tallyKept := false
  records := 0
  savedDigest := List.replicate 32 0
  saveLast := 0
  accHeld := false
  warm := false
  vddmKept := false
  savedJournal := []
  replayGens := []

def LinkModule.reset : LinkModule := ⟨0, false, 0x1F, 0, 0, 0, false, false, []⟩

/-- The engine in reset, with no save in its Saddlebag and every register field at the Reset value of its field map.
The first step of a run from here is POWER_ON. The values the spec leaves to package, unit and start are those of log
entry 2. -/
def State.reset : State where
  pkg := ⟨.v32, 0, 0⟩
  live := Staged.reset
  shadow := Staged.reset
  sel := Selects.reset
  img := Images.reset
  ing := Ingest.reset
  ent := Entities.reset
  snd := Soundboard.reset
  acc := ⟨[], [], []⟩
  rings := List.replicate 64 Ring.reset
  jobs := Jobs.reset
  arr := Arrays.reset
  grp := Groups.reset
  tally := Tally.reset
  mnt := MountState.reset
  led := Ledger.reset
  gait := GaitState.reset
  flt := Faults.reset
  pwr := Power.reset
  bag := ⟨none, false, false, false, 0⟩
  link := [LinkModule.reset, LinkModule.reset]
  tele := ⟨0, none, false, [], 0⟩
  tap := ⟨0, 0, 0, 0⟩
  pins := ⟨true, true, false, false, false, true, true⟩
  mem := []
  out := []
  pending := []

end Sys2Proof.Machine
end

