-- ==== Sys2Proof/Machine/Memory.lean ====
section
/-! DEFINITION. Memory as the engine's memory port sees it (R463, R469): 48-bit addresses, one byte each. -/

namespace Sys2Proof.Machine

/-- What an address that nothing has written or returned reads as: a zero byte (log entry 4). -/
def memDefault : Byte := 0

/-- A memory-port address: 48 bits (Package links). An address beyond them wraps (log entry 4). -/
def portAddr (a : Nat) : Nat := a % 2 ^ 48

/-- One byte of memory. -/
def memByte (m : List Host.Cell) (a : Nat) : Byte := sget memDefault m (portAddr a)

/-- Memory with one byte written. -/
def memSet (m : List Host.Cell) (a : Nat) (b : Byte) : List Host.Cell := sset memDefault m (portAddr a) b

/-- The canonical form of memory: addresses strictly rise and no byte listed is the byte an unlisted address reads. -/
def Memory.wf (m : List Host.Cell) : Bool := sparseOk memDefault m

/-- The cells of bytes from an address on. -/
def cellsFrom : Nat → List Byte → List Host.Cell
  | _, [] => []
  | a, b :: bs => if b = memDefault then cellsFrom (a + 1) bs else (a, b) :: cellsFrom (a + 1) bs

/-- Memory with a run of bytes put in place of those that stood there. -/
def memSplice (m : List Host.Cell) (a : Nat) (bs : List Byte) : List Host.Cell :=
  m.takeWhile (fun c => decide (c.1 < a)) ++ (cellsFrom a bs ++ m.dropWhile (fun c => decide (c.1 < a + bs.length)))

/-- Memory with bytes written one after the other. -/
def memWriteEach (m : List Host.Cell) (a : Nat) : List Byte → List Host.Cell
  | [] => m
  | b :: bs => memWriteEach (memSet m a b) (a + 1) bs

/-- Memory with bytes written from an address on; those past the last address wrap (log entry 4). -/
def memWrite (m : List Host.Cell) (a : Nat) (bs : List Byte) : List Host.Cell :=
  if portAddr a + bs.length ≤ 2 ^ 48 then memSplice m (portAddr a) bs else memWriteEach m a bs

/-- n bytes of memory from an address on. -/
def memRead (m : List Host.Cell) (a n : Nat) : List Byte := (List.range n).map (fun i => memByte m (a + i))

/-- A long stretch of memory as an array of bytes, in one pass over the bytes listed. -/
def memSlice (m : List Host.Cell) (a n : Nat) : Array Byte :=
  m.foldl (fun (acc : Array Byte) c =>
      let off := (c.1 + 2 ^ 48 - portAddr a) % 2 ^ 48
      if off < n then acc.setIfInBounds off c.2 else acc)
    (Array.replicate n memDefault)

/-- The little-endian number of k bytes of memory. -/
def memNat (m : List Host.Cell) (a k : Nat) : Nat := leNat (memRead m a k)

end Sys2Proof.Machine
end

