-- ==== Sys2Proof/Machine/Fields.lean ====
section
/-! DEFINITION. Fields of the staged registers, and accessors that look up parts of the state by name. -/

namespace Sys2Proof.Machine

/-- Bits of a register word. -/
def wfield (w : Word) (lo len : Nat) : Nat := fieldOf w.toNat lo len
def wbit (w : Word) (i : Nat) : Bool := bitOf w.toNat i

/-! ## Fields of staged registers -/

def Staged.ring (c : Staged) (r : Nat) : RingCfg := c.rings.getD r ⟨0, 0, 0⟩
def Staged.chan (c : Staged) (i : Nat) : SndCfg := c.snd.getD i ⟨0, 0, 0, 0⟩

def RingCfg.sAddr (c : RingCfg) : Nat := wfield c.sbase 6 42 * 64
def RingCfg.sSize (c : RingCfg) : Nat := wfield c.sbase 48 5
def RingCfg.cAddr (c : RingCfg) : Nat := wfield c.cbase 6 42 * 64
def RingCfg.cSize (c : RingCfg) : Nat := wfield c.cbase 48 5
def RingCfg.en (c : RingCfg) : Bool := wbit c.ctl 0
def RingCfg.strict (c : RingCfg) : Bool := wbit c.ctl 1
def RingCfg.prio (c : RingCfg) : Nat := wfield c.ctl 2 4

def SndCfg.en (c : SndCfg) : Bool := wbit c.cfg 0
/-- Frame length N = 256 · 2^NSIZE (R250). -/
def SndCfg.frameLen (c : SndCfg) : Nat := 256 * 2 ^ wfield c.cfg 1 2
/-- Hop H: N, N/2 or N/4 (R250). -/
def SndCfg.hop (c : SndCfg) : Nat := c.frameLen / 2 ^ wfield c.cfg 3 2
def SndCfg.hopBits (c : SndCfg) : Nat := wfield c.cfg 3 2
def SndCfg.hamming (c : SndCfg) : Bool := wbit c.cfg 5
def SndCfg.wide24 (c : SndCfg) : Bool := wbit c.cfg 6
def SndCfg.bands (c : SndCfg) : Nat := wfield c.cfg 8 7
def SndCfg.first (c : SndCfg) : Nat := wfield c.cfg 16 10
def SndCfg.stream (c : SndCfg) : Nat := wfield c.cfg 32 12
def SndCfg.lo (c : SndCfg) : Nat := wfield c.band 0 11
def SndCfg.hi (c : SndCfg) : Nat := wfield c.band 16 11
def SndCfg.corner (c : SndCfg) : Nat := wfield c.band 32 16
def SndCfg.addr (c : SndCfg) : Nat := wfield c.ring 6 42 * 64
def SndCfg.ringBits (c : SndCfg) : Nat := wfield c.ring 48 5

def Staged.budgetSteps (c : Staged) : Nat := wfield c.budget 0 25
def Staged.entAddr (c : Staged) : Nat := wfield c.entBase 21 27 * 2 ^ 21
def Staged.entRows (c : Staged) : Nat := wfield c.entCfg 0 23
def Staged.ovfBits (c : Staged) : Nat := wfield c.entCfg 23 5
def Staged.entOpen (c : Staged) : Bool := wbit c.entCfg 28
def Staged.accEn (c : Staged) : Bool := wbit c.accBase 0
def Staged.accAddr (c : Staged) : Nat := wfield c.accBase 12 36 * 4096
def Staged.hcopyAddr (c : Staged) : Nat := wfield c.hcopyBase 16 32 * 65536
def Staged.hcopyUnits (c : Staged) : Nat := wfield c.hcopySize 0 16
def Staged.cap (c : Staged) : Nat := wfield c.ledgerCfg 0 32
def Staged.gate (c : Staged) : Bool := wbit c.ledgerCfg 32
def Staged.fair (c : Staged) : Bool := wbit c.ledgerCfg 33
def Staged.policy (c : Staged) : Nat := wfield c.gait 0 2
def Staged.fixed (c : Staged) : Nat := wfield c.gait 2 2
def Staged.maxGait (c : Staged) : Nat := wfield c.gait 4 2
def Staged.minGait (c : Staged) : Nat := wfield c.gait 6 2
/-- Watermark of Trot, Canter or Gallop in µJ. -/
def Staged.watermark (c : Staged) (g : Nat) : Nat := wfield c.gaitWm (16 * (g - 1)) 16
def Staged.hyst (c : Staged) : Nat := wfield c.gaitWm 48 16
def Staged.transLimit (c : Staged) : Nat := wfield c.faultCfg 0 8
def Staged.correct (c : Staged) : Nat := wfield c.faultCfg 8 3
def Staged.curryRate (c : Staged) : Nat := wfield c.faultCfg 16 4
def Staged.curryEn (c : Staged) : Bool := wbit c.faultCfg 20
def Staged.faultMask (c : Staged) : Nat := wfield c.faultCfg 32 8
def Staged.twin (c : Staged) : Nat := wfield c.tandem 0 16
def Staged.mirrorEn (c : Staged) : Bool := wbit c.mirror 0
def Staged.mirrorAddr (c : Staged) : Nat := wfield c.mirror 16 32 * 65536
def Staged.spareAddr (c : Staged) : Nat := wfield c.spare 12 36 * 4096
def Staged.spareCount (c : Staged) : Nat := wfield c.spare 48 9
def Staged.holdUf (c : Staged) : Nat := wfield c.holdCfg 0 16
def Staged.abandon (c : Staged) : Bool := wbit c.holdCfg 16

/-! ## Parts of the state by name -/

/-- The engine is out of reset and is writing no save. -/
def State.up (s : State) : Bool := s.pwr.phase == .running

/-- The bypass register of the TAP is selected; it captures 0 (R482). -/
def Tap.bypassed (t : Tap) : Tap := { t with selected := 0, out := 0 }

/-- The pins that the engine drives, in reset: SFD_FAULT_N released, the AVSBus idle, the I3C bus high impedance (R438, R483). -/
def Pins.idle (p : Pins) : Pins := { p with faultN := true, avsClk := false, avsMdata := false, i3cScl := true, i3cSda := true }

def Tables.empty : Tables := ⟨[], [], [], [], [], []⟩

/-- The image-wide tables in effect (R294). -/
def State.tables (s : State) : Tables :=
  match s.img.live with
  | some a => a.image.tables
  | none => Tables.empty

/-- The tables of a generation (R356). -/
def State.tablesAt (s : State) (g : Nat) : Tables :=
  if g = s.img.tgen then s.tables
  else match s.img.retiring.find? (fun p => p.1 == g) with
    | some p => p.2
    | none => Tables.empty

def Tables.route (t : Tables) (st : Nat) : Option Route := t.routes.find? (fun r => r.stream == st)
def Tables.model (t : Tables) (m : Nat) : Option ModelDef := t.models.find? (fun d => d.model == m)
def Tables.qtable (t : Tables) (q : Nat) : List (BitVec 128) := t.quant.getD q []

/-- The data stream of the pair a route belongs to (R190). -/
def Route.dataStream (r : Route) : Nat := if r.pair = 2 then r.partner else r.stream

def Route.missing (r : Route) : Option Word32 := if r.markerSet then some r.marker else none

def State.stream (s : State) (st : Nat) : Stream := sget Stream.reset s.ing.streams st
def State.pair (s : State) (st : Nat) : Pair := sget Pair.reset s.ing.pairs st
def State.ring (s : State) (r : Nat) : Ring := s.rings.getD r Ring.reset
def State.job (s : State) (id : Nat) : Option Job := s.jobs.jobs.find? (fun j => j.id == id)
/-- The live group with a BASE (R294). -/
def State.group (s : State) (b : Nat) : Option Group := s.grp.groups.find? (fun g => g.base == b && !g.ended)
/-- The group with a running number. -/
def State.groupNo (s : State) (n : Nat) : Option Group := s.grp.groups.find? (fun g => g.gid == n)
/-- The groups of the live image. -/
def State.liveGroups (s : State) : List Group := s.grp.groups.filter (fun g => !g.ended)
def State.attempt (s : State) (id : Nat) : Option Attempt := s.grp.attempts.find? (fun a => a.id == id)
def State.head (s : State) (st : Nat) (sq : Word32) : Option Head :=
  s.acc.heads.find? (fun h => h.stream == st && h.seq == sq)
def State.window (s : State) (st : Nat) (sq : Word32) : Option WindowRecord :=
  s.ing.window.find? (fun w => w.stream == st && w.seq == sq)
def Tile.reset : Tile := ⟨none, [], false, [], false, 0⟩
def State.tile (s : State) (n : Nat) : Tile := sget Tile.reset s.tally.tiles n

def Head.placeOf (h : Head) (job : Nat) : Option JobPlace := h.places.find? (fun p => p.job == job)

/-- The physical array that serves a logical position (R435). -/
def State.physOf (s : State) (pos : Nat) : Nat := s.arr.map.getD pos pos

/-! ## Updates of one part -/

def State.modStream (s : State) (st : Nat) (f : Stream → Stream) : State :=
  { s with ing := { s.ing with streams := smod Stream.reset s.ing.streams st f } }
def State.modPair (s : State) (st : Nat) (f : Pair → Pair) : State :=
  { s with ing := { s.ing with pairs := smod Pair.reset s.ing.pairs st f } }
def State.modRing (s : State) (r : Nat) (f : Ring → Ring) : State :=
  { s with rings := s.rings.modify r f }
def State.modJob (s : State) (id : Nat) (f : Job → Job) : State :=
  { s with jobs := { s.jobs with jobs := s.jobs.jobs.map (fun j => if j.id = id then f j else j) } }
def State.modGroup (s : State) (n : Nat) (f : Group → Group) : State :=
  { s with grp := { s.grp with groups := s.grp.groups.map (fun g => if g.gid = n then f g else g) } }
def State.modAttempt (s : State) (id : Nat) (f : Attempt → Attempt) : State :=
  { s with grp := { s.grp with attempts := s.grp.attempts.map (fun a => if a.id = id then f a else a) } }
def State.dropAttempt (s : State) (id : Nat) : State :=
  { s with grp := { s.grp with attempts := s.grp.attempts.filter (fun a => a.id != id) } }
def State.modHead (s : State) (st : Nat) (sq : Word32) (f : Head → Head) : State :=
  { s with acc := { s.acc with heads := s.acc.heads.map (fun h => if h.stream = st ∧ h.seq = sq then f h else h) } }
def State.modPlace (s : State) (st : Nat) (sq : Word32) (job : Nat) (f : JobPlace → JobPlace) : State :=
  s.modHead st sq (fun h => { h with places := h.places.map (fun p => if p.job = job then f p else p) })
def State.modTile (s : State) (n : Nat) (f : Tile → Tile) : State :=
  { s with tally := { s.tally with tiles := smod Tile.reset s.tally.tiles n f } }
def State.modWindow (s : State) (st : Nat) (sq : Word32) (f : WindowRecord → WindowRecord) : State :=
  let ws := s.ing.window.map (fun w => if w.stream = st ∧ w.seq = sq then f w else w)
  { s with ing := { s.ing with window := ws } }
def State.write (s : State) (a : Nat) (bs : List Byte) : State := { s with mem := memWrite s.mem a bs }
def State.send (s : State) (m : Message) : State := { s with out := s.out ++ [m] }

end Sys2Proof.Machine
end

