-- ==== Sys2Proof/Machine/Flags.lean ====
section
/-! DEFINITION. Residues, parities and saturating additions: the checks beside every sum (R129 to R142) and the flags of tiles
(R138, R155, R160). -/

namespace Sys2Proof.Machine

/-- Mod-3 residue of a two's complement value (R129). -/
def residue3 (v : Int) : Nat := (v % 3).toNat

/-- A partial whose residue agrees with its value. -/
def Partial.ok (p : Partial) : Bool := p.residue == residue3 p.value.toInt

/-- An exact partial of a value. -/
def Partial.of (v : Int) : Partial := ⟨BitVec.ofInt 64 v, residue3 v⟩

/-- A partial whose residue an upset has disturbed. -/
def Partial.upset (p : Partial) : Partial := { p with residue := (p.residue + 1) % 3 }

/-- A Chord adder: 48 bits, signed (R131), with the residues of the inputs. -/
def chordAdd (a b : Partial) : Partial :=
  let v := ((a.value.setWidth 48) + (b.value.setWidth 48)).signExtend 64
  ⟨v, (a.residue + b.residue) % 3⟩

/-- Largest magnitude of a standard lane word or class word (R135). -/
def max48 : Int := 2 ^ 47 - 1

/-- Largest magnitude of a 128-bit value (R141). -/
def max128 : Int := 2 ^ 127 - 1

/-- A true result clamped to ±m, and whether it saturates (R135). -/
def saturate (m v : Int) : Int × Bool :=
  if m < v then (m, true) else if v < -m then (-m, true) else (v, false)

/-- The word a Tally read gives (R160): the word, whether it was corrected, and whether it is uncorrectable. Three or
more wrong bits are beyond what R160 states. -/
def tallyRead (w : TallyWord) : Word × Bool × Bool :=
  let stored := w.value ^^^ (w.flips.setWidth 64)
  let n := ones 72 w.flips.toNat
  if n = 0 then (w.value, false, false)
  else if n = 1 then (w.value, true, false)
  else if n = 2 then (stored, false, true)
  else match Config.tallyBeyond w.value w.flips with
    | some v => (v, true, false)
    | none => (stored, false, true)

/-- The stored check bits of a word (R160). -/
def tallyStoredCheck (w : TallyWord) : BitVec 8 := Config.tallyCheck w.value ^^^ ((w.flips >>> 64).setWidth 8)

/-- SAT of a tile (R138). -/
def Tile.sat (t : Tile) : Bool := !t.saturated.isEmpty

/-- FIRST_SAT of a tile: the lowest saturated word (R138). -/
def Tile.firstSat (t : Tile) : Nat := t.saturated.headD 0

/-- ECC_LOST and ECC_WORD (R161). -/
def Tile.eccLost (t : Tile) : Bool := !t.lost.isEmpty
def Tile.eccWord (t : Tile) : Nat := t.lost.headD 0

/-- A tile as CLEAR and ZERO_AFTER leave it (R146, R159); its owner stays. -/
def Tile.cleared (t : Tile) : Tile := { Tile.reset with owner := t.owner }

/-- Stored parity of a fret cell (R85). -/
def cellParity (cfg : BitVec 42) : Bool := parityOf 42 cfg.toNat

/-- A cell as the engine writes it: with its parity bit (R57, R85). -/
def storeCell (cfg : BitVec 42) : StoredCell := ⟨cfg, cellParity cfg⟩

/-- The parity check of R85. -/
def StoredCell.ok (c : StoredCell) : Bool := c.parity == cellParity c.cfg

/-- MLEN of a care mask (R89). -/
def maskLen (care : Word) : Nat := ones 64 care.toNat

/-- P0 of a row: even parity over KEY, CARE, SLOT, VALID, PLANE and MLEN (R89). -/
def rowP0 (r : BridgeRow) : Bool :=
  (ones 64 r.key.toNat + ones 64 r.care.toNat + ones 4 r.slot.toNat + flag r.valid + flag r.plane +
    ones 7 r.mlen.toNat) % 2 == 1

/-- P1 of a row: even parity over PAYLOAD (R89). -/
def rowP1 (r : BridgeRow) : Bool := parityOf 32 r.payload.toNat

/-- A row with MLEN, P0 and P1 as the engine computes them at every write (R90). -/
def sealRow (r : BridgeRow) : BridgeRow :=
  let r1 := { r with mlen := BitVec.ofNat 7 (maskLen r.care) }
  { r1 with p0 := rowP0 r1, p1 := rowP1 r1 }

/-- R110: a row after the invalidate step. It keeps its stored content until it is written again; as a free row it has no row
number. -/
def BridgeRow.invalidate (r : BridgeRow) : BridgeRow :=
  let r1 := { r with valid := false, rownum := 0, own := none }
  { r1 with p0 := rowP0 r1 }

/-- The first check of R108 that a row fails: 0 P0, 1 P1, 2 MLEN. -/
def BridgeRow.failedCheck (r : BridgeRow) : Option Nat :=
  if r.p0 ≠ rowP0 r then some 0
  else if r.p1 ≠ rowP1 r then some 1
  else if r.mlen.toNat ≠ maskLen r.care then some 2
  else none

end Sys2Proof.Machine
end

