-- ==== Sys2Proof/Machine/Status.lean ====
section
/-! DEFINITION. Status codes (R328), opcodes (R312), event codes (R431), Mount failure codes (R354, R383, R434, R461). -/

namespace Sys2Proof.Machine

abbrev stOk : Nat := 0x0000
abbrev stVoidCrc : Nat := 0x0001
abbrev stVoidFormat : Nat := 0x0002
abbrev stDecodeBudget : Nat := 0x0003
abbrev stVoidOverrun : Nat := 0x0004
abbrev stVoidEntity : Nat := 0x0005
abbrev stVoidMiss : Nat := 0x0006
abbrev stVoidModel : Nat := 0x0007
abbrev stVoidSuspended : Nat := 0x0008
abbrev stVoidPlaces : Nat := 0x0009
abbrev stVoidBuffer : Nat := 0x000A
abbrev stVoidRoute : Nat := 0x000B
abbrev stJobOk : Nat := 0x0100
abbrev stBadDesc : Nat := 0x0101
abbrev stTileRange : Nat := 0x0102
abbrev stTileBusy : Nat := 0x0103
abbrev stTremoloK : Nat := 0x0104
abbrev stJobReleased : Nat := 0x0105
abbrev stCmpTooSmall : Nat := 0x0106
abbrev stNoModel : Nat := 0x0107
abbrev stNoRoute : Nat := 0x0108
abbrev stRelRange : Nat := 0x0109
abbrev stMountFailed : Nat := 0x010A
abbrev stJobReset : Nat := 0x010B
abbrev stEntNoTable : Nat := 0x0200
abbrev stEntBadEntry : Nat := 0x0201
abbrev stEntBoundary : Nat := 0x0202
abbrev stEntIndexFull : Nat := 0x0203
abbrev stEntFull : Nat := 0x0204
abbrev stPatchBadEntry : Nat := 0x0280
abbrev stPatchPlane : Nat := 0x0281
abbrev stPatchNoHole : Nat := 0x0282
abbrev stPatchJournalFull : Nat := 0x0283
abbrev stLoadOk : Nat := 0x0300
abbrev stLoadBadHeader : Nat := 0x0301
abbrev stLoadGen : Nat := 0x0302
abbrev stLoadCaps : Nat := 0x0303
abbrev stLoadSegTable : Nat := 0x0304
abbrev stLoadDigest : Nat := 0x0305
abbrev stLoadBadEntry : Nat := 0x0306
abbrev stLoadNoIdle : Nat := 0x0307
abbrev stLoadFit : Nat := 0x0308
abbrev stLoadChanged : Nat := 0x0309
abbrev stLoadReadback : Nat := 0x030A
abbrev stLoadInterrupted : Nat := 0x030B

abbrev opScore : Nat := 1
abbrev opTremolo : Nat := 2
abbrev opEntUpdate : Nat := 3
abbrev opEntEvict : Nat := 4
abbrev opPatch : Nat := 5
abbrev opLoad : Nat := 6
abbrev opMount : Nat := 7
abbrev opDrain : Nat := 8
abbrev opFence : Nat := 9
abbrev opRelease : Nat := 10

abbrev evCellParity : Nat := 0x01
abbrev evRowCheck : Nat := 0x02
abbrev evFbufParity : Nat := 0x03
abbrev evResidue : Nat := 0x04
abbrev evTandem : Nat := 0x05
abbrev evTallyWord : Nat := 0x06
abbrev evBufferCrc : Nat := 0x07
abbrev evIndexParity : Nat := 0x08
abbrev evMemLine : Nat := 0x09
abbrev evCurry : Nat := 0x0A
abbrev evReadback : Nat := 0x0B
abbrev evRowRetired : Nat := 0x10
abbrev evSlotMoved : Nat := 0x11
abbrev evRemount : Nat := 0x12
abbrev evBorrow : Nat := 0x13
abbrev evSpread : Nat := 0x14
abbrev evDouble : Nat := 0x15
abbrev evSuspend : Nat := 0x16
abbrev evPageRetired : Nat := 0x17
abbrev evPageUnrepaired : Nat := 0x18
abbrev evLineLost : Nat := 0x19
abbrev evTileSpared : Nat := 0x1A
abbrev evPlaceRetired : Nat := 0x1B
abbrev evTandemDropped : Nat := 0x1C
abbrev evTileUnrepaired : Nat := 0x1D
abbrev evSensorBad : Nat := 0x20
abbrev evThermalSuspend : Nat := 0x21
abbrev evThermalResume : Nat := 0x22
abbrev evAvsErr : Nat := 0x23
abbrev evLinkLane : Nat := 0x24

/-- The classes of a log entry (R435). -/
abbrev clsInfo : Nat := 0
abbrev clsTransient : Nat := 1
abbrev clsLasting : Nat := 2
abbrev clsAction : Nat := 3

/-- MASK of an event of a class (R431). -/
def eventMask (ev cls : Nat) : Nat :=
  if ev ≤ 0x0B then (if cls = clsTransient then 0 else 1)
  else if ev = evRowRetired ∨ ev = evSlotMoved ∨ ev = evTileSpared ∨ ev = evPlaceRetired then 2
  else if ev = evRemount ∨ ev = evBorrow ∨ ev = evSpread ∨ ev = evDouble ∨ ev = evTandemDropped then 3
  else if ev = evSuspend ∨ ev = evLineLost then 4
  else if ev = evPageRetired ∨ ev = evPageUnrepaired then 5
  else if ev = evTileUnrepaired then 1
  else 6

end Sys2Proof.Machine
end

