-- ==== Sys2Proof/Machine/Ops.lean ====
section
/-! DEFINITION. The shared operations of the engine: notifications, the fault log, the ledger and the gait, completion entries,
job contexts, release of records, the save energy and the report of a detected error. -/

namespace Sys2Proof.Machine

/-! ## Notifications (R473 to R475) -/

/-- A notification that a bit of SFD_NOTIFY_EN1 enables (R473). -/
def State.notifyIf (s : State) (bit vector : Nat) : State :=
  if wbit s.live.notify1 bit then s.send (.notify vector) else s

/-! ## The fault log (R430 to R432) -/

/-- No part named. -/
def Detected.nowhere : Detected := ⟨0, 0, 0, 0, false, 0, 0, 0, 0, 0, none⟩

/-- A log index lies at or after the acknowledgement cursor. -/
def unacknowledged (ack i : Word32) : Bool := decide (dist ack i < 2 ^ 31)

/-- R432: what asserts SFD_FAULT_N. -/
def State.faultAsserted (s : State) : Bool :=
  s.flt.log.any (fun e => unacknowledged s.flt.ack e.index && bitOf s.live.faultMask e.mask) ||
    (s.flt.lostAt.isSome && bitOf s.live.faultMask 7)

/-- R438: SFD_FAULT_N is released: in reset, and during a save on VHOLD, when a rail is not good. -/
def Power.released (p : Power) : Bool := p.phase == .inReset || (p.phase == .saving && !p.warm)

/-- The TAP instructions of R482. -/
abbrev tapBypass : Nat := 0
abbrev tapIdcode : Nat := 1
abbrev tapSample : Nat := 2
abbrev tapExtest : Nat := 3

/-- SFD_FAULT_N follows R432, unless it is released. In EXTEST its boundary cell drives it (R482). -/
def State.refreshFault (s : State) : State :=
  if s.tap.selected = tapExtest then s
  else { s with pins := { s.pins with faultN := s.pwr.released || !s.faultAsserted } }

/-- R430: a fault log entry. A full log loses its oldest entry, counted when it was not acknowledged. -/
def Faults.append (f : Faults) (e : LogEntry) : Faults :=
  let head := f.logHead + 1
  if f.log.length < 256 then { f with log := f.log ++ [e], logHead := head }
  else
    let lost := f.log.head?.filter (fun o => unacknowledged f.ack o.index)
    { f with
      log := f.log.tail ++ [e]
      logHead := head
      logLost := if lost.isSome then satAdd 14 f.logLost 1 else f.logLost
      lostAt := (lost.map (·.index)).or f.lostAt }

/-- The store counters: transient errors and lasting faults (SFD_STORE_CNT). -/
def Faults.count (f : Faults) (cls : Nat) : Faults :=
  if cls = clsTransient then { f with transients := satAdd 16 f.transients 1 }
  else if cls = clsLasting then { f with lasting := satAdd 16 f.lasting 1 }
  else f

/-- R430, R432, R473, R480: an event is logged, counted, and signalled when it asserts SFD_FAULT_N. -/
def State.logEvent (s : State) (ev cls rung : Nat) (d : Detected) (detail : Nat) : State :=
  let e : LogEntry := ⟨s.flt.logHead, ev, cls, rung, eventMask ev cls, d.pos, d.phys, d.plane, d.bank, d.slot,
    d.place, d.model, detail⟩
  let s1 := { s with flt := (s.flt.append e).count cls }
  let s2 :=
    if bitOf s.live.faultMask e.mask then
      let s3 := s1.notifyIf 0 64
      if s3.tele.events && s3.tele.dynamic.isSome then s3.send (.inBand ev) else s3
    else s1
  s2.refreshFault

/-! ## Thermal cap and gait (R360 to R363, R379 to R382) -/

/-- R382: the sensors that are valid. -/
def State.validSensors (s : State) : List Sensor := s.gait.sensors.filter (fun x => x.converted && !x.bad)

/-- T_max as a code, over the valid sensors (R380). -/
def State.tMax (s : State) : Nat := s.validSensors.foldl (fun a x => max a x.temp) 0

/-- R380, R382: the thermal cap. -/
def State.thermalCap (s : State) : Nat :=
  if s.validSensors.length < 4 then 0
  else if s.gait.thermal = 0 then 3
  else if s.gait.thermal = 1 then 2
  else if s.gait.thermal = 2 then 1
  else 0

/-- R381: dispatch is suspended. -/
def State.suspended (s : State) : Bool := decide (4 ≤ s.gait.thermal)

/-- R423: TWIN is set for every position of the group. -/
def twinCovers (twin base size : Nat) : Bool :=
  decide (base + size ≤ 16) && (List.range size).all (fun i => bitOf twin (base + i))

/-- The group is set to run in Tandem by a TWIN value, and none of its pairs has been dropped (R423, R426). -/
def State.tandemSet (s : State) (twin base size : Nat) : Bool :=
  twinCovers twin base size && (List.range size).all (fun i => !bitOf s.flt.dropped.toNat (base + i))

/-- R361: a group live, pending or as the staged values would leave it does not run in Tandem. -/
def State.anyGroupNotTandem (s : State) : Bool :=
  s.liveGroups.any (fun g => !g.tandem || !s.tandemSet s.shadow.twin g.base g.size) ||
    (match s.img.pend with
      | none => false
      | some p => p.area.image.tables.groups.any (fun g => !s.tandemSet s.shadow.twin g.base g.size))

/-- R360: the Tandem ceiling.
Gallop only where every group runs in Tandem (R4). -/
def State.tandemCeiling (s : State) : Nat :=
  if s.pkg.variant = .v32x ∧ s.anyGroupNotTandem = true then 2 else 3

/-- R360: the effective target. -/
def State.effectiveTarget (s : State) : Nat :=
  let t0 := if s.live.policy = 0 then s.live.fixed else s.gait.ledgerGait
  let t1 := min (max t0 s.live.minGait) s.live.maxGait
  min (min t1 s.thermalCap) s.tandemCeiling

/-- R479: the voltage of a gait in mV. -/
def gaitMv (g : Nat) : Nat := 550 + 100 * g

/-- R362: a changed effective target is requested of the regulator at once. -/
def State.retarget (s : State) : State :=
  let t := s.effectiveTarget
  if s.gait.avsErr ∨ t = s.gait.requested then s
  else
    ({ s with gait := { s.gait with requested := t, moving := true, written := false, vdone := false, attempts := 0 } }).send
      (.avsWrite (gaitMv t))

/-- R363: NOW, the slower of the gait being left and the gait requested. -/
def GaitState.shown (g : GaitState) : Nat := if g.moving then min g.now g.requested else g.now

/-- R371: the charging gait. -/
def GaitState.charging (g : GaitState) : Nat := if g.moving then max g.now g.requested else g.now

/-! ## The ledger (R365 to R379) -/

/-- A = BALANCE − RESERVED in nJ. -/
def State.credit (s : State) : Int := s.led.balance - s.led.reserved

/-- R379: the ledger target from the current one and the credit. -/
def ledgerTarget (c : Staged) (g : Nat) (a : Int) : Nat :=
  let wm (x : Nat) : Int := 1000 * c.watermark x
  if g ≠ 0 ∧ a < wm g then
    ((List.range g).reverse.find? (fun x => x = 0 || decide (wm x ≤ a))).getD 0
  else
    ((List.range (c.maxGait + 1)).reverse.find? (fun x => decide (g < x) && decide (wm x + 1000 * c.hyst ≤ a))).getD g

/-- R379: a derivation of the ledger target, under the ledger policy. -/
def State.deriveLedger (s : State) : State :=
  if s.live.policy = 1 then
    ({ s with
      led := { s.led with derivedAt := s.credit }
      gait := { s.gait with ledgerGait := ledgerTarget s.live s.gait.ledgerGait s.credit } }).retarget
  else s

/-- R379: a derivation when the credit has moved by 1 µJ or more since the last. -/
def State.ledgerMoved (s : State) : State :=
  if 1000 ≤ (s.credit - s.led.derivedAt).natAbs then s.deriveLedger else s

/-- R373: RESERVED rises at a dispatch. -/
def State.reserve (s : State) (nj : Nat) : State :=
  ({ s with led := { s.led with reserved := s.led.reserved + nj } }).ledgerMoved

/-- R373: RESERVED falls at a commit or a job entry. -/
def State.unreserve (s : State) (nj : Nat) : State :=
  ({ s with led := { s.led with reserved := s.led.reserved - nj } }).ledgerMoved

/-! ## Save energy and the hold on acceptance (R439, R452, R454) -/

/-- Occupied bytes of the acceptance buffer (R452). -/
def Acceptance.bytes (a : Acceptance) : Nat :=
  a.heads.foldl (fun n h => n + 64 + (if h.block.isSome then 2176 else 0)) 0

/-- E_save in units of 2^-20 µJ (R452). -/
def saveEnergy (bytes durable : Nat) : Nat := (350 + 2 * durable) * 2 ^ 20 + 280 * bytes

/-- E_save in µJ, rounded up. -/
def saveEnergyUp (bytes durable : Nat) : Nat := (saveEnergy bytes durable + 2 ^ 20 - 1) / 2 ^ 20

/-- E_avail in µJ, as SFD_HOLD_STAT shows it (R454). -/
def availEnergy (uf : Nat) : Nat := min (6 * uf / 5) 65535

/-- R454: a record of the given size does not raise E_save above E_avail. -/
def State.energyAllows (s : State) (block : Bool) : Bool :=
  let bytes := s.acc.bytes + 64 + (if block then 2176 else 0)
  decide (5 * saveEnergy bytes s.live.durable.length ≤ 6 * s.live.holdUf * 2 ^ 20)

/-- R439: VHOLD is at least 3.20 V. -/
def State.vholdOk (s : State) : Bool := decide (3200 ≤ s.pwr.vholdMv)

/-- A window record that is next in its stream and ready (R188, R515). -/
def State.isNextReady (s : State) (w : WindowRecord) : Bool :=
  w.phase == .ready && w.seq == (s.stream w.stream).accept

/-- ACC_HELD, and its notification when it rises (R439, R454, R473). -/
def State.refreshHeld (s : State) : State :=
  let held := !s.vholdOk || s.ing.window.any (fun w => s.isNextReady w && !s.energyAllows (w.void == 0))
  let s1 := { s with pwr := { s.pwr with accHeld := held } }
  if held && !s.pwr.accHeld then s1.notifyIf 3 67 else s1

/-! ## Completion entries (R308, R325) -/

/-- PHASE due at a completion index (R325). -/
def phaseDue (j : Word32) (size : Nat) : Nat := ((j.toNat >>> size) + 1) % 2

/-- TYPE codes of R325. -/
abbrev typeEmpty : Nat := 0
abbrev typeResult : Nat := 1
abbrev typeJob : Nat := 2
abbrev typeFiller : Nat := 3

/-- A result entry without its PHASE. -/
def resultBody (multi overs miss : Bool) (status stream tag seq idx gen : Nat) : Nat :=
  place typeResult 1 2 + place (flag multi) 3 1 + place (flag overs) 4 1 + place (flag miss) 5 1 +
    place status 8 16 + place stream 24 12 + place tag 48 16 + place seq 64 32 + place idx 96 16 + place gen 112 16

/-- A job entry without its PHASE. -/
def jobBody (status op tag done detail : Nat) : Nat :=
  place typeJob 1 2 + place status 8 16 + place op 24 4 + place tag 48 16 + place done 64 32 + place detail 96 32

/-- A filler entry without its PHASE. -/
def fillerBody : Nat := place typeFiller 1 2

/-- Memory address of a completion slot. -/
def RingCfg.slotAddr (c : RingCfg) (j : Word32) : Nat := c.cAddr + 16 * (j.toNat % 2 ^ c.cSize)

/-! ## Modules of the package link (R463, R468) -/

/-- A module takes requests. -/
def LinkModule.open (l : LinkModule) : Bool := l.state != 0 && !l.retraining

/-- The module that carries a request of an address (R463, R468). -/
def State.readModule (s : State) (a : Nat) : Nat :=
  let m := flag (bitOf a 12)
  let up (i : Nat) : Bool := (s.link.getD i LinkModule.reset).open
  if up m then m else if up (1 - m) then 1 - m else m

/-- R468: a running engine reaches memory while a module is up. A stage that needs memory stalls without one. -/
def State.memUp (s : State) : Bool := s.up && s.link.any LinkModule.open

/-- A completion entry written with its PHASE. A ring that is not enabled has no memory: its slots are written by
the Mount that enables it (R344). -/
def State.writeEntry (s : State) (r : Nat) (j : Word32) (body : Nat) : State :=
  let c := s.live.ring r
  if c.en then
    let a := c.slotAddr j
    (s.write a (leBytes 16 (body + phaseDue j c.cSize))).modRing r
      (fun x => { x with unacked := x.unacked ++ [(s.readModule a, a)], announce := x.announce || x.armed })
  else s

/-- An empty slot, with the PHASE opposite to the one due (R308). It is no completion entry to announce. -/
def State.writeEmpty (s : State) (r : Nat) (j : Word32) : State :=
  let c := s.live.ring r
  s.write (c.slotAddr j) (leBytes 16 (1 - phaseDue j c.cSize))

/-! ## Job contexts (R310, R318, R319) -/

def Job.scoring (j : Job) : Bool := j.op == opScore || j.op == opTremolo

/-- Completion slots of a job (R318). -/
def Job.slots (j : Job) : Nat := if j.scoring then j.n + 1 else 1

/-- Slot of the job entry (R318). -/
def Job.entrySlot (j : Job) : Word32 := j.slot + BitVec.ofNat 32 (j.slots - 1)

/-- Sequence number of a record index (R320). -/
def Job.seqOf (j : Job) (i : Nat) : Word32 := j.first + BitVec.ofNat 32 i

/-- Indices below this one can name records of the stream (R324). -/
def Job.routed (j : Job) : Nat :=
  match j.routeGone with
  | none => j.n
  | some q => if dist j.first q < 2 ^ 31 then min j.n (dist j.first q) else 0

/-- Record index of a sequence number of the job's stream, if the job names it. -/
def Job.indexOf (j : Job) (st : Nat) (sq : Word32) : Option Nat :=
  let i := dist j.first sq
  if j.scoring ∧ j.stream = st ∧ i < j.routed then some i else none

/-- How many of the job's record indices are released (R310): none on a stream that has not started (R173). The records of a
stream that has lost its route were all released before it (R175). -/
def State.releasedOf (s : State) (j : Job) : Nat :=
  match j.routeGone with
  | some _ => max j.routed (min j.committed j.n)
  | none =>
    let x := s.stream j.stream
    let d := dist j.first x.release
    if x.started = true ∧ d < 2 ^ 31 then min d j.n else 0

/-- The oldest slot of a job that is still owned (R310). -/
def State.ownedSlot (s : State) (j : Job) : Option Word32 :=
  if j.scoring ∧ s.releasedOf j < j.n then some (j.slot + BitVec.ofNat 32 (s.releasedOf j)) else none

/-- LIVE of a ring (R310). -/
def State.liveIndex (s : State) (r : Nat) : Word32 :=
  let x := s.ring r
  (s.jobs.jobs.filter (fun j => j.ring == r)).foldl
    (fun best j => match s.ownedSlot j with
      | none => best
      | some o => if dist x.cmpHead o < dist x.cmpHead best then o else best)
    x.cmpTail

/-- R319: the job entry is written and the completion head has passed it. A restoring ring has no completion head yet (R344). -/
def State.contextFree (s : State) (j : Job) : Bool :=
  let d := dist j.entrySlot (s.ring j.ring).cmpHead
  j.written && !(s.ring j.ring).restoring && decide (0 < d) && decide (d < 2 ^ 31)

/-- R319: contexts whose time is over are freed. -/
def State.freeContexts (s : State) : State :=
  { s with jobs := { s.jobs with jobs := s.jobs.jobs.filter (fun j => !s.contextFree j) } }

/-- R327, R373: a job writes its job entry; what remains of its cost is no longer reserved. -/
def State.finishJob (s : State) (id status done detail : Nat) : State :=
  match s.job id with
  | none => s
  | some j =>
    let s1 := s.writeEntry j.ring j.entrySlot (jobBody status j.op j.tag done detail)
    let s2 := s1.modJob id (fun x =>
      { x with written := true, status := status, done := done, detail := detail, costLeft := 0 })
    (s2.unreserve j.costLeft).freeContexts

/-- The tiles a job acquires (R145, R150). -/
def Job.tileList (j : Job) : List Nat := (List.range j.tiles).map (j.tile + ·)

/-- R150: a job releases its tiles. -/
def State.releaseTiles (s : State) (j : Job) : State :=
  if j.owns then
    (j.tileList.foldl (fun (t : State) n => t.modTile n (fun x => { x with owner := none })) s).modJob j.id
      (fun x => { x with owns := false })
  else s

/-- A job context is freed. -/
def State.dropJob (s : State) (id : Nat) : State :=
  { s with jobs := { s.jobs with jobs := s.jobs.jobs.filter (fun j => j.id != id) } }

/-! ## Release of records (R332, R333) -/

/-- A dispatched job names the record and has not committed it (R333). -/
def State.namedUncommitted (s : State) (st : Nat) (sq : Word32) : Bool :=
  s.jobs.jobs.any (fun j => match j.indexOf st sq with
    | none => false
    | some i => decide (j.committed ≤ i))

/-- R333: the effective release cursor advances towards REQUESTED, at most n records. -/
def State.advanceRelease (s : State) (st : Nat) : Nat → State
  | 0 => s
  | n + 1 =>
    let x := s.stream st
    if x.release = x.requested ∨ s.namedUncommitted st x.release = true then s
    else
      let heads := s.acc.heads.filter (fun h => !(h.stream == st && h.seq == x.release))
      let s1 := { s with acc := { s.acc with heads := heads } }
      (s1.modStream st (fun y => { y with release := y.release + 1 })).advanceRelease st n

/-- R333, with the contexts and the hold that depend on it. -/
def State.releaseStream (s : State) (st : Nat) : State :=
  (s.advanceRelease st (s.acc.heads.length + 1)).refreshHeld

/-- How a release request is taken (R332). -/
inductive ReleaseResult where
  | ignored
  | refused
  | taken
deriving DecidableEq, Repr

/-- R332: the decision on a release request. -/
def Stream.releaseCheck (x : Stream) (c : Word32) : ReleaseResult :=
  let d := dist x.release c
  if d = 0 ∨ 2 ^ 31 ≤ d then .ignored
  else if dist x.release x.accept < d then .refused
  else .taken

/-- R332, R333: a request that is taken. -/
def State.requestRelease (s : State) (st : Nat) (c : Word32) : State :=
  (s.modStream st (fun x =>
    if dist x.release x.requested < dist x.release c then { x with requested := c } else x)).releaseStream st

/-! ## Reads issued again (R403 to R405) -/

/-- R404: the address that an access to a page goes to, the page itself or the spare that it was last directed to. -/
def State.redirect (s : State) (a : Nat) : Nat :=
  match s.flt.pages.reverse.find? (fun p => p.1 == a / 4096) with
  | none => a
  | some p => s.live.spareAddr + 4096 * p.2 + a % 4096

/-- A read request of a line. While both modules are down it waits on its own module. -/
def State.issueRead (s : State) (a : Nat) : State :=
  let line := portAddr (s.redirect (portAddr a / 128 * 128))
  let m := s.readModule line
  let s1 := { s with link := s.link.modify m (fun l => { l with requests := l.requests ++ [line] }) }
  if (s.link.getD m LinkModule.reset).open then s1.send (.memRead m line) else s1

/-! ## Detected errors (R391, R393) -/

/-- No run of the group holds the record any more. The plane of a run that is over is plane A (R298). -/
def Group.leaveRun (g : Group) (j i : Nat) : Group :=
  let run := g.run.filter (fun x => !(x.1 == j && x.2 == i))
  { g with
    runPos := ((g.run.take g.runPos).filter (fun x => !(x.1 == j && x.2 == i))).length
    run := run
    inB := g.inB && !run.isEmpty }

/-- R391 step 2, R381: a run of a group in Double that has not reached plane B is cut: the records not yet dispatched wait again,
and the others go on to plane B. The passes of a Tremolo record are not cut (R253). -/
def Group.cut (g : Group) : Group :=
  if g.inB || g.tremolo.isSome then g
  else { g with ready := g.ready ++ g.run.drop g.runPos, run := g.run.take g.runPos }

/-- R391 step 1: a group stops taking records. -/
def State.pauseGroup (s : State) (n : Nat) : State := s.modGroup n (fun g => { g.cut with paused := true })

/-- R393: a recovery is queued, and its group pauses at once. -/
def State.enqueueFault (s : State) (d : Detected) : State :=
  ({ s with flt := { s.flt with queue := s.flt.queue ++ [d] } }).pauseGroup d.grp

/-- A queued recovery of a group that a record's check began. -/
def State.recovering (s : State) (n : Nat) : Bool :=
  s.flt.queue.any (fun d => d.grp == n && d.check != evCurry)

/-- A marked record, at its place in the order of dispatch. -/
def insertMark : List (Nat × Nat × Nat) → Nat × Nat × Nat → List (Nat × Nat × Nat)
  | [], x => [x]
  | y :: ys, x => if x.1 < y.1 then x :: y :: ys else y :: insertMark ys x

/-- The record of an attempt is among the marked records of its group. -/
def Group.hasMark (g : Group) (j i : Nat) : Bool := g.marked.any (fun m => m.2.1 == j && m.2.2 == i)

/-- The group without the record of a failed attempt, which is marked. -/
def Group.mark (g : Group) (a : Attempt) : Group :=
  let g1 := (g.cut).leaveRun a.job a.idx
  { g1 with
    marked := if g1.hasMark a.job a.idx then g1.marked else insertMark g1.marked (a.first, a.job, a.idx)
    tremolo := g1.tremolo.filter (fun x => !(x.1 == a.job && x.2.1 == a.idx)) }

/-- What the attempt is a pass of. -/
def Attempt.work (a : Attempt) : PassRef := ⟨a.job, a.idx, a.pass, a.plane⟩

/-- R391 step 2: the record of a failed attempt is marked; it makes no Tally write. A failed pass of a Tremolo record
fails its whole attempt (R267). The first failed attempt of a pause brings the recovery (R391 step 3). -/
def State.failAttempt (s : State) (a : Attempt) (d : Detected) : State :=
  let mine (j i : Nat) : Bool := j == a.job && i == a.idx
  let s1 := s.modGroup a.grp (fun g => g.mark a)
  let as := s1.grp.attempts.filter (fun x => !mine x.job x.idx)
  let gs := s1.grp.gathered.filter (fun x => !mine x.job x.idx)
  let s2 := { s1 with grp := { s1.grp with attempts := as, gathered := gs } }
  if s2.recovering a.grp then s2.pauseGroup a.grp else s2.enqueueFault { d with work := some a.work }

end Sys2Proof.Machine
end

