-- ==== Sys2Proof/Machine/Operands.lean ====
section
/-! DEFINITION. The operand forms that reach the engine as bytes: frames and their payloads (R164 to R171, R464), job
descriptors (R312, R313), and the entries of entity and patch lists (R113, R217). -/

namespace Sys2Proof.Machine

/-! ## Frames -/

/-- LEN of a frame tag, when the tag keeps R464. -/
def tagLength (bytes : List Byte) : Option Nat :=
  let t := leNat (bytes.take 8)
  let len := fieldOf t 0 14
  if fieldOf t 14 2 = 0 ∧ fieldOf t 16 4 = 1 ∧ t >>> 20 = 0 ∧ 20 ≤ len ∧ len ≤ 8216 then some len else none

/-- The fields of a frame header, of either format (R167, R168). reserved: the reserved bits are all zero. -/
structure FrameHeader where
  gen : Nat
  enc : Nat
  stream : Nat
  sync : Bool
  plen : Nat
  seq : Word32
  key : Word
  ncount : Nat
  wcount : Nat
  block : Nat
  hchk : Nat
  size : Nat
  reserved : Bool
deriving DecidableEq, Repr

/-- The RSP2 header (R167). -/
def rsp2Header (f : List Byte) : FrameHeader :=
  let n := leNat (f.take 24)
  { gen := fieldOf n 0 4
    enc := fieldOf n 4 4
    stream := fieldOf n 8 12
    sync := bitOf n 20
    plen := fieldOf n 21 11
    seq := BitVec.ofNat 32 (fieldOf n 32 32)
    key := BitVec.ofNat 64 (fieldOf n 64 64)
    ncount := fieldOf n 128 11
    wcount := fieldOf n 139 6
    block := fieldOf n 160 16
    hchk := fieldOf n 176 16
    size := 24
    reserved := fieldOf n 145 15 == 0 }

/-- The RSP1 header (R168). -/
def rsp1Header (f : List Byte) : FrameHeader :=
  let n := leNat (f.take 16)
  { gen := fieldOf n 0 4
    enc := fieldOf n 4 4
    stream := fieldOf n 8 10
    sync := false
    plen := fieldOf n 18 14
    seq := BitVec.ofNat 32 (fieldOf n 32 32)
    key := BitVec.ofNat 64 (fieldOf n 64 32)
    ncount := fieldOf n 96 11
    wcount := 0
    block := 0
    hchk := 0
    size := 16
    reserved := fieldOf n 107 21 == 0 }

/-- GEN of a frame. -/
def frameGen (f : List Byte) : Nat := (f.headD 0).toNat % 16

/-- The header of a frame by its GEN. -/
def frameHeader (f : List Byte) : FrameHeader := if frameGen f = 1 then rsp1Header f else rsp2Header f

/-- HCHK of an RSP2 header is correct (R169). -/
def hchkOk (f : List Byte) : Bool := (rsp2Header f).hchk == crc32c (f.take 22) % 2 ^ 16

/-- The CRC-32C in the last 4 B of a frame is correct (R169). -/
def frameCrcOk (f : List Byte) : Bool := leNat (f.drop (f.length - 4)) == crc32c (f.take (f.length - 4))

/-- ENC is allowed on a stream (R168, R177). -/
def encAllowed (r : Route) (enc : Nat) : Bool :=
  if r.format = 1 then enc == 0 || enc == 2
  else if r.pair = 1 then enc == 3
  else if r.pair = 2 then enc == 4
  else enc == 0 || enc == 1 || enc == 2

/-- Check 5 of R176. -/
def headerOk (h : FrameHeader) (r : Route) (len : Nat) : Bool :=
  let format := if h.gen = 1 then r.format == 1 else r.format == 0
  let unused := (r.pair != 0 || (!h.sync && h.block == 0)) && (r.pair != 2 || (h.key == 0 && h.wcount == 0))
  format && encAllowed r h.enc && h.reserved && unused && decide (h.ncount ≤ 1024) && decide (h.wcount ≤ 32) &&
    len == h.size + 4 * h.plen + 4

/-- ⌈n / 16⌉. -/
def ceil16 (n : Nat) : Nat := (n + 15) / 16

/-- Work steps of an encoding (R183). -/
def workSteps (enc n w : Nat) : Nat :=
  if enc = 1 then max n (ceil16 w) + 4
  else if enc = 4 then ceil16 n + 4
  else max (ceil16 n) (ceil16 w) + 4

/-- An unsigned LEB128 varint of at most k bytes in its shortest form, with the bytes behind it (R171). -/
def leb128 : Nat → List Byte → Option (Nat × List Byte)
  | 0, _ => none
  | _ + 1, [] => none
  | k + 1, b :: bs =>
    if b.toNat < 128 then some (b.toNat, bs)
    else
      match leb128 k bs with
      | none => none
      | some (v, rest) =>
        -- a last group of zero is not shortest
        if v = 0 then none else some (b.toNat - 128 + 128 * v, rest)

/-- n sparse pairs with indices rising from lo, and the bytes behind them (R171). -/
def sparsePairs : Nat → Nat → List Byte → Option (List (Nat × Code) × List Byte)
  | 0, _, bs => some ([], bs)
  | n + 1, lo, bs =>
    match leb128 2 bs with
    | none => none
    | some (i, bs1) =>
      match leb128 3 bs1 with
      | none => none
      | some (c, bs2) =>
        if i < lo ∨ 1024 ≤ i ∨ 0xFFFF < c then none
        else
          match sparsePairs n (i + 1) bs2 with
          | none => none
          | some (ps, rest) => some ((i, BitVec.ofNat 16 c) :: ps, rest)

/-- n little-endian items of k bytes each.
Codes are taken as they are given (R41). -/
def littleItems (k : Nat) : Nat → List Byte → List Nat
  | 0, _ => []
  | n + 1, bs => leNat (bs.take k) :: littleItems k n (bs.drop k)

/-- What a payload supplies: narrow features with their codes and wide features with their words. -/
structure Supplied where
  narrow : List (Nat × Code)
  wide : List (Nat × Word32)
deriving DecidableEq, Repr

/-- The quantisation entry of a feature of a table. -/
def qEntry (q : List (BitVec 128)) (i : Nat) : BitVec 128 := q.getD i 0

/-- The narrow part of a payload (R170) with the bytes it takes, unpadded. -/
def narrowPart (h : FrameHeader) (q : List (BitVec 128)) (marker : Option Word32) (scales : List Word32)
    (body : List Byte) : Option (List (Nat × Code) × Nat) :=
  let n := h.ncount
  if h.enc = 1 then
    match sparsePairs n 0 body with
    | none => none
    | some (ps, rest) => some (ps, body.length - rest.length)
  else if h.enc = 0 then
    if body.length < 2 * n then none
    else some ((littleItems 2 n body).mapIdx (fun i v => (i, BitVec.ofNat 16 v)), 2 * n)
  else if h.enc = 2 then
    if body.length < 4 * n then none
    else some ((littleItems 4 n body).mapIdx (fun i v => (i, quantise (BitVec.ofNat 32 v) (qEntry q i) marker)), 4 * n)
  else
    -- ENC 3: R39, under the block's scales; R190 bounds NCOUNT by that of the scale frame
    if body.length < n ∨ scales.length < n then none
    else some ((littleItems 1 n body).mapIdx (fun i v =>
      (i, quantiseInt8 (BitVec.ofNat 8 v).toInt (scales.getD i 0) (qEntry q i))), n)

/-- Check 8 of R176 and the decode of a record (R170, R171, R33, R40): none when the payload breaks the format. -/
def decodePayload (h : FrameHeader) (q : List (BitVec 128)) (marker : Option Word32) (scales : List Word32)
    (body : List Byte) : Option Supplied :=
  match narrowPart h q marker scales body with
  | none => none
  | some (narrow, used) =>
    let padded := (used + 3) / 4 * 4
    if body.length ≠ padded + 4 * h.wcount ∨ ((body.drop used).take (padded - used)).any (· != 0) = true then none
    else
      let words := littleItems 4 h.wcount (body.drop padded)
      let wide := words.mapIdx (fun k v => (k, keepWide (BitVec.ofNat 32 v) (qKind (qEntry q (1024 + k))) marker))
      some ⟨narrow, wide⟩

/-- Check 8 of R176 for a scale frame: its block scales (R170). -/
def decodeScales (h : FrameHeader) (body : List Byte) : Option (List Word32) :=
  if body.length ≠ 4 * h.ncount then none
  else some ((littleItems 4 h.ncount body).map (BitVec.ofNat 32))

/-- The payload of a frame. -/
def frameBody (f : List Byte) : List Byte := (f.drop (frameHeader f).size).take (f.length - (frameHeader f).size - 4)

/-! ## Job descriptors -/

/-- Bits of a descriptor (R312, R313). -/
def dfield (d : BitVec 512) (lo len : Nat) : Nat := fieldOf d.toNat lo len

def descOp (d : BitVec 512) : Nat := dfield d 0 4
def descGen (d : BitVec 512) : Nat := dfield d 4 2
def descFlags (d : BitVec 512) : Nat := dfield d 8 8
def descTag (d : BitVec 512) : Nat := dfield d 16 16
/-- Scoring: MODEL, TILE, MODE, K, STREAM, FIRST and COUNT. -/
def descModel (d : BitVec 512) : Nat := dfield d 64 6
def descTile (d : BitVec 512) : Nat := dfield d 72 10
def descAdd (d : BitVec 512) : Bool := bitOf d.toNat 82
def descK (d : BitVec 512) : Nat := dfield d 88 7
def descStream (d : BitVec 512) : Nat := dfield d 96 12
def descFirst (d : BitVec 512) : Word32 := BitVec.ofNat 32 (dfield d 128 32)
def descCount (d : BitVec 512) : Nat := dfield d 160 17
/-- Entity jobs, patches and loads: ADDR, ENTRIES and the boundary. -/
def descAddr (d : BitVec 512) : Nat := dfield d 64 64
def descEntEntries (d : BitVec 512) : Nat := dfield d 128 9
def descBound (d : BitVec 512) : Bool := bitOf d.toNat 137
def descBStream (d : BitVec 512) : Nat := dfield d 144 12
def descBSeq (d : BitVec 512) : Word32 := BitVec.ofNat 32 (dfield d 160 32)
def descPatchEntries (d : BitVec 512) : Nat := dfield d 128 13
def descLength (d : BitVec 512) : Nat := dfield d 128 32
def descDry (d : BitVec 512) : Bool := bitOf d.toNat 160
def descReport (d : BitVec 512) : Nat := dfield d 192 64
/-- DRAIN_TILE: TILE, ZERO_AFTER, COUNT and DEST. -/
def descDrainTile (d : BitVec 512) : Nat := dfield d 64 10
def descZeroAfter (d : BitVec 512) : Bool := bitOf d.toNat 74
def descDrainCount (d : BitVec 512) : Nat := dfield d 80 11
def descDest (d : BitVec 512) : Nat := dfield d 128 64
/-- FENCE and RELEASE. -/
def descGlobal (d : BitVec 512) : Bool := bitOf d.toNat 8
def descRelStream (d : BitVec 512) : Nat := dfield d 64 12
def descCursor (d : BitVec 512) : Word32 := BitVec.ofNat 32 (dfield d 128 32)

/-- The bits that an opcode names in its descriptor: lowest bit and length (R312, R313). -/
def descFields (op : Nat) : List (Nat × Nat) :=
  let head := [(0, 6), (16, 16)]
  if op = opScore then head ++ [(64, 6), (72, 11), (96, 12), (128, 32), (160, 17)]
  else if op = opTremolo then head ++ [(64, 6), (72, 11), (88, 7), (96, 12), (128, 32), (160, 17)]
  else if op = opEntUpdate ∨ op = opEntEvict then head ++ [(64, 64), (128, 10), (144, 12), (160, 32)]
  else if op = opPatch then head ++ [(64, 64), (128, 13)]
  else if op = opLoad then head ++ [(64, 64), (128, 33), (192, 64)]
  else if op = opDrain then head ++ [(64, 11), (80, 11), (128, 64)]
  else if op = opFence then head ++ [(8, 1)]
  else if op = opRelease then head ++ [(64, 12), (128, 32)]
  else head

/-- Every bit the opcode does not name is zero (R312, R313). -/
def descReservedOk (d : BitVec 512) : Bool :=
  let named := (descFields (descOp d)).foldl (fun a f => a ||| ((2 ^ f.2 - 1) <<< f.1)) 0
  d.toNat &&& (2 ^ 512 - 1 - named) == 0

/-- A memory-port address with an alignment: 48 bits (R469). -/
def addrOk (a align : Nat) : Bool := decide (a < 2 ^ 48) && a % align == 0

/-- Check 1 of R315. K of SCORE_TREMOLO has its own check and its own status. -/
def descOk (d : BitVec 512) : Bool :=
  let op := descOp d
  let within (n lo hi : Nat) : Bool := decide (lo ≤ n) && decide (n ≤ hi)
  decide (1 ≤ op) && decide (op ≤ opRelease) && descReservedOk d &&
    (if op = opScore ∨ op = opTremolo then within (descCount d) 1 65536
     else if op = opEntUpdate ∨ op = opEntEvict then addrOk (descAddr d) 64 && within (descEntEntries d) 1 256
     else if op = opPatch then addrOk (descAddr d) 32 && within (descPatchEntries d) 1 4096
     else if op = opLoad then addrOk (descAddr d) 64 && addrOk (descReport d) 64
     else if op = opDrain then within (descDrainCount d) 1 1024 && addrOk (descDest d) 64
     else true)

/-! ## Entries of entity and patch lists -/

/-- Eight wide fields and the 256 narrow fields of a row (R201), from the bits of NARROW and WIDE. -/
def rowOfBits (narrow wide : Nat) : EntityRow :=
  let codes := (List.range 256).filterMap (fun i =>
    let c := BitVec.ofNat 16 (fieldOf narrow (16 * i) 16)
    if c = 0xFFFF then none else some (i, c))
  ⟨codes, (List.range 8).map (fun k => some (BitVec.ofNat 32 (fieldOf wide (32 * k) 32)))⟩

/-- An update entry (R217), from 640 B. reserved: a reserved field is not zero, or PLACE is reserved. -/
def updateEntry (bs : List Byte) : UpdateEntry :=
  let n := leNat bs
  { key := BitVec.ofNat 64 (fieldOf n 0 64)
    place := fieldOf n 64 2
    masked := bitOf n 66
    reserved := fieldOf n 67 61 != 0 || fieldOf n 392 56 != 0 || fieldOf n 4800 320 != 0 || fieldOf n 64 2 == 3
    fmask := BitVec.ofNat 256 (fieldOf n 128 256)
    fmaskX := BitVec.ofNat 8 (fieldOf n 384 8)
    row := rowOfBits (fieldOf n 448 4096) (fieldOf n 4544 256) }

/-- An evict entry (R217) in the form of an update entry that writes nothing. -/
def evictEntry (bs : List Byte) : UpdateEntry :=
  { key := BitVec.ofNat 64 (leNat bs)
    place := 0
    masked := false
    reserved := false
    fmask := 0
    fmaskX := 0
    row := ⟨[], []⟩ }

/-- A patch entry (R113), from 32 B. -/
def patchEntry (bs : List Byte) : PatchEntry :=
  let n := leNat bs
  { key := BitVec.ofNat 64 (fieldOf n 0 64)
    care := BitVec.ofNat 64 (fieldOf n 64 64)
    payload := BitVec.ofNat 32 (fieldOf n 128 32)
    slot := fieldOf n 160 4
    bank := fieldOf n 164 4
    row := fieldOf n 168 11
    plane := bitOf n 179
    array := fieldOf n 180 5
    op := fieldOf n 185 3 }

/-- The reserved bits of a patch entry are zero (R113). -/
def patchReservedOk (bs : List Byte) : Bool := fieldOf (leNat bs) 188 68 == 0

end Sys2Proof.Machine
end

