-- ==== Sys2Proof/Machine/Ingest.lean ====
section
/-! DEFINITION. Ingest and decode: FRAME_ARRIVAL, DECODE_DONE and DECODE_BUDGET (R164 to R196), and what other commands use of
them. -/

namespace Sys2Proof.Machine

/-! ## Counters -/

def State.addDiscard (s : State) (st : Nat) : State :=
  s.modStream st (fun x => { x with discards := satAdd 16 x.discards 1 })
def State.addBadGen (s : State) : State := { s with ing := { s.ing with badGen := satAdd 16 s.ing.badGen 1 } }
def State.addHdrErr (s : State) : State := { s with ing := { s.ing with hdrErr := satAdd 16 s.ing.hdrErr 1 } }
def State.addUnrouted (s : State) : State := { s with ing := { s.ing with unrouted := satAdd 16 s.ing.unrouted 1 } }

/-- The void counters of a stream (R197). -/
def Stream.countVoid (x : Stream) (void : Nat) : Stream :=
  if void = stVoidCrc then { x with crcVoids := satAdd 16 x.crcVoids 1 }
  else if void = stVoidFormat then { x with formatVoids := satAdd 16 x.formatVoids 1 }
  else if void = stDecodeBudget then { x with budgetVoids := satAdd 16 x.budgetVoids 1 }
  else x

def State.countVoid (s : State) (st void : Nat) : State := s.modStream st (fun x => x.countVoid void)

/-! ## Block-scaled pairs (R190 to R196) -/

/-- The records of a data stream that stand in the reorder window. -/
def State.inWindow (s : State) (st : Nat) : Nat := (s.ing.window.filter (fun w => w.stream == st)).length

/-- The data block of a sequence number (R190). -/
def blockOf (sq : Word32) : Nat := sq.toNat / 64

/-- The holding entry that a block is paired with. -/
def Pair.entryOf (p : Pair) (block : Nat) : Option HeldScale := p.holding.find? (fun f => f.pairedTo == some block)

/-- The oldest scale frame that waits in the holding for its block (R193). -/
def Pair.waitingScale (p : Pair) : Option HeldScale := p.holding.find? (fun f => f.pairedTo.isNone)

/-- R194: the pair of a data stream becomes, or stays, Unseated: the scale frames that are not paired are gone, and both
next-expected cursors fall back to the accept cursors. dataBlock and scaleBlock are recorded when given (log entry 89: the other
field keeps its value). A block already paired keeps its scales, since each of its records is still decoded with them (R190,
log entry 9). -/
def State.unseat (s : State) (data scale : Nat) (dataBlock scaleBlock : Option Nat) (noScale scaleBad : Bool) : State :=
  let was := (s.pair data).unseated
  let back (x : Stream) : Stream := { x with next := x.accept }
  let s1 := ((s.modStream data back).modStream scale back).modPair data (fun p =>
    { p with
      unseated := true
      coming := []
      holding := p.holding.filter (fun f => f.pairedTo.isSome)
      dataBlock := dataBlock.getD p.dataBlock
      scaleBlock := scaleBlock.getD p.scaleBlock
      noScale := noScale
      scaleBad := scaleBad })
  if was then s1 else s1.notifyIf 1 65

/-- R194: a scale frame has failed check 5, 7 or 8, or the decode budget (log entry 89). -/
def State.scaleFailed (s : State) (data scale block : Nat) : State :=
  s.unseat data scale none (some block) (s.pair data).waitingScale.isNone true

/-- R191: a record of a paired block has been decoded; after the last one the holding entry is free. entry is the scale frame's
order of check 4. -/
def State.blockRecordDone (s : State) (data entry : Nat) : State :=
  s.modPair data (fun p =>
    { p with holding := p.holding.filterMap (fun f =>
        if f.order ≠ entry then some f else if f.left ≤ 1 then none else some { f with left := f.left - 1 }) })

/-- The accept cursor of a scale stream passes a frame, which holds no record to release. A frame that an engine reset has kept is
passed already. -/
def Stream.passScale (x : Stream) (sq : Word32) : Stream :=
  if 0 < dist sq x.accept ∧ dist sq x.accept < 2 ^ 31 then x
  else { x with accept := sq + 1, release := sq + 1, requested := sq + 1 }

/-- R193: a block is paired with a scale frame of the holding, and the scale stream's accept cursor passes the frame. -/
def State.pairWith (s : State) (data scale : Nat) (sq : Word32) (f : HeldScale) : State :=
  let mark (g : HeldScale) : HeldScale :=
    if g.order = f.order then { g with pairedTo := some (blockOf sq), left := 64 } else g
  let s1 := s.modPair data (fun q => { q with unseated := false, holding := q.holding.map mark })
  s1.modStream scale (fun x => x.passScale f.seq)

/-- R193, R195: the first record of a block meets the oldest unpaired scale frame. True when the block is paired; the pair
is otherwise Unseated. -/
def State.pairBlock (s : State) (data scale : Nat) (sq : Word32) (block : Nat) : Bool × State :=
  match (s.pair data).waitingScale with
  | none => (false, s.unseat data scale (some block) none true false)
  | some f =>
    if f.block ≠ block then (false, s.unseat data scale (some block) (some f.block) false false)
    else (true, s.pairWith data scale sq f)

/-! ## The reorder window -/

/-- R173, R196: the first frame of a newly routed stream that passes checks 1 to 3 (log entry 89), or of a stream newly in a pair, sets
its cursors. Records that a stream of a new pair still holds unreleased keep their release cursor (log entry 47). -/
def Stream.start (x : Stream) (sq : Word32) : Stream :=
  if !x.started then { x with started := true, resync := false, next := sq, accept := sq, release := sq, requested := sq }
  else if !x.resync then x
  else if x.release = x.accept then { x with resync := false, next := sq, accept := sq, release := sq, requested := sq }
  else { x with resync := false, next := sq, accept := sq }

def State.startStream (s : State) (st : Nat) (sq : Word32) : State := s.modStream st (fun x => x.start sq)

/-- R172: d = (SEQ − E) mod 2^32 is 0. A stream that has not started takes any frame (R173), and a stream newly in a pair any
frame that it has not accepted (R196, log entry 47). -/
def Stream.inPlace (x : Stream) (sq : Word32) : Bool :=
  !x.started || (if x.resync then decide (dist x.accept sq < 2 ^ 31) else sq == x.next)

/-- The order of check 4, counted. -/
def State.nextOrder (s : State) : State := { s with ing := { s.ing with order := s.ing.order + 1 } }

/-- A record takes a place in the reorder window (R187), and the stream's next-expected cursor moves on (R172). -/
def State.takePlace (s : State) (st : Nat) (sq : Word32) (key : Word) (void : Nat) (phase : WindowPhase) (frame : List Byte)
    (work : Nat) (block : Option BlockRef) : State :=
  let s1 := ((s.startStream st sq).modStream st (fun x => { x with next := sq + 1 })).nextOrder
  let w : WindowRecord :=
    { stream := st, seq := sq, key := key, void := void, frame := frame, sndFirst := 0, sndCodes := []
      order := s.ing.order, tgen := s.img.tgen, budget := s.live.budgetSteps, phase := phase, work := work
      narrow := [], wide := [], fetched := false, block := block }
  { s1 with ing := { s1.ing with window := s1.ing.window ++ [w] } }

/-- The window has a free place (R187). -/
def State.windowFree (s : State) : Bool := decide (s.ing.window.length < 8192)

/-! ## Lanes (R182) -/

/-- A frame that waits for a lane. -/
def State.laneWaiters (s : State) : List Lane :=
  let recs := s.ing.window.filterMap (fun w =>
    if w.phase = .needLane then some (⟨w.stream, w.seq, false, w.order, w.work, w.budget⟩ : Lane) else none)
  let scales := s.ing.pairs.flatMap (fun p => p.2.coming.filterMap (fun f =>
    if f.inLane then none else some (⟨p.1, f.seq, true, f.order, workSteps 4 f.ncount 0, f.budget⟩ : Lane)))
  recs ++ scales

/-- The waiter of lowest order of check 4. -/
def firstLane : List Lane → Option Lane
  | [] => none
  | l :: ls =>
    match firstLane ls with
    | none => some l
    | some m => if l.order ≤ m.order then some l else some m

/-- The frame in a lane is decoding. For a scale frame, stream names the pair's data stream. -/
def State.enterLane (s : State) (l : Lane) : State :=
  if l.scale then
    s.modPair l.stream (fun p =>
      { p with coming := p.coming.map (fun f => if f.order = l.order then { f with inLane := true } else f) })
  else s.modWindow l.stream l.seq (fun w => { w with phase := .inLane })

/-- R182: frames that wait take the lowest free lanes in the order they passed check 4; at most n of them. -/
def State.fillLanes (s : State) : Nat → State
  | 0 => s
  | n + 1 =>
    match s.ing.lanes.findIdx? Option.isNone, firstLane s.laneWaiters with
    | some i, some l =>
      let s1 := s.enterLane l
      ({ s1 with ing := { s1.ing with lanes := s1.ing.lanes.set i (some l) } }).fillLanes n
    | _, _ => s

/-! ## Checks 1 to 5 (R176) -/

/-- What becomes of the frame at the head of a receive buffer: it waits, or the state after its checks. -/
inductive Admission where
  | waits
  | done (s : State)

/-- A stream newly in a pair still has records of before in the window, which come before its first frame of the pair (R355). -/
def State.oldRecords (s : State) (st : Nat) : Bool := (s.stream st).resync && decide (s.inWindow st ≠ 0)

/-- Check 4 and check 5 for the scale stream of a pair (R191, R194 to R196). An entry of the holding is claimed by each scale frame
that is on its way to it (log entry 12). -/
def State.admitScale (s : State) (r : Route) (h : FrameHeader) (frame : List Byte) (cut : Bool) : Admission :=
  let data := r.partner
  let p := s.pair data
  if p.unseated ∧ h.sync = false then .done (s.addDiscard h.stream)
  else if (s.stream h.stream).inPlace h.seq = false then .done (s.addDiscard h.stream)
  else if 2 ≤ p.holding.length + p.coming.length ∨ s.oldRecords h.stream = true then .waits
  else
    let s1 := ((s.startStream h.stream h.seq).modStream h.stream (fun x => { x with next := h.seq + 1 })).nextOrder
    if headerOk h r frame.length = false ∨ cut = true then
      .done (s1.scaleFailed data h.stream h.block)
    else
      let f : ScaleFrame :=
        { seq := h.seq, block := h.block, ncount := h.ncount, order := s.ing.order, budget := s.live.budgetSteps
          frame := frame, inLane := false }
      .done (s1.modPair data (fun q => { q with coming := q.coming ++ [f] }))

/-- A record takes its place: one that check 5 voids is ready at once, and any other waits for a lane (R182, R515). void is the status
with which check 5 voids it, 0 when it passes. -/
def State.placeRecord (s : State) (h : FrameHeader) (frame : List Byte) (void : Nat) (cut : Bool) (block : Option BlockRef) :
    State :=
  let now := if void ≠ 0 then void else if cut then stVoidCrc else 0
  let t := s.takePlace h.stream h.seq h.key now (if void ≠ 0 then .ready else .needLane) frame (workSteps h.enc h.ncount h.wcount) block
  if void = 0 then t
  else
    let u := t.countVoid h.stream void
    match block with
    | none => u
    | some b => u.blockRecordDone h.stream b.entry

/-- Check 4 and check 5 for a record. cut: a retrain has cut the frame, which is then voided (R466). crcBad: an RSP1 frame
whose CRC fails, so that only a frame in place is more than discarded (R178). -/
def State.admitRecord (s : State) (r : Route) (h : FrameHeader) (frame : List Byte) (cut crcBad : Bool) : Admission :=
  let st := h.stream
  let p := s.pair st
  let isData := r.pair == 1
  if isData ∧ h.sync = true ∧ h.seq.toNat % 64 ≠ 0 then .done (s.addDiscard st)
  else if isData ∧ p.unseated ∧ h.sync = false then .done (s.addDiscard st)
  else if (s.stream st).inPlace h.seq = false then .done (if crcBad then s.addHdrErr else s.addDiscard st)
  else if isData ∧ (s.window st h.seq).isSome = true then .done (s.addDiscard st)
  else if s.windowFree = false ∨ s.oldRecords st = true then .waits
  else
    let void := if headerOk h r frame.length then 0 else if crcBad then stVoidCrc else stVoidFormat
    if isData then
      let s0 := s.startStream st h.seq
      let paired := if h.seq.toNat % 64 = 0 then s0.pairBlock st r.partner h.seq h.block else (true, s0)
      match paired with
      | (false, t) => .done t
      | (true, t) =>
        match (t.pair st).entryOf (blockOf h.seq) with
        | none => .done (t.addDiscard st)
        | some f => .done (t.placeRecord h frame void cut (some ⟨f.order, f.block, f.scales⟩))
    else .done (s.placeRecord h frame void cut none)

/-- Checks 1 to 5 of a frame (R176, R178, R231), or the end of a frame that a retrain has cut (R466). -/
def State.admitFrame (s : State) (frame : List Byte) (cut : Bool) : Admission :=
  let gen := frameGen frame
  if gen ≠ 1 ∧ gen ≠ 2 then .done s.addBadGen
  else if gen = 2 ∧ hchkOk frame = false then .done s.addHdrErr
  else
    let h := frameHeader frame
    let crcBad := gen == 1 && !cut && !frameCrcOk frame
    match s.tables.route h.stream with
    | none => .done (if crcBad then s.addHdrErr else s.addUnrouted)
    | some r =>
      if crcBad ∧ r.format ≠ 1 then .done s.addHdrErr
      else if r.format = 2 then .done (s.addDiscard h.stream)
      else if r.pair = 2 then s.admitScale r h frame cut
      else s.admitRecord r h frame cut crcBad

/-- The frame behind the tag of a buffered frame. A cut frame has what had arrived of it. -/
def RxFrame.frame (x : RxFrame) : List Byte := (x.bytes.drop 8).take ((tagLength x.bytes).getD 0)

/-- The first buffered frame of a module passes its checks, unless it waits.
Frames of one module are taken in the order of their tags (R465). -/
def State.pumpModule (s : State) (m : Nat) : Nat → State
  | 0 => s
  | n + 1 =>
    match s.ing.rx.findIdx? (fun x => x.module == m) with
    | none => s
    | some i =>
      match s.ing.rx[i]? with
      | none => s
      | some x =>
        match s.admitFrame x.frame x.cut with
        | .waits => s
        | .done t => ({ t with ing := { t.ing with rx := t.ing.rx.eraseIdx i } }).pumpModule m n

/-- Buffered frames of both modules pass their checks as far as they can, and waiting frames take lanes (R182, R189). -/
def State.pump (s : State) : State :=
  let n := s.ing.rx.length
  (((s.pumpModule 0 n).pumpModule 1 n).fillLanes 8).refreshHeld

/-- R466: a malformed tag, or a lane that fails, retrains the module. Requests in flight are issued again after it. -/
def State.startRetrain (s : State) (m : Nat) : State :=
  { s with link := s.link.modify m (fun l => { l with retraining := true }) }

/-- The stream that a cut frame names, once its first header word has arrived. -/
def cutStream (frame : List Byte) : Option Nat := if frame.length < 4 then none else some (frameHeader frame).stream

/-- R466: a frame that a retrain cuts, as far as it had arrived. It is before check 4 while its header is not whole or an earlier
frame of its module waits, and is then discarded. -/
def State.cutFrame (s : State) (m : Nat) (bytes : List Byte) : State :=
  match tagLength bytes with
  | none => s
  | some len =>
    let s1 := { s with link := s.link.modify m (fun l => { l with cut := satAdd 16 l.cut 1 }) }
    let frame := bytes.drop 8
    let whole := decide (frame.length ≥ (if frameGen frame = 1 then 16 else 24))
    if whole && s.ing.rx.all (fun x => x.module != m) then
      -- the lengths of check 5 compare the header with LEN of the tag, so the missing bytes count as zero
      { s1 with ing := { s1.ing with rx := s1.ing.rx ++ [RxFrame.mk m true (bytes ++ List.replicate (8 + len - bytes.length) 0)] } }
    else
      match (cutStream frame).filter (fun st => (s.tables.route st).isSome) with
      | none => s1
      | some st => s1.addDiscard st

/-- FRAME_ARRIVAL (R176, R189; log entry 89 for the size of the receive buffers): the tag (R464), then the checks of R176 as far as
receive buffers, window and lanes allow. A module that is down or retrains brings no frame. -/
def execFrameArrival (module : Nat) (bytes : List Byte) (s : State) : Host.Outcome State Fault Refusal :=
  .next (
    if s.up = false ∨ (s.link.getD module LinkModule.reset).open = false then s
    else
      match tagLength bytes with
      | none =>
        let t := { s with link := s.link.modify module (fun l => { l with tagErr := satAdd 16 l.tagErr 1 }) }
        t.startRetrain module
      | some len =>
        if bytes.length < 8 + len then s
        else ({ s with ing := { s.ing with rx := s.ing.rx ++ [RxFrame.mk module false bytes] } }).pump)

/-! ## Decode -/

/-- The codes of a Soundboard record (R236). -/
def WindowRecord.soundCodes (w : WindowRecord) : List (Nat × Code) :=
  w.sndCodes.mapIdx (fun i c => (w.sndFirst + i, c))

/-- Checks 7 and 8 and the decode of a record whose lane completes: its void status and what it supplies. -/
def State.decodeRecord (s : State) (w : WindowRecord) : Nat × Supplied :=
  if w.void ≠ 0 then (w.void, ⟨[], []⟩)
  else if w.frame = [] then (0, ⟨w.soundCodes, []⟩)
  else if frameCrcOk w.frame = false then (stVoidCrc, ⟨[], []⟩)
  else
    let t := s.tablesAt w.tgen
    let h := frameHeader w.frame
    match t.route w.stream with
    | none => (stVoidFormat, ⟨[], []⟩)
    | some r =>
      if w.block.any (fun b => b.number != h.block) = true then (stVoidFormat, ⟨[], []⟩)
      else
        match decodePayload h (t.qtable r.qtable) r.missing (w.block.elim [] (·.scales)) (frameBody w.frame) with
        | none => (stVoidFormat, ⟨[], []⟩)
        | some x => (0, x)

/-- A record takes the entity join: its stream has a map and its key names an entity (R198, R210, R179). -/
def State.takesJoin (s : State) (w : WindowRecord) : Bool :=
  w.void == 0 && w.key != 0 && ((s.tablesAt w.tgen).route w.stream).any (fun r => r.emapEn)

/-- The lane of a record is released: with its void status or its codes it goes on to its join, or is ready (R184,
R515). -/
def State.leaveLane (s : State) (w : WindowRecord) (void : Nat) (x : Supplied) : State :=
  let w1 := { w with void := void, narrow := x.narrow, wide := x.wide }
  let w2 := { w1 with phase := if s.takesJoin w1 then .joining else .ready }
  let s1 := (s.modWindow w.stream w.seq (fun _ => w2)).countVoid w.stream void
  match w.block with
  | none => s1
  | some b => s1.blockRecordDone w.stream b.entry

/-- A scale frame leaves its lane: it waits in the holding with its scales, or fails its check (R191, R194). A frame that
an Unseated pair has discarded does nothing. -/
def State.leaveScale (s : State) (l : Lane) (bad : Bool) : State :=
  match (s.pair l.stream).coming.find? (fun f => f.order == l.order) with
  | none => s
  | some f =>
    let h := frameHeader f.frame
    let scales := if bad ∨ frameCrcOk f.frame = false then none else decodeScales h (frameBody f.frame)
    match scales with
    | none => s.scaleFailed l.stream h.stream f.block
    | some sc =>
      let held : HeldScale := { seq := f.seq, block := f.block, order := f.order, pairedTo := none, left := 0, scales := sc }
      s.modPair l.stream (fun p =>
        { p with
          coming := p.coming.filter (fun g => g.order != f.order)
          holding := p.holding.filter (fun g => decide (g.order < f.order)) ++
            held :: p.holding.filter (fun g => decide (f.order < g.order)) })

/-- The lane is free (R184). -/
def State.freeLane (s : State) (lane : Nat) : State :=
  { s with ing := { s.ing with lanes := s.ing.lanes.set lane none } }

/-- Decode steps of a lane (R184). A Soundboard record has no bytes to wait for: it costs its work steps (R237). -/
def State.laneSteps (s : State) (l : Lane) (wait : Nat) : Nat :=
  if !l.scale && (s.window l.stream l.seq).any (fun w => w.frame.isEmpty) then l.work else l.work + wait

/-- DECODE_DONE (R184): a lane whose steps stay within the budget hands its record over. -/
def execDecodeDone (lane wait : Nat) (s : State) : Host.Outcome State Fault Refusal :=
  .next (
    if s.up = false then s
    else
      match s.ing.lanes.getD lane none with
      | none => s
      | some l =>
        if l.budget < s.laneSteps l wait then s
        else
          let s1 := s.freeLane lane
          if l.scale then (s1.leaveScale l false).pump
          else
            match s1.window l.stream l.seq with
            | none => s1.pump
            | some w => (let (v, x) := s1.decodeRecord w; s1.leaveLane w v x).pump)

/-- DECODE_BUDGET (R185): a lane whose steps exceed the budget stops decoding, and its record is voided in place. -/
def execDecodeBudget (lane wait : Nat) (s : State) : Host.Outcome State Fault Refusal :=
  .next (
    if s.up = false then s
    else
      match s.ing.lanes.getD lane none with
      | none => s
      | some l =>
        if s.laneSteps l wait ≤ l.budget then s
        else
          let s1 := s.freeLane lane
          if l.scale then (s1.leaveScale l true).pump
          else
            match s1.window l.stream l.seq with
            | none => s1.pump
            | some w => (s1.leaveLane w stDecodeBudget ⟨[], []⟩).pump)

end Sys2Proof.Machine
end

