-- ==== Sys2Proof/Machine/Accept.lean ====
section
/-! DEFINITION. ACCEPTANCE (R188, R330, R331, R439, R454). -/

namespace Sys2Proof.Machine

/-- The lowest free head place and feature block (R330, R422). -/
def Acceptance.freeHead (a : Acceptance) : Option Nat := lowestFree 8192 (a.heads.map (·.place) ++ a.retiredHeads)
def Acceptance.freeBlock (a : Acceptance) : Option Nat := lowestFree 1686 (a.heads.filterMap (·.block) ++ a.retiredBlocks)

/-- Every narrow feature that is not missing, and all 32 wide features (R34), of an assembled record. -/
def WindowRecord.narrowStore (w : WindowRecord) : Sparse Code :=
  w.narrow.foldl (fun m p => sset 0xFFFF m p.1 p.2) []
def WindowRecord.wideWords (w : WindowRecord) (kind : Nat → Nat) : List Word32 :=
  (List.range 32).map (fun k => ((w.wide.find? (fun p => p.1 == k)).map Prod.snd).getD (wideDefault (kind k)))

/-- KIND of a wide feature in the table of a record's stream. -/
def State.kindOf (s : State) (w : WindowRecord) (i : Nat) : Nat :=
  let t := s.tablesAt w.tgen
  match t.route w.stream with
  | none => 1
  | some r => qKind (qEntry (t.qtable r.qtable) (1024 + i))

/-- The acceptance buffer entry of a window record (R330). A voided record holds no features (R179).
From here on the record is what it was at its acceptance (R14, R16, R43). -/
def State.headOf (s : State) (w : WindowRecord) (place : Nat) (block : Option Nat) : Head :=
  { place := place, block := block, stream := w.stream, seq := w.seq, key := w.key, void := w.void
    narrow := if w.void = 0 then w.narrowStore else []
    wide := if w.void = 0 then w.wideWords (s.kindOf w) else []
    headBad := false, blockBad := false, places := [] }

/-- R331: the accept cursor is written after 64 records, and when the stream has no record left in the window. -/
def State.writeAccept (s : State) (st : Nat) : State :=
  let x := s.stream st
  if s.live.accEn ∧ (64 ≤ x.unwritten ∨ s.inWindow st = 0) then
    (s.write (s.live.accAddr + 4 * st) (leBytes 4 x.accept.toNat)).modStream st (fun y => { y with unwritten := 0 })
  else s

/-- The window record of a stream that can be accepted, with the places it takes: it is next and ready, VHOLD is good, a
head and, unless voided, a block are free, and the save energy allows it. -/
def State.acceptable (s : State) (st : Nat) : Option (WindowRecord × Nat × Option Nat) :=
  if s.up = false ∨ s.vholdOk = false then none
  else
    match s.window st (s.stream st).accept with
    | none => none
    | some w =>
      if w.phase ≠ .ready ∨ s.energyAllows (w.void == 0) = false then none
      else
        match s.acc.freeHead with
        | none => none
        | some p =>
          if w.void ≠ 0 then some (w, p, none)
          else
            match s.acc.freeBlock with
            | none => none
            | some b => some (w, p, some b)

/-- The accept cursor passes a record. The next-expected cursor is never behind it: that of an Unseated pair moves with it
(R194). -/
def Stream.accepted (x : Stream) : Stream :=
  { x with
    accept := x.accept + 1
    next := if x.next = x.accept then x.accept + 1 else x.next
    unwritten := x.unwritten + 1 }

/-- The record leaves the window and stands in the acceptance buffer. -/
def State.accept (s : State) (w : WindowRecord) (place : Nat) (block : Option Nat) : State :=
  let ws := s.ing.window.filter (fun x => !(x.stream == w.stream && x.seq == w.seq))
  let hs := s.acc.heads ++ [s.headOf w place block]
  let s1 := { s with ing := { s.ing with window := ws }, acc := { s.acc with heads := hs } }
  s1.modStream w.stream Stream.accepted

/-- ACCEPTANCE (R188): the next record of a stream is accepted. A place of the window is then free (R189). -/
def execAcceptance (stream : Nat) (s : State) : Host.Outcome State Fault Refusal :=
  .next (
    match s.acceptable stream with
    | none => s
    | some (w, p, b) => ((s.accept w p b).writeAccept stream).pump)

end Sys2Proof.Machine
end

