-- ==== Sys2Proof/Machine/Gait.lean ====
section
/-! DEFINITION. The energy ledger, gait changes and thermal sensors (R359 to R384, R479). -/

namespace Sys2Proof.Machine

/-! ## The ledger -/

/-- R365: a grant of µJ, limited by CAP. -/
def Ledger.grant (l : Ledger) (cap grant : Nat) : Ledger :=
  let top : Int := 1000 * cap
  let sum := l.balance + 1000 * grant
  if sum ≤ top then { l with balance := sum }
  else { l with balance := max l.balance top, spills := satAdd 16 l.spills 1 }

/-- SFD_LEDGER (R365, R379): the word written grants credit, and the ledger target is derived. -/
def execSfdLedger (value : Word) (s : State) : Host.Outcome State Fault Refusal :=
  .next (
    if s.up then ({ s with led := s.led.grant s.live.cap (wfield value 0 32) }).deriveLedger
    else s)

/-- R366: one nJ from a rail. -/
def Ledger.debit (l : Ledger) (r : Rail) : Ledger :=
  let l1 := { l with balance := l.balance - 1 }
  match r with
  | .core => { l1 with core := (l.core + 1) % 2 ^ 64 }
  | .sram => { l1 with sram := (l.sram + 1) % 2 ^ 64 }
  | .mram => { l1 with mram := (l.mram + 1) % 2 ^ 64 }

/-- LEDGER_DEBIT (R366, R368, R379). -/
def execLedgerDebit (rail : Rail) (s : State) : Host.Outcome State Fault Refusal :=
  .next (if s.up then ({ s with led := s.led.debit rail }).ledgerMoved else s)

/-! ## Gait changes -/

/-- R364: attempts that a transaction has in all. -/
abbrev avsAttempts : Nat := 3

/-- R364: a failed transaction is repeated while attempts are left. -/
def GaitState.failed (g : GaitState) : GaitState :=
  let n := g.attempts + 1
  { g with attempts := n, retries := if n < avsAttempts then satAdd 16 g.retries 1 else g.retries }

/-- R364, R479: the write of the voltage has failed, and is sent again while attempts are left. -/
def State.writeFailed (s : State) : State :=
  let t := { s with gait := s.gait.failed }
  if t.gait.attempts < avsAttempts then t.send (.avsWrite (gaitMv s.gait.requested)) else t

/-- R479: a status read, with its outcome. -/
def State.pollStatus (s : State) (ok vdone : Bool) : State :=
  let g := s.gait
  ({ s with gait := if ok then { g with attempts := 0, vdone := vdone } else g.failed }).send .avsStatus

/-- AVS_POLL (R479, R364): during a change the engine reads the regulator's status, once the write of the voltage has succeeded. -/
def execAvsPoll (wrote ok vdone : Bool) (s : State) : Host.Outcome State Fault Refusal :=
  .next (
    let g := s.gait
    if s.up && g.moving && decide (g.attempts < avsAttempts) then
      if g.written then s.pollStatus ok vdone
      else if wrote then ({ s with gait := { g with written := true, attempts := 0 } }).pollStatus ok vdone
      else s.writeFailed
    else s)

/-- R363: the monitor agrees within 15 mV. -/
def gaitAgrees (g mv : Nat) : Bool := decide (gaitMv g ≤ mv + 15) && decide (mv ≤ gaitMv g + 15)

/-- GAIT_REACHED (R363): the gait requested is in effect. -/
def execGaitReached (mv : Nat) (s : State) : Host.Outcome State Fault Refusal :=
  .next (
    let g := s.gait
    if s.up && g.moving && g.vdone && gaitAgrees g.requested mv then
      { s with gait := { g with now := g.requested, moving := false, vdone := false, changes := satAdd 16 g.changes 1 } }
    else s)

/-- A request that names no gait: the voltage requested is not known (R364). -/
abbrev noGait : Nat := 4

/-- AVS_ERR (R364): the third failed attempt, or the bound of 65,536 tok. -/
def execAvsErr (timeout : Bool) (s : State) : Host.Outcome State Fault Refusal :=
  .next (
    let g := s.gait
    if s.up && g.moving && (timeout || g.attempts == avsAttempts) then
      let g1 := { g with avsErr := true, now := 0, requested := noGait, moving := false, written := false, vdone := false, attempts := 0 }
      ({ s with gait := g1 }).logEvent evAvsErr clsLasting 0 Detected.nowhere g.attempts
    else s)

/-- R364, R384: AVS_ERR is cleared, and the target is requested again. -/
def State.clearAvsErr (s : State) (value : Word) : State :=
  if s.gait.avsErr && wbit value 9 then ({ s with gait := { s.gait with avsErr := false } }).retarget else s

/-- AVS_ERR_CLEAR (R364, R492): a write of SFD_GAIT_STAT. -/
def execAvsErrClear (value : Word) (s : State) : Host.Outcome State Fault Refusal :=
  .next (if s.up then s.clearAvsErr value else s)

/-! ## Thermal sensors -/

/-- The code of a threshold of R380: 95, 100, 105 and 110 °C are the thresholds 1 to 4. -/
def thermalCode (n : Nat) : Nat := 260 + 10 * n

/-- R380: the thresholds in force after a reading of T_max. One that holds is lifted 3.0 °C, six codes, below it. -/
def thermalLevel (was tMax : Nat) : Nat :=
  (List.range 4).foldl (fun l i =>
    let n := i + 1
    if thermalCode n ≤ tMax ∨ (n ≤ was ∧ thermalCode n < tMax + 6) then n else l) 0

/-- R382, R384: a sensor after a conversion. -/
def Sensor.convert (x : Sensor) (code : Nat) (ok : Bool) : Sensor :=
  if ok then ⟨code, max x.peak code, false, true⟩ else { x with bad := true, converted := true }

/-- R381, R473: the suspension begins or ends. -/
def State.reportThermal (s : State) (was : Bool) : State :=
  if s.suspended = was then s
  else
    let ev := if was then evThermalResume else evThermalSuspend
    -- no run goes on into records not yet dispatched; those dispatched complete
    let t := if was then s else { s with grp := { s.grp with groups := s.grp.groups.map Group.cut } }
    (t.logEvent ev clsInfo 0 Detected.nowhere s.tMax).notifyIf 2 66

/-- The thermal caps after a conversion. Without a valid sensor there is no T_max, and the thresholds stand. -/
def State.thermal (s : State) : State :=
  if s.validSensors.isEmpty then s
  else ({ s with gait := { s.gait with thermal := thermalLevel s.gait.thermal s.tMax } }).reportThermal s.suspended

/-- SENSOR_CONVERSION (R380 to R382). -/
def execSensorConversion (sensor : Nat) (code : BitVec 10) (ok : Bool) (s : State) : Host.Outcome State Fault Refusal :=
  .next (
    if s.up then
      let x := s.gait.sensors.getD sensor ⟨0, 0, false, false⟩
      let s1 := { s with gait := { s.gait with sensors := s.gait.sensors.set sensor (x.convert code.toNat ok) } }
      let s2 := if !ok && !x.bad then s1.logEvent evSensorBad clsLasting 0 Detected.nowhere sensor else s1
      s2.thermal.retarget
    else s)

end Sys2Proof.Machine
end

