-- ==== Sys2Proof/Machine/Compare.lean ====
section
/-! DEFINITION. The fret matrix: upsets of stored bits, the items of an array, the comparison (R60 to R65), the slot words (R69),
the parity checks (R85, R386) and the perturbed codes of a Tremolo pass (R257). -/

namespace Sys2Proof.Machine

/-! ## Items of an array -/

/-- Places of the items in the sparse stores of Arrays. -/
def descAt (phys : Nat) (plane : Bool) (slot : Nat) : Nat := (phys * 2 + flag plane) * 256 + slot
def cellAt (phys : Nat) (plane : Bool) (slot cell : Nat) : Nat := descAt phys plane slot * 64 + cell
def maskAt (phys mask : Nat) : Nat := phys * 1024 + mask
def rowAt (phys bank row : Nat) : Nat := (phys * 16 + bank) * 1152 + row
def scaleAt (phys idx : Nat) : Nat := phys * 2048 + idx

/-- A cell that is OFF, and a row that is free. -/
def offCell : StoredCell := ⟨0, false⟩
def freeRow : BridgeRow := ⟨0, 0, 0, 0, false, false, 0, false, false, 0, none⟩

def Arrays.cell (a : Arrays) (phys : Nat) (plane : Bool) (slot cell : Nat) : StoredCell :=
  sget offCell a.cells (cellAt phys plane slot cell)
def Arrays.desc (a : Arrays) (phys : Nat) (plane : Bool) (slot : Nat) : BitVec 10 :=
  sget 0 a.descs (descAt phys plane slot)
def Arrays.mask (a : Arrays) (phys m : Nat) : BitVec 256 := sget 0 a.masks (maskAt phys m)
def Arrays.row (a : Arrays) (phys bank row : Nat) : BridgeRow := sget freeRow a.rows (rowAt phys bank row)
def Arrays.scale (a : Arrays) (phys idx : Nat) : Option ScaleItem := sget none a.scales (scaleAt phys idx)

/-- Fields of a slot descriptor (R58). -/
def descUsed (d : BitVec 10) : Bool := bitOf d.toNat 0
def descSlotModel (d : BitVec 10) : Nat := fieldOf d.toNat 1 6
def descLink (d : BitVec 10) : Nat := fieldOf d.toNat 7 2
def descMatchAll (d : BitVec 10) : Bool := bitOf d.toNat 9

/-- Fields of a cell (R57). -/
def cellMode (c : BitVec 42) : Nat := fieldOf c.toNat 0 2
def cellDefdir (c : BitVec 42) : Bool := bitOf c.toNat 2
def cellFeature (c : BitVec 42) : Nat := fieldOf c.toNat 4 10
def cellThresh (c : BitVec 42) : Nat := fieldOf c.toNat 16 16
def cellMask (c : BitVec 42) : Nat := fieldOf c.toNat 32 10

abbrev modeOff : Nat := 0
abbrev modeNarrow : Nat := 1
abbrev modeWide : Nat := 2
abbrev modeCat : Nat := 3

/-- Items of a sparse store from one index up to another. -/
def sparseRange {α : Type} (m : Sparse α) (lo hi : Nat) : Sparse α := m.filter (fun x => decide (lo ≤ x.1) && decide (x.1 < hi))

/-- The used slots of a plane of an array, with their descriptors. -/
def Arrays.usedSlots (a : Arrays) (phys : Nat) (plane : Bool) : List (Nat × BitVec 10) :=
  let lo := descAt phys plane 0
  ((sparseRange a.descs lo (lo + 256)).filter (fun x => descUsed x.2)).map (fun x => (x.1 - lo, x.2))

/-- Valid rows of a plane in a bank, with their physical rows, in rising order. -/
def Arrays.planeRows (a : Arrays) (phys bank : Nat) (plane : Bool) : List (Nat × BridgeRow) :=
  let lo := rowAt phys bank 0
  ((sparseRange a.rows lo (lo + 1152)).filter (fun x => x.2.valid && x.2.plane == plane)).map (fun x => (x.1 - lo, x.2))

/-! ## Upsets -/

/-- A Bridge row with one of its 175 stored bits flipped (R89). -/
def BridgeRow.flip (r : BridgeRow) (b : Nat) : BridgeRow :=
  if b < 64 then { r with key := r.key ^^^ BitVec.ofNat 64 (2 ^ b) }
  else if b < 128 then { r with care := r.care ^^^ BitVec.ofNat 64 (2 ^ (b - 64)) }
  else if b < 160 then { r with payload := r.payload ^^^ BitVec.ofNat 32 (2 ^ (b - 128)) }
  else if b < 164 then { r with slot := r.slot ^^^ BitVec.ofNat 4 (2 ^ (b - 160)) }
  else if b = 164 then { r with valid := !r.valid }
  else if b = 165 then { r with plane := !r.plane }
  else if b < 173 then { r with mlen := r.mlen ^^^ BitVec.ofNat 7 (2 ^ (b - 166)) }
  else if b = 173 then { r with p0 := !r.p0 }
  else { r with p1 := !r.p1 }

/-- A stored cell with one of its 43 bits flipped. -/
def StoredCell.flip (c : StoredCell) (b : Nat) : StoredCell :=
  if b < 42 then { c with cfg := c.cfg ^^^ BitVec.ofNat 42 (2 ^ b) } else { c with parity := !c.parity }

/-- A scale entry with a bit of its multiplier or zero point flipped. -/
def ScaleItem.flip (x : ScaleItem) (b : Nat) : ScaleItem :=
  if b < 8 then { x with entry := { x.entry with mult := x.entry.mult ^^^ BitVec.ofNat 8 (2 ^ b) } }
  else { x with entry := { x.entry with zero := x.entry.zero ^^^ BitVec.ofNat 16 (2 ^ (b - 8)) } }

/-- A Tally word with one of its 72 stored bits flipped (R160). -/
def TallyWord.reset : TallyWord := ⟨0, 0⟩
def TallyWord.flip (w : TallyWord) (b : Nat) : TallyWord := { w with flips := w.flips ^^^ BitVec.ofNat 72 (2 ^ b) }

/-- A feature buffer place that nothing has been loaded into. -/
def FeaturePlace.empty : FeaturePlace := ⟨[], [], []⟩

/-- A list of numbers with one put in or taken out. -/
def toggleNat (xs : List Nat) (n : Nat) : List Nat := if xs.contains n then xs.filter (· != n) else insertNat xs n

/-- R386: a feature buffer place with one bit of a 64-bit word flipped. Words 0 to 255 hold four codes each, words 256 to 271 two
wide words each (log entry 77). -/
def FeaturePlace.flip (x : FeaturePlace) (w b : Nat) : FeaturePlace :=
  let y :=
    if 64 ≤ b then x
    else if w < 256 then { x with narrow := smod 0xFFFF x.narrow (4 * w + b / 16) (fun c => c ^^^ BitVec.ofNat 16 (2 ^ (b % 16))) }
    else { x with wide := x.wide.modify (2 * (w - 256) + b / 32) (fun v => v ^^^ BitVec.ofNat 32 (2 ^ (b % 32))) }
  { y with odd := toggleNat x.odd w }

/-- An upset of the arrays. -/
def Arrays.disturb (a : Arrays) (u : Upset) : Arrays :=
  match u with
  | .cellBit p π sl c b => { a with cells := smod offCell a.cells (cellAt p π sl c) (fun x => x.flip b) }
  | .descBit p π sl b => { a with descs := smod 0 a.descs (descAt p π sl) (fun d => d ^^^ BitVec.ofNat 10 (2 ^ b)) }
  | .maskBit p m b => { a with masks := smod 0 a.masks (maskAt p m) (fun x => x ^^^ BitVec.ofNat 256 (2 ^ b)) }
  | .rowBit p k r b => { a with rows := smod freeRow a.rows (rowAt p k r) (fun x => x.flip b) }
  | .scaleBit p i b => { a with scales := smod none a.scales (scaleAt p i) (fun x => x.map (fun y => y.flip b)) }
  | .featureBuffer p x w b => { a with buffers := smod FeaturePlace.empty a.buffers (p * 2 + x) (fun y => y.flip w b) }
  | _ => a

/-- An upset of a feature buffer place: in a dispatch it strikes the place just loaded. -/
def inBuffer : Upset → Bool
  | .featureBuffer _ _ _ _ => true
  | _ => false

/-- An upset of a stored bit. residue and indexBit are no bit of these stores. -/
def State.disturb (s : State) (u : Upset) : State :=
  match u with
  | .tallyBit w b => { s with tally := { s.tally with words := smod TallyWord.reset s.tally.words w (fun x => x.flip b) } }
  | .headBit n =>
    { s with acc := { s.acc with heads := s.acc.heads.map (fun h => if h.place = n then { h with headBad := true } else h) } }
  | .blockBit n =>
    { s with acc := { s.acc with
      heads := s.acc.heads.map (fun h => if h.block = some n then { h with blockBad := true } else h) } }
  | u => { s with arr := s.arr.disturb u }

/-- The upsets of a step. -/
def State.disturbAll (s : State) (ups : List Upset) : State := ups.foldl State.disturb s

/-! ## The comparison -/

/-- What a cell compares: codes, wide words with their KIND, and masks. -/
structure Sample where
  narrow : Nat → Code
  wide : Nat → Word32
  kind : Nat → Nat
  mask : Nat → BitVec 256

/-- R60, R61 for a NARROW cell.
Under the threshold 0xFFFF every value goes left (R47). -/
def narrowBit (code : Code) (thresh : Nat) (dir : Bool) : Bool :=
  if code = 0xFFFF then dir else decide (thresh ≤ code.toNat)

/-- R60, R61 for a CAT cell. -/
def catBit (code : Code) (mask : BitVec 256) (dir : Bool) : Bool :=
  if code.toNat < 256 then mask.getLsbD code.toNat else dir

/-- R60, R61 for a WIDE pair with its threshold (R64). -/
def wideBit (x thresh : Word32) (kind : Nat) (dir : Bool) : Bool :=
  if wideMissing x kind then dir else wideGe x thresh kind

/-- The bit that cell i of a slot yields (R60, R61, R64, R65), from the configurations of the slot's cells. -/
def cellBitOf (x : Sample) (cfg : Nat → BitVec 42) (i : Nat) : Bool :=
  let c := cfg i
  let mode := cellMode c
  if mode = modeOff then false
  else if mode = modeNarrow then narrowBit (x.narrow (cellFeature c)) (cellThresh c) (cellDefdir c)
  else if mode = modeCat then catBit (x.narrow (cellFeature c)) (x.mask (cellMask c)) (cellDefdir c)
  else
    let even := cfg (i / 2 * 2)
    let odd := cfg (i / 2 * 2 + 1)
    let thresh := BitVec.ofNat 32 (cellThresh even + 65536 * cellThresh odd)
    let f := cellFeature even % 32
    wideBit (x.wide f) thresh (x.kind f) (cellDefdir even)

/-- The slot word of a slot (R69). -/
def slotWord (x : Sample) (cfg : Nat → BitVec 42) : Word :=
  BitVec.ofNat 64 ((List.range 64).foldl (fun n i => n + (flag (cellBitOf x cfg i) <<< i)) 0)

/-- R17: the place of the local feature buffer that the next record is loaded into, and the place compared: the one loaded last. -/
def Arrays.loadPlace (a : Arrays) (phys : Nat) : Nat := flag (bitOf a.nextPlace.toNat phys)
def Arrays.comparePlace (a : Arrays) (phys : Nat) : Nat := 1 - a.loadPlace phys

def Arrays.buffer (a : Arrays) (phys place : Nat) : FeaturePlace := sget FeaturePlace.empty a.buffers (phys * 2 + place)

/-- A place of an array's buffer written, with its parity (R386). -/
def Arrays.putBuffer (a : Arrays) (phys place : Nat) (x : FeaturePlace) : Arrays :=
  { a with buffers := sset FeaturePlace.empty a.buffers (phys * 2 + place) x }

/-- A place loaded, which is then the one that is compared. -/
def Arrays.load (a : Arrays) (phys : Nat) (x : FeaturePlace) : Arrays :=
  { a.putBuffer phys (a.loadPlace phys) x with nextPlace := a.nextPlace ^^^ BitVec.ofNat 34 (2 ^ phys) }

/-- What an array compares: the features in its compare place. -/
def State.sample (s : State) (m : ModelDef) (phys : Nat) : Sample :=
  let x := s.arr.buffer phys (s.arr.comparePlace phys)
  { narrow := fun i => sget 0xFFFF x.narrow i
    wide := fun i => x.wide.getD i 0
    kind := fun i => m.wideKinds.getD i 1
    mask := fun n => s.arr.mask phys n }

/-- The perturbed code of a feature in a pass (R257, R258).
The entries are those of the image in whose plane the record is compared (R256). -/
def passCode (m : ModelDef) (st : Nat) (sq : Word32) (p : Nat) (i : Nat) (c : Code) : Code :=
  match m.tremolo.find? (fun e => e.feature == i) with
  | none => c
  | some e => perturb c i e.drop e.amp (recordKey m.seed st sq) p

/-- The features of a record as one pass of a job brings them to the arrays (R78, R257): a SCORE_TREMOLO pass perturbs the
features that have an entry. -/
def Head.features (h : Head) (m : ModelDef) (tremolo : Bool) (pass : Nat) : FeaturePlace :=
  let put (acc : Sparse Code) (e : Tremolo) : Sparse Code :=
    sset 0xFFFF acc e.feature (passCode m h.stream h.seq pass e.feature (sget 0xFFFF h.narrow e.feature))
  ⟨if tremolo then m.tremolo.foldl put h.narrow else h.narrow, h.wide, []⟩

/-! ## Positions -/

/-- A position that is not OUT (R412). -/
def State.inService (s : State) (pos : Nat) : Bool := !bitOf s.arr.out.toNat pos

/-- The positions of a group that are in service. -/
def State.positions (s : State) (base size : Nat) : List Nat := ((List.range size).map (base + ·)).filter s.inService

/-- The positions that compare a record: those in service and, in Tandem, their twins (R425). -/
def State.comparing (s : State) (g : Group) : List Nat :=
  let ps := s.positions g.base g.size
  if g.tandem then ps ++ ps.map (· + 16) else ps

/-- Slots of a model on an array, in one plane. -/
def State.modelSlots (s : State) (phys : Nat) (plane : Bool) (m : Nat) : List (Nat × BitVec 10) :=
  (s.arr.usedSlots phys plane).filter (fun x => descSlotModel x.2 == m)

/-- Slot words of every used slot of a position (R69, R78), by position·256 + slot.
A slot that is not used yields none (R21, R59). -/
def State.wordsAt (s : State) (x : Sample) (pos : Nat) (plane : Bool) : List (Nat × Word) :=
  let phys := s.physOf pos
  (s.arr.usedSlots phys plane).map (fun d =>
    (pos * 256 + d.1, slotWord x (fun i => (s.arr.cell phys plane d.1 i).cfg)))

/-! ## Checks at the comparison -/

/-- R85: the lowest cell of a used slot of a plane whose parity does not agree: slot and cell. -/
def Arrays.badCell (a : Arrays) (phys : Nat) (plane : Bool) : Option (Nat × Nat) :=
  let lo := cellAt phys plane 0 0
  ((sparseRange a.cells lo (lo + 16384)).find? (fun x =>
    !x.2.ok && descUsed (a.desc phys plane ((x.1 - lo) / 64)))).map (fun x => ((x.1 - lo) / 64, (x.1 - lo) % 64))

/-- The first check of a comparison that fails at a position: cell parity, then the feature buffer (R86, R386). -/
def State.compareFault (s : State) (g : Group) (plane : Bool) (pos : Nat) : Option Detected :=
  let phys := s.physOf pos
  let part := { Detected.nowhere with grp := g.gid, pos := pos, phys := phys, plane := plane }
  match s.arr.badCell phys plane with
  | some (sl, c) =>
    some { part with check := evCellParity, bank := sl / 16, slot := sl, place := c
                     model := descSlotModel (s.arr.desc phys plane sl), detail := g.gen }
  | none =>
    let n := s.arr.comparePlace phys
    if (s.arr.buffer phys n).odd.isEmpty then none else some { part with check := evFbufParity, place := n, detail := n }

/-- R425: the lowest slot of a primary whose word differs from its twin's: position and slot. -/
def tandemWordFault (g : Group) (words : List (Nat × Word)) : Option (Nat × Nat) :=
  let at? (k : Nat) : Option Word := (words.find? (fun t => t.1 == k)).map Prod.snd
  let keys := words.map (fun w => if w.1 < (g.base + g.size) * 256 then w.1 else w.1 - 4096)
  ((keys.mergeSort (· ≤ ·)).find? (fun k => at? k != at? (k + 4096))).map (fun k => (k / 256, k % 256))

end Sys2Proof.Machine
end

