-- ==== Sys2Proof/Machine/Protect.lean ====
section
/-! DEFINITION. Protected memory (R398 to R405): writes with their check bytes, pages directed to spares, and the harness copy with its
mirror (R292). -/

namespace Sys2Proof.Machine

/-! ## Lines and their check bytes (R399, R400, R404) -/

/-- Where a page of a protected region stands, and the check bytes of its first line: at its own place, or in the spare page that it
was last directed to. -/
def State.pageHome (s : State) (base size page : Nat) : Nat × Nat :=
  match s.flt.pages.reverse.find? (fun p => p.1 == page) with
  | none => (4096 * page, base + size + (4096 * page - base) / 16)
  | some p =>
    let pool := s.live.spareAddr
    (pool + 4096 * p.2, pool + 4096 * s.live.spareCount + 256 * p.2)

/-- Bytes written within one page of a region, with fresh check bytes for each line that they touch. -/
def State.pageWrite (s : State) (base size a : Nat) (bs : List Byte) : State :=
  let (home, check) := s.pageHome base size (a / 4096)
  let o := a % 4096
  let t := s.write (home + o) bs
  let first := o / 128
  let line (l : Nat) : List Byte :=
    if o ≤ 128 * l ∧ 128 * l + 128 ≤ o + bs.length then (bs.drop (128 * l - o)).take 128 else memRead t.mem (home + 128 * l) 128
  t.write (check + 8 * first) ((List.range' first ((o + bs.length + 127) / 128 - first)).flatMap (fun l => rsCheck (line l)))

/-- Bytes written into a region, page after page. -/
def State.pagesWrite (s : State) (base size : Nat) : Nat → Nat → List Byte → State
  | 0, _, _ => s
  | n + 1, a, bs =>
    let k := 4096 - a % 4096
    (s.pageWrite base size a (bs.take k)).pagesWrite base size n (a + k) (bs.drop k)

/-- A write into a protected region (R399, R404). -/
def State.shelterWrite (s : State) (base size a : Nat) (bs : List Byte) : State :=
  s.pagesWrite base size ((a % 4096 + bs.length + 4095) / 4096) a bs

/-- Bytes of a protected region as the engine's accesses find them (R404). -/
def State.shelterRead (s : State) (a n : Nat) : List Byte := (List.range n).map (fun i => memByte s.mem (s.redirect (a + i)))

/-! ## The harness copy (R292, R405) -/

/-- Size of the harness copy (R398). -/
def Staged.copySize (c : Staged) : Nat := 65536 * c.hcopyUnits

/-- A write into the harness copy at an offset, and into its mirror at the same offset (R405). -/
def State.copyWrite (s : State) (off : Nat) (bs : List Byte) : State :=
  let c := s.live
  let t := s.shelterWrite c.hcopyAddr c.copySize (c.hcopyAddr + off) bs
  if c.mirrorEn then t.shelterWrite c.mirrorAddr c.copySize (c.mirrorAddr + off) bs else t

/-- Offset of an area of the harness copy. -/
def Staged.areaOff (c : Staged) (second : Bool) : Nat := if second then c.copySize / 2 else 0

/-- Offset of the journal area in its area, behind an image of a length. -/
def journalOff (length : Nat) : Nat := (length + 65535) / 65536 * 65536

/-- Bytes of a journal area (R292). -/
abbrev journalBytes : Nat := 196608

/-- A patch entry of 32 B (R113). -/
def PatchEntry.bytes (e : PatchEntry) : List Byte :=
  leBytes 32 (place e.key.toNat 0 64 + place e.care.toNat 64 64 + place e.payload.toNat 128 32 + place e.slot 160 4 +
    place e.bank 164 4 + place e.row 168 11 + place (flag e.plane) 179 1 + place e.array 180 5 + place e.op 185 3)

/-- A place of the journal area: a patch entry and its generation, in 48 B, of which the area holds 4,096 (log entry 38). -/
def JournalEntry.bytes (e : JournalEntry) : List Byte := e.entry.bytes ++ leBytes 16 e.gen

/-- R292, step 5 of R287: an image written into an area, whose journal area is emptied. -/
def State.copyImage (s : State) (second : Bool) (image : List Byte) : State :=
  let off := s.live.areaOff second
  (s.copyWrite off image).copyWrite (off + journalOff image.length) (List.replicate journalBytes 0)

/-- R119: entries put into the journal area of an image, from a place on. -/
def State.copyJournal (s : State) (second : Bool) (length at_ : Nat) (es : List JournalEntry) : State :=
  if es.isEmpty then s
  else s.copyWrite (s.live.areaOff second + journalOff length + 48 * at_) (es.flatMap JournalEntry.bytes)

end Sys2Proof.Machine
end

