-- ==== Sys2Proof/Machine/Entity.lean ====
section
/-! DEFINITION. The entity table (R198 to R230): lookup, join, run-ahead, and the entity jobs. -/

namespace Sys2Proof.Machine

/-! ## Stores and their defaults -/

/-- No entry: key zero names no entity (R198). -/
def EntityEntry.none : EntityEntry := ⟨0, 0, false, false⟩
def Bucket.empty : Bucket := ⟨0, [], false⟩
/-- A row whose every field is missing. -/
def EntityRow.missing : EntityRow := ⟨[], List.replicate 8 Option.none⟩

/-- Where a key lives (R201, R225). -/
inductive KeyPlace where
  | index (e : Nat)
  | overflow (bucket i : Nat)
  | stranded
deriving DecidableEq, Repr

/-- What a lookup of a key finds (R205, R212, R406). -/
inductive Lookup where
  | absent
  | found (at_ : KeyPlace) (entry : EntityEntry)
  | lostBucket
deriving DecidableEq, Repr

/-- INDEX_USED and ENTITIES. -/
def Entities.indexUsed (e : Entities) : Nat := e.index.length
def Entities.count (e : Entities) : Nat :=
  e.index.length + (e.overflow.map (fun b => b.2.entries.length)).sum + e.stranded.length

/-- The probe of a key (R203): four buckets of a table of 2^b. -/
def probe (k : Word) (b : Nat) : List Nat := (List.range 4).map (fun i => (homeBucket k b + i) % 2 ^ b)

/-- R205 over the probe's buckets in order. -/
def Entities.probeLookup (e : Entities) (k : Word) : List Nat → Lookup
  | [] => .absent
  | j :: js =>
    let b := sget Bucket.empty e.overflow j
    if b.lost then .lostBucket
    else
      match b.entries.find? (fun x => x.2.key == k) with
      | some (i, x) => .found (.overflow j i) x
      | none => if b.passed = 0 then .absent else e.probeLookup k js

/-- R212, orders 3 to 5: the index with the stranded store, then the overflow table. -/
def Entities.lookup (e : Entities) (ovfBits : Nat) (k : Word) : Lookup :=
  match e.index.find? (fun x => x.2.key == k) with
  | some (i, x) => .found (.index i) x
  | none =>
    match e.stranded.find? (fun x => x.key == k) with
    | some x => .found .stranded x
    | none => if ovfBits = 0 then .absent else e.probeLookup k (probe k ovfBits)

/-- The lowest index entry that is free and not retired (R206). -/
def Entities.freeIndex (e : Entities) : Option Nat := lowestFree 131072 (e.index.map Prod.fst ++ e.retired)

/-- R204: the first bucket of the probe with a free entry, with the buckets before it. A lost bucket is skipped
(R406). -/
def Entities.freeBucket (e : Entities) : List Nat → Option (List Nat × Nat × Nat)
  | [] => none
  | j :: js =>
    let b := sget Bucket.empty e.overflow j
    let here := if b.lost then none else lowestFree 10 (b.entries.map Prod.fst)
    match here with
    | some i => some ([], j, i)
    | none => (e.freeBucket js).map (fun r => (j :: r.1, r.2))

/-- The change of PASSED in buckets (R204). -/
def Entities.addPassed (e : Entities) (js : List Nat) (f : Nat → Nat) : Entities :=
  js.foldl (fun a j => { a with overflow := smod Bucket.empty a.overflow j (fun b => { b with passed := f b.passed }) }) e

/-- R204: an entry placed in the overflow table, unless all four buckets are full. -/
def Entities.placeOverflow (e : Entities) (ovfBits : Nat) (x : EntityEntry) : Option Entities :=
  if ovfBits = 0 then none
  else
    match e.freeBucket (probe x.key ovfBits) with
    | none => none
    | some (before, j, i) =>
      let e1 := e.addPassed before (· + 1)
      some { e1 with overflow := smod Bucket.empty e1.overflow j (fun b => { b with entries := sput b.entries i x }) }

/-- An entry placed in the lowest free index entry. -/
def Entities.placeIndex (e : Entities) (x : EntityEntry) : Option Entities :=
  match e.freeIndex with
  | none => none
  | some i => some { e with index := sput e.index i x }

/-- R206: a new key placed by PLACE. -/
def Entities.place (e : Entities) (ovfBits place : Nat) (x : EntityEntry) : Option Entities :=
  if place = 2 then e.placeIndex x
  else if place = 1 then e.placeOverflow ovfBits x
  else
    match e.placeIndex x with
    | some e1 => some e1
    | none => e.placeOverflow ovfBits x

/-- A key taken out of its place (R204, R221). -/
def Entities.remove (e : Entities) (ovfBits : Nat) (k : Word) : Entities :=
  match e.lookup ovfBits k with
  | .found (.index i) _ => { e with index := sdel e.index i }
  | .found .stranded _ => { e with stranded := e.stranded.filter (fun x => x.key != k) }
  | .found (.overflow j i) _ =>
    let e1 := e.addPassed ((probe k ovfBits).takeWhile (· != j)) (· - 1)
    { e1 with overflow := smod Bucket.empty e1.overflow j (fun b => { b with entries := sdel b.entries i }) }
  | _ => e

/-- The entry of a key changed in its place. -/
def Entities.modEntry (e : Entities) (ovfBits : Nat) (k : Word) (f : EntityEntry → EntityEntry) : Entities :=
  match e.lookup ovfBits k with
  | .found (.index i) x => { e with index := sput e.index i (f x) }
  | .found .stranded _ => { e with stranded := e.stranded.map (fun x => if x.key = k then f x else x) }
  | .found (.overflow j i) x =>
    { e with overflow := smod Bucket.empty e.overflow j (fun b => { b with entries := sput b.entries i (f x) }) }
  | _ => e

/-- Row places in use: those of present entities, and the new rows of a job (R221). -/
def Entities.usedRows (e : Entities) : List Nat :=
  e.index.map (fun x => x.2.row) ++ e.overflow.flatMap (fun b => b.2.entries.map (fun x => x.2.row)) ++
    e.stranded.map (fun x => x.row) ++ (match e.job with | some j => j.newRows | none => [])

/-! ## The entity region in memory (R200 to R202, R399) -/

/-- Size V of the overflow table (R200). -/
def ovfSize (b : Nat) : Nat := if b = 0 then 0 else 2 ^ b * 128

/-- Size S of the entity region (R398). -/
def Staged.entSize (c : Staged) : Nat := 0x400000 + ovfSize c.ovfBits + (c.entRows + 256) * 640
def Staged.rowAddr (c : Staged) (r : Nat) : Nat := c.entAddr + 0x400000 + ovfSize c.ovfBits + 640 * r
def Staged.bucketAddr (c : Staged) (j : Nat) : Nat := c.entAddr + 0x400000 + 128 * j

/-- A write into the entity region with its check bytes. A line written whole is lost no more. -/
def State.entWrite (s : State) (a : Nat) (bs : List Byte) : State :=
  let whole (l : Nat) : Bool := decide (a ≤ l) && decide (l + 128 ≤ a + bs.length)
  let s1 := { s with flt := { s.flt with lostLines := s.flt.lostLines.filter (fun l => !whole l) } }
  s1.shelterWrite s.live.entAddr s.live.entSize a bs

/-- The bytes of an entry (R201), 12 of them. -/
def entryBytes (x : Option EntityEntry) : List Byte :=
  match x with
  | none => List.replicate 12 0
  | some x => leBytes 12 (place x.key.toNat 0 64 + place x.row 64 23 + place 1 87 1 + place (flag x.lost) 88 1)

/-- The bytes of a row place (R201). The word of a wide field that no update has written is open (log entry 7). -/
def rowBytes (r : Nat) (key : Word) (row : EntityRow) : List Byte :=
  ((List.range 256).flatMap (fun i => leBytes 2 (sget 0xFFFF row.narrow i).toNat)) ++
    ((List.range 8).flatMap (fun k =>
      leBytes 4 ((row.wide.getD k none).getD (Config.missingWide (8 * r + k))).toNat)) ++
    leBytes 8 key.toNat ++ List.replicate 88 0

/-- The index mirror entry written through. -/
def State.writeMirror (s : State) (i : Nat) : State :=
  let x := sget EntityEntry.none s.ent.index i
  s.entWrite (s.live.entAddr + 16 * i) (entryBytes (if x.key = 0 then none else some x) ++ List.replicate 4 0)

/-- The bucket written through (R202). -/
def State.writeBucket (s : State) (j : Nat) : State :=
  let b := sget Bucket.empty s.ent.overflow j
  ({ s with ent := { s.ent with buckets := s.ent.buckets.filter (· != j) } }).entWrite (s.live.bucketAddr j)
    (leBytes 8 b.passed ++ (List.range 10).flatMap (fun i =>
      entryBytes ((b.entries.find? (fun (x : Nat × EntityEntry) => x.1 == i)).map Prod.snd)))

/-- The bit of a row place in the free-row map written through. -/
def State.writeFreeBit (s : State) (r : Nat) (used : Bool) : State :=
  let a := s.live.entAddr + 0x200000 + r / 8
  let old := leNat (s.shelterRead a 1)
  let bit := 1 <<< (r % 8)
  s.entWrite a [BitVec.ofNat 8 (if used then old ||| bit else old - (old &&& bit))]

/-- The places of a key, and of its probe, written through. -/
def State.writeKey (s : State) (before : Entities) (k : Word) : State :=
  let b := s.live.ovfBits
  let places (e : Entities) : List Nat := match e.lookup b k with | .found (.index i) _ => [i] | _ => []
  let s1 := (places before ++ places s.ent).foldl (fun t i => t.writeMirror i) s
  if b = 0 then s1
  else
    ((probe k b).filter (fun j => sget Bucket.empty before.overflow j != sget Bucket.empty s.ent.overflow j)).foldl
      (fun t j => t.writeBucket j) s1

/-! ## The row cache (R214) -/

/-- A run-ahead fetch holds the key's row for a record of the window. -/
def State.rowHeld (s : State) (k : Word) : Bool :=
  s.ing.window.any (fun w => w.fetched && w.key == k && w.phase != .ready)

/-- A row joined or brought in, most recent last; a full cache of 7,680 rows replaces the row least recently joined that
no fetch holds. -/
def State.cacheRow (s : State) (k : Word) (row : EntityRow) : State :=
  let others := s.ent.cache.filter (fun c => c.key != k)
  let room :=
    if others.length < 7680 then some others
    else (others.findIdx? (fun c => !s.rowHeld c.key)).map (fun i => others.eraseIdx i)
  match room with
  | none => { s with ent := { s.ent with cache := others } }
  | some cs => { s with ent := { s.ent with cache := cs ++ [⟨k, row⟩] } }

def State.dropCached (s : State) (k : Word) : State :=
  { s with ent := { s.ent with cache := s.ent.cache.filter (fun c => c.key != k) } }

/-- The row of a place can be read: none of its five lines is lost (R226). -/
def State.rowReadable (s : State) (r : Nat) : Bool :=
  (List.range 5).all (fun i => !s.flt.lostLines.contains (portAddr (s.live.rowAddr r + 128 * i)))

/-! ## The join (R210) -/

/-- The map of a record's stream (R208). -/
def State.mapOf (s : State) (w : WindowRecord) : Option (List Code) :=
  let t := s.tablesAt w.tgen
  match t.route w.stream with
  | none => none
  | some r => if r.emapEn then some (t.maps.getD r.emap []) else none

/-- KIND of a wide feature in a stream's table. -/
def State.wideKind (s : State) (w : WindowRecord) (i : Nat) : Nat :=
  let t := s.tablesAt w.tgen
  match t.route w.stream with
  | none => 1
  | some r => qKind (qEntry (t.qtable r.qtable) (1024 + i))

/-- R210: the row's fields joined into the features that the payload does not supply. -/
def joinFields (map : List Code) (row : EntityRow) (kind : Nat → Nat) (w : WindowRecord) : WindowRecord :=
  let narrow := (List.range 256).filterMap (fun i =>
    let t := map.getD i 0xFFFF
    if t = 0xFFFF ∨ w.narrow.any (fun p => p.1 == t.toNat) = true then none
    else some (t.toNat, sget 0xFFFF row.narrow i))
  let wide := (List.range 8).filterMap (fun k =>
    let t := map.getD (256 + k) 0xFFFF
    if t = 0xFFFF ∨ w.wide.any (fun p => p.1 == t.toNat) = true then none
    else some (t.toNat, (row.wide.getD k none).getD (wideDefault (kind t.toNat))))
  { w with narrow := w.narrow ++ narrow, wide := w.wide ++ wide }

/-- The record has joined a row, or the absent entity. -/
def State.joined (s : State) (w : WindowRecord) (row : EntityRow) : State :=
  let map := (s.mapOf w).getD []
  s.modWindow w.stream w.seq (fun _ => { joinFields map row (s.wideKind w) w with phase := .ready })

/-- R226: the record is voided with VOID_ENTITY. -/
def State.voidEntity (s : State) (w : WindowRecord) : State :=
  let s1 := { s with ent := { s.ent with entityVoids := satAdd 16 s.ent.entityVoids 1 } }
  s1.modWindow w.stream w.seq (fun _ => { w with void := stVoidEntity, narrow := [], wide := [], phase := .ready })

/-- The join through an entry: its row from memory, or R226. -/
def State.joinEntry (s : State) (w : WindowRecord) (x : EntityEntry) : State :=
  if x.lost then s.voidEntity w
  else if s.rowReadable x.row then
    let row := sget EntityRow.missing s.ent.rows x.row
    (s.cacheRow w.key row).joined w row
  else
    let e := s.ent.modEntry s.live.ovfBits w.key (fun y => { y with lost := true })
    let s1 := ({ s with ent := e }).writeKey s.ent w.key
    s1.voidEntity w

/-- The part of an index entry, for the count of transient errors (R390). -/
def indexPart (i : Nat) : Detected := { Detected.nowhere with check := evIndexParity, place := i }

/-- Transient errors of a part since the engine last started (R390). -/
def Faults.transOf (f : Faults) (p : Detected) : Nat :=
  match f.trans.find? (fun x => x.1 == p) with
  | some x => x.2
  | none => 0

/-- A transient error of a part counted (R390). -/
def Faults.addTrans (f : Faults) (p : Detected) : Faults :=
  { f with trans := (f.trans.filter (fun x => x.1 != p)) ++ [(p, f.transOf p + 1)] }

/-- R390: the part's next detected error is lasting without a retry. -/
def State.worn (s : State) (p : Detected) : Bool := decide (s.live.transLimit ≤ s.flt.transOf p)

/-- R225: a key whose index entry is retired goes to the lowest free index entry, the overflow table, the stranded
store of 16 keys, or is marked LOST and kept behind the store (log entry 90). -/
def State.moveKey (s : State) (i : Nat) (x : EntityEntry) : State :=
  let e0 := { s.ent with
    index := sdel s.ent.index i
    retired := insertNat s.ent.retired i
    retirements := satAdd 16 s.ent.retirements 1 }
  let y := { x with bad := false }
  let e1 :=
    match e0.place s.live.ovfBits 0 y with
    | some e => e
    | none => { e0 with
        ovfRefused := if s.live.ovfBits = 0 then e0.ovfRefused else satAdd 16 e0.ovfRefused 1
        stranded := e0.stranded ++ [if e0.stranded.length < 16 then y else { y with lost := true }] }
  ((({ s with ent := e1 }).writeMirror i)).writeKey s.ent x.key

/-- R225: the parity of an index entry does not agree. again: the repeated lookup succeeds. -/
def State.indexParity (s : State) (i : Nat) (x : EntityEntry) (again : Bool) : State :=
  let p := indexPart i
  if again ∧ s.worn p = false then
    let s1 := { s with ent := { s.ent with index := sput s.ent.index i { x with bad := false } }, flt := s.flt.addTrans p }
    s1.logEvent evIndexParity clsTransient 0 Detected.nowhere i
  else (s.moveKey i x).logEvent evIndexParity clsLasting 0 Detected.nowhere i

/-- R225: the parity check of a lookup of a key. -/
def State.checkParity (s : State) (k : Word) (again : Bool) : State :=
  match s.ent.lookup s.live.ovfBits k with
  | .found (.index i) x => if x.bad then s.indexParity i x again else s
  | _ => s

/-- The lookup of a record and its join (R212). -/
def State.lookupJoin (s : State) (w : WindowRecord) (again : Bool) : State :=
  match s.ent.cache.find? (fun c => c.key == w.key) with
  | some c => (s.cacheRow w.key c.row).joined w c.row
  | none =>
    let s1 := s.checkParity w.key again
    match s1.ent.lookup s.live.ovfBits w.key with
    | .absent => s1.joined w EntityRow.missing
    | .lostBucket => s1.voidEntity w
    | .found _ x => s1.joinEntry w x

/-- The overflow buckets that a lookup of an absent key reads (R205). -/
def Entities.absenceProof (e : Entities) : List Nat → List Nat
  | [] => []
  | j :: js => if (sget Bucket.empty e.overflow j).passed = 0 then [j] else j :: e.absenceProof js

/-- The buckets that prove a key absent; without an overflow table the index does. -/
def State.absentBuckets (s : State) (k : Word) : List Nat :=
  if s.live.ovfBits = 0 then [] else s.ent.absenceProof (probe k s.live.ovfBits)

/-- The join of a key reads memory: the row cache holds neither its row nor the proof that it is absent (R205, R214). -/
def State.joinReads (s : State) (k : Word) : Bool :=
  !s.ent.cache.any (fun c => c.key == k) &&
    (match s.ent.lookup s.live.ovfBits k with
      | .absent => (s.absentBuckets k).any (fun j => !s.ent.buckets.contains j)
      | .lostBucket => true
      | .found _ x => !x.lost)

/-- R224: an entity job in progress names the record's stream as its boundary, and the record lies from Q on. -/
def State.heldByBoundary (s : State) (st : Nat) (sq : Word32) : Bool :=
  match s.ent.job with
  | none => false
  | some e =>
    match s.job e.job with
    | none => false
    | some j => descBound j.desc && descBStream j.desc == st && decide (dist (descBSeq j.desc) sq < 2 ^ 31)

/-- Upsets of index entries take effect. -/
def State.upsetIndex (s : State) (ups : List Upset) : State :=
  ups.foldl (fun t u => match u with
    | .indexBit e =>
      let x := sget EntityEntry.none t.ent.index e
      if x.key = 0 then t else { t with ent := { t.ent with index := sput t.ent.index e { x with bad := true } } }
    | _ => t) s

/-- ENTITY_JOIN (R210, R212, R225, R226): a decoded record whose stream has a map is looked up and joined, while OPEN is
1 and no boundary holds it (R224, R228). A join that reads memory waits for a module (R468). -/
def execEntityJoin (stream : Nat) (seq : Word32) (again : Bool) (ups : List Upset) (s : State) :
    Host.Outcome State Fault Refusal :=
  .next (
    if s.up = false ∨ s.live.entOpen = false ∨ s.heldByBoundary stream seq = true then s
    else
      match s.window stream seq with
      | none => s
      | some w => if w.phase = .joining ∧ (s.memUp || !s.joinReads w.key) = true then ((s.upsetIndex ups).lookupJoin w again).refreshHeld else s)

/-- Whether a window record still waits for its join. -/
def State.waitsJoin (s : State) (w : WindowRecord) : Bool := w.phase != .ready && s.takesJoin w

/-- R215: the record is the next in the order of check 4 whose key is to be looked up, and at most 512 records ahead of the oldest
record not yet joined. -/
def State.inRunAhead (s : State) (w : WindowRecord) : Bool :=
  let waiting := s.ing.window.filter (fun x => s.waitsJoin x)
  match waiting.head? with
  | none => false
  | some o =>
    waiting.all (fun x => x.fetched || decide (w.order ≤ x.order)) &&
      decide ((s.ing.window.filter (fun x => decide (o.order ≤ x.order) && decide (x.order < w.order))).length ≤ 512)

/-- What a run-ahead fetch that reads its lines brings into the row cache (R215, R216): the row of a key, or the buckets that prove the
key absent. It makes no second lookup of an entry of bad parity and no second read of a line: those are the join's. -/
def State.runAhead (s : State) (k : Word) : State :=
  match s.ent.lookup s.live.ovfBits k with
  | .absent =>
    let js := s.absentBuckets k
    { s with ent := { s.ent with buckets := (s.ent.buckets.filter (fun j => !js.contains j)) ++ js } }
  | .lostBucket => s
  | .found _ x =>
    if x.bad ∨ x.lost ∨ s.rowReadable x.row = false then s
    else s.cacheRow k (sget EntityRow.missing s.ent.rows x.row)

/-- OUTRIDER_FETCH (R215, R216): the run-ahead fetch of a record's key completes, while OPEN is 1 (R228). A fetch whose lines the outer
code cannot correct caches nothing and marks nothing. -/
def execOutriderFetch (stream : Nat) (seq : Word32) (decodes : Bool) (s : State) : Host.Outcome State Fault Refusal :=
  .next (
    if s.memUp = false ∨ s.live.entOpen = false then s
    else
      match s.window stream seq with
      | none => s
      | some w =>
        if w.fetched ∨ s.waitsJoin w = false ∨ s.inRunAhead w = false then s
        else
          let s1 := s.modWindow stream seq (fun x => { x with fetched := true })
          if decodes = false ∨ s1.ent.cache.any (fun c => c.key == w.key) = true then s1 else s1.runAhead w.key)

/-! ## Entity jobs -/

/-- The entries of an entity job, read from memory (R217). -/
def State.entityEntries (s : State) (j : Job) : List UpdateEntry :=
  let n := descEntEntries j.desc
  let a := descAddr j.desc
  if j.op = opEntEvict then (List.range n).map (fun i => evictEntry (memRead s.mem (a + 8 * i) 8))
  else (List.range n).map (fun i => updateEntry (memRead s.mem (a + 640 * i) 640))

/-- ENT_BAD_ENTRY of R219 for one entry. Of two entries of one key, the job's first bad entry is the earlier (log entry 90). -/
def State.badEntry (s : State) (es : List UpdateEntry) (u : UpdateEntry) : Bool :=
  u.reserved || u.key == 0 || decide (2 ≤ (es.filter (fun x => x.key == u.key)).length) ||
    (u.masked && (match s.ent.lookup s.live.ovfBits u.key with
      | .found _ x => x.lost || !s.rowReadable x.row
      | _ => false))

/-- ENT_BOUNDARY of R219. -/
def State.badBoundary (s : State) (j : Job) : Bool :=
  descBound j.desc && !((s.tables.route (descBStream j.desc)).any (fun r => r.emapEn))

/-- The key is new: no place holds it. -/
def State.newKey (s : State) (u : UpdateEntry) : Bool :=
  match s.ent.lookup s.live.ovfBits u.key with
  | .found _ _ => false
  | _ => true

/-- How the placement of a job's new keys fails (R219): ENT_INDEX_FULL, ENT_FULL, and whether R204 failed, with the entry;
in entry order from an entry on. -/
def placeAll (ovfBits rows : Nat) : Nat → Entities → List (UpdateEntry × Bool) → Option Nat × Option (Nat × Bool)
  | _, _, [] => (none, none)
  | i, e, (u, fresh) :: us =>
    if fresh = false then placeAll ovfBits rows (i + 1) e us
    else
      match e.place ovfBits u.place ⟨u.key, 0, false, false⟩ with
      | none =>
        let (a, b) := placeAll ovfBits rows (i + 1) e us
        if u.place = 2 then (some i, b) else (a, some (i, ovfBits != 0))
      | some e1 =>
        let (a, b) := placeAll ovfBits rows (i + 1) e1 us
        (a, if rows < e1.count then some (i, false) else b)

/-- The first refusal of R219, with the entry it names. -/
def State.entityRefusal (s : State) (j : Job) (es : List UpdateEntry) : Option (Nat × Nat × Bool) :=
  if s.live.entRows = 0 then some (stEntNoTable, 0, false)
  else
    match es.findIdx? (s.badEntry es) with
    | some i => some (stEntBadEntry, i, false)
    | none =>
      if s.badBoundary j then some (stEntBoundary, 0, false)
      else if j.op = opEntEvict then none
      else
        match placeAll s.live.ovfBits s.live.entRows 0 s.ent (es.map (fun u => (u, s.newKey u))) with
        | (some i, _) => some (stEntIndexFull, i, false)
        | (none, some (i, r204)) => some (stEntFull, i, r204)
        | (none, none) => none

/-- A refused entity job (R219). -/
def State.refuseEntity (s : State) (j : Job) (r : Nat × Nat × Bool) : State :=
  let s1 := { s with ent := { s.ent with job := none, ovfRefused := if r.2.2 then satAdd 16 s.ent.ovfRefused 1 else s.ent.ovfRefused } }
  s1.finishJob j.id r.1 0 r.2.1

/-- The new row of an update entry, merged with the old one when MASKED (R218). -/
def mergeRow (u : UpdateEntry) (old : EntityRow) : EntityRow :=
  if u.masked = false then u.row
  else
    ⟨(List.range 256).foldl (fun m i => if u.fmask.getLsbD i then sset 0xFFFF m i (sget 0xFFFF u.row.narrow i) else m) old.narrow,
      (List.range 8).map (fun k => if u.fmaskX.getLsbD k then u.row.wide.getD k none else old.wide.getD k none)⟩

/-- The row of a key as it stands. -/
def State.oldRow (s : State) (k : Word) : EntityRow :=
  match s.ent.lookup s.live.ovfBits k with
  | .found _ x => sget EntityRow.missing s.ent.rows x.row
  | _ => EntityRow.missing

/-- R221: the new rows of a job written into free row places, one entry at a time. The lowest free place is taken
(log entry 10). -/
def State.writeRows (s : State) : List UpdateEntry → State
  | [] => s
  | u :: us =>
    match lowestFree (s.live.entRows + 256) s.ent.usedRows with
    | none => s
    | some r =>
      let row := mergeRow u (s.oldRow u.key)
      let job := s.ent.job.map (fun (e : EntityJob) => { e with newRows := e.newRows ++ [r] })
      let ent := { s.ent with rows := sset EntityRow.missing s.ent.rows r row, job := job }
      (({ s with ent := ent }).entWrite (s.live.rowAddr r) (rowBytes r u.key row)).writeRows us

/-- The parity checks of the lookups of a job's keys (R225). -/
def State.checkKeys (s : State) (es : List UpdateEntry) (again : Bool) : State :=
  es.foldl (fun (t : State) u => t.checkParity u.key again) s

/-- The start of an entity job: the checks of R219, then the rows of an update (R221). -/
def State.startEntity (s : State) (j : Job) (again : Bool) : State :=
  let es := s.entityEntries j
  let s0 := (s.checkKeys es again).modJob j.id (fun x => { x with begun := true })
  match s0.entityRefusal j es with
  | some r => s0.refuseEntity j r
  | none =>
    let s1 := { s0 with ent := { s0.ent with job := some ⟨j.id, j.op == opEntEvict, es, [], 1⟩ } }
    if j.op = opEntEvict then s1 else s1.writeRows es

/-- A dispatched job of an opcode that has not begun. -/
def State.waitingJob (s : State) (id op : Nat) : Option Job :=
  match s.job id with
  | none => none
  | some j => if j.op = op ∧ j.begun = false ∧ j.written = false then some j else none

/-- ENTITY_UPDATE (R219, R221). -/
def execEntityUpdate (job : Nat) (again : Bool) (s : State) : Host.Outcome State Fault Refusal :=
  .next (
    if s.memUp = false then s
    else
      match s.waitingJob job opEntUpdate with
      | none => s
      | some j => s.startEntity j again)

/-- ENTITY_EVICT (R218, R219, R221). -/
def execEntityEvict (job : Nat) (again : Bool) (s : State) : Host.Outcome State Fault Refusal :=
  .next (
    if s.memUp = false then s
    else
      match s.waitingJob job opEntEvict with
      | none => s
      | some j => s.startEntity j again)

/-- The record has been looked up: it took a join and is past it (R224). -/
def State.lookedUp (s : State) (w : WindowRecord) : Bool :=
  w.phase == .ready && w.key != 0 && (w.void == 0 || w.void == stVoidEntity) && (s.mapOf w).isSome

/-- R224: the job's invalidate step is not held: record Q − 1 has been looked up or accepted, and no earlier record still
waits for its join. -/
def State.boundaryReached (s : State) (j : Job) : Bool :=
  if descBound j.desc then
    let st := descBStream j.desc
    let q := descBSeq j.desc
    let x := s.stream st
    let accepted := x.started && decide (dist q x.accept < 2 ^ 31)
    let last := (s.window st (q - 1)).any (fun w => s.lookedUp w)
    let early := s.ing.window.any (fun w => w.stream == st && decide (dist w.seq (q - 1) < 2 ^ 31) && s.waitsJoin w)
    (accepted || last) && !early
  else true

/-- The LOST mark of a key is over. -/
def Entities.forgetLost (e : Entities) (u : UpdateEntry) : Entities :=
  if u.masked then e else { e with lostBefore := e.lostBefore.filter (· != u.key) }

/-- The write step of R221 for one entry of an update, with its new row place. The cached copy is the new row, and the old
row place becomes free. -/
def State.applyUpdate (s : State) (u : UpdateEntry) (r : Nat) : State :=
  let b := s.live.ovfBits
  let row := sget EntityRow.missing s.ent.rows r
  let (e, old) :=
    match s.ent.lookup b u.key with
    | .found _ x => (s.ent.modEntry b u.key (fun y => { y with row := r, lost := if u.masked then y.lost else false }), some x.row)
    | _ => ((s.ent.place b u.place ⟨u.key, r, false, false⟩).getD s.ent, none)
  let s0 := (({ s with ent := e.forgetLost u }).writeKey s.ent u.key).writeFreeBit r true
  -- a key that a merge leaves LOST joins nothing (R226), so that its row is not cached
  let s1 := match e.lookup b u.key with
    | .found _ x => if x.lost then s0.dropCached u.key else s0.cacheRow u.key row
    | _ => s0.cacheRow u.key row
  match old with
  | none => s1
  | some o =>
    ({ s1 with ent := { s1.ent with rows := sset EntityRow.missing s1.ent.rows o EntityRow.missing } }).writeFreeBit o false

/-- The write step of R221 for one entry of an eviction. -/
def State.applyEvict (s : State) (u : UpdateEntry) : State :=
  let b := s.live.ovfBits
  match s.ent.lookup b u.key with
  | .found _ x =>
    let e := (s.ent.remove b u.key).forgetLost u
    let e1 := { e with rows := sset EntityRow.missing e.rows x.row EntityRow.missing }
    ((({ s with ent := e1 }).writeKey s.ent u.key).writeFreeBit x.row false).dropCached u.key
  | _ => s

/-- R225: a stranded key, LOST or not, leaves its store when the index or the overflow table has room. -/
def State.unstrand (s : State) : State :=
  s.ent.stranded.foldl (fun t x =>
    let e := { t.ent with stranded := t.ent.stranded.filter (fun y => y.key != x.key) }
    match e.place t.live.ovfBits 0 x with
    | none => t
    | some e1 => ({ t with ent := e1 }).writeKey t.ent x.key) s

/-- R406: the marks of lost buckets clear when no entity is present. -/
def State.clearLostBuckets (s : State) : State :=
  if s.ent.count = 0 then { s with ent := { s.ent with overflow := [] } } else s

/-- The steps of R221 for an eviction. -/
def State.finishEvict (s : State) (e : EntityJob) : State :=
  let gone := (e.entries.filter (fun u => !s.newKey u)).length
  let s1 := (e.entries.foldl (fun t u => t.applyEvict u) s).unstrand.clearLostBuckets
  (({ s1 with ent := { s1.ent with job := none } }).finishJob e.job stJobOk gone (e.entries.length - gone)).refreshHeld

/-- The steps of R221 for an update. -/
def State.finishUpdate (s : State) (e : EntityJob) : State :=
  let s1 := ((e.entries.zip e.newRows).foldl (fun t p => t.applyUpdate p.1 p.2) s).unstrand
  (({ s1 with ent := { s1.ent with job := none } }).finishJob e.job stJobOk e.entries.length 0).refreshHeld

/-- ENTITY_INVALIDATE (R221, R222, R224): the invalidate, write and validate steps of an entity job whose rows are written,
in one. The job entry follows the writes of index mirror and free-row map (R222). -/
def execEntityInvalidate (job : Nat) (again : Bool) (s : State) : Host.Outcome State Fault Refusal :=
  .next (
    if s.memUp = false then s
    else
      match s.ent.job, s.job job with
      | some e, some j =>
        if e.job ≠ job ∨ e.phase = 0 ∨ s.boundaryReached j = false then s
        else
          let s1 := s.checkKeys e.entries again
          if e.evict then s1.finishEvict e else s1.finishUpdate e
      | _, _ => s)

end Sys2Proof.Machine
end

