-- ==== Sys2Proof/Machine/Rings.lean ====
section
/-! DEFINITION. Rings and jobs (R305 to R337, R375 to R377): doorbells, the Rein, dispatch and refusal, releases, fences and
notifications. -/

namespace Sys2Proof.Machine

/-! ## Doorbells -/

/-- The ring takes doorbells and jobs: enabled and not restoring (R306). -/
def State.ringOn (s : State) (r : Nat) : Bool := (s.live.ring r).en && !(s.ring r).restoring

/-- The descriptor at a submission index, from memory. -/
def State.descriptor (s : State) (r : Nat) (i : Word32) : BitVec 512 :=
  let c := s.live.ring r
  BitVec.ofNat 512 (memNat s.mem (c.sAddr + 64 * (i.toNat % 2 ^ c.sSize)) 64)

/-- R311: the DGEN due at a submission index. -/
def dgenDue (i : Word32) (size : Nat) : Nat := ((i.toNat >>> size) + 1) % 4

/-- The head descriptor of a ring keeps R311. -/
def State.dgenOk (s : State) (r : Nat) : Bool :=
  let h := (s.ring r).subHead
  descGen (s.descriptor r h) == dgenDue h (s.live.ring r).sSize

/-- HALT codes. -/
abbrev haltNone : Nat := 0
abbrev haltDgen : Nat := 1
abbrev haltTail : Nat := 2

/-- A ring that resumes, or comes up, reads its head descriptor; a bad DGEN halts it (R309, R311). -/
def State.readHead (s : State) (r : Nat) : State :=
  let x := s.ring r
  if x.subHead = x.subTail ∨ s.dgenOk r = true then s else s.modRing r (fun y => { y with halt := haltDgen })

/-- R309: how a write of TAIL is handled. -/
def State.submit (s : State) (r : Nat) (tail : Word32) : State :=
  let x := s.ring r
  let d := dist x.subTail tail
  let halted := x.halt != haltNone
  if d = 0 then
    if halted then (s.modRing r (fun y => { y with halt := haltNone })).readHead r else s
  else if d + dist x.subHead x.subTail ≤ 2 ^ (s.live.ring r).sSize then
    let n := s.jobs.doorbells
    let s1 := { s with jobs := { s.jobs with doorbells := n + 1 } }
    let s2 := s1.modRing r (fun y => { y with subTail := tail, tails := y.tails ++ [(tail, n)], halt := haltNone })
    if halted then s2.readHead r else s2
  else s.modRing r (fun y => { y with halt := haltTail })

/-- SFD_RING_SDB (R306, R309). -/
def execSfdRingSdb (ring : Nat) (value : Word) (s : State) : Host.Outcome State Fault Refusal :=
  .next (if s.up && s.ringOn ring then s.submit ring (BitVec.ofNat 32 (wfield value 0 32)) else s)

/-- The entry at a completion index is visible: its slot holds the PHASE due (R308). -/
def State.entryVisible (s : State) (r : Nat) (j : Word32) : Bool :=
  let c := s.live.ring r
  (memByte s.mem (c.slotAddr j)).toNat % 2 == phaseDue j c.cSize

/-- R474, R475: the notification of an armed ring, once memory has acknowledged every entry it announces. -/
def State.announceRing (s : State) (r : Nat) : State :=
  let x := s.ring r
  if x.armed ∧ x.announce ∧ x.unacked = [] ∧ wbit s.live.notify0 r = true then
    (s.modRing r (fun y => { y with armed := false, announce := false })).send (.notify r)
  else s

/-- R310: the completion head after a write of HEAD. -/
def State.takeHead (s : State) (r : Nat) (head : Word32) : State :=
  let x := s.ring r
  let d := dist x.cmpHead head
  if d = 0 ∨ 2 ^ 31 ≤ d then s
  else
    let live := dist x.cmpHead (s.liveIndex r)
    s.modRing r (fun y => { y with cmpHead := y.cmpHead + BitVec.ofNat 32 (min d live) })

/-- SFD_RING_CDB (R306, R310, R319, R474). -/
def execSfdRingCdb (ring : Nat) (value : Word) (s : State) : Host.Outcome State Fault Refusal :=
  .next (
    if s.up && s.ringOn ring then
      let head := BitVec.ofNat 32 (wfield value 0 32)
      let s1 := (s.takeHead ring head).modRing ring (fun y =>
        { y with armed := true, announce := s.entryVisible ring head })
      (s1.freeContexts).announceRing ring
    else s)

/-- MEMORY_WRITE_ACKNOWLEDGED (R475): memory has acknowledged the oldest of the ring's entry writes. With the last one the notification that
waited for it is sent. A vector that is not enabled announces nothing. -/
def execMemoryWriteAcknowledged (ring : Nat) (s : State) : Host.Outcome State Fault Refusal :=
  .next (
    if s.up then
      let s1 := (s.modRing ring (fun y => { y with unacked := y.unacked.tail })).announceRing ring
      if (s1.ring ring).unacked = [] then s1.modRing ring (fun y => { y with announce := false }) else s1
    else s)

/-! ## Checks of R315 -/

/-- Stride W of a scoring job (R144). -/
def strideOf (op : Nat) (m : ModelDef) : Nat :=
  if m.vote then m.classes
  else if op = opTremolo then 4 * m.lanes
  else m.lanes + ones 16 m.cert.toNat

/-- Tiles of a job that would be dispatched: the first and how many (R145). -/
def jobTiles (d : BitVec 512) (stride : Nat) : Nat × Nat :=
  if descOp d = opDrain then (descDrainTile d, descDrainCount d)
  else (descTile d, (256 * descTile d + descCount d * stride - 1) / 256 + 1 - descTile d)

/-- A tile of the range is owned (R151).
Nothing else but R220, R286, R335 and the boundaries of a Mount orders jobs across rings (R338). -/
def State.tilesBusy (s : State) (first n : Nat) : Bool :=
  s.tally.tiles.any (fun t => decide (first ≤ t.1) && decide (t.1 < first + n) && t.2.owner.isSome)

def isScoring (op : Nat) : Bool := op == opScore || op == opTremolo

/-- Completion slots a job takes (R318). -/
def descSlots (d : BitVec 512) : Nat := if isScoring (descOp d) then descCount d + 1 else 1

/-- R315, checks 2 to 5 and 7 of a scoring job.
K of a Tremolo job is 1 to 64 (R251). -/
def State.scoringCheck (s : State) (d : BitVec 512) : Option Nat :=
  match s.tables.model (descModel d) with
  | none => some stNoModel
  | some m =>
    if ((s.tables.route (descStream d)).any (fun r => wbit r.models (descModel d))) = false then some stNoRoute
    else if descOp d = opTremolo ∧ (descK d = 0 ∨ 64 < descK d) then some stTremoloK
    else if 262144 < 256 * descTile d + descCount d * strideOf (descOp d) m then some stTileRange
    else none

/-- R315, check 7: a record of the job lies before the stream's release cursor. A stream that has not started has
released nothing (R173). -/
def State.jobReleased (s : State) (d : BitVec 512) : Bool :=
  let x := s.stream (descStream d)
  let b := dist (descFirst d) x.release
  x.started && decide (0 < b) && decide (b < 2 ^ 31 + descCount d - 1)

/-- R315: the first check that fails, in order, with its status. Check 9 decides only on a strict ring (R152). -/
def State.jobCheck (s : State) (r : Nat) (d : BitVec 512) : Option Nat :=
  let op := descOp d
  if descOk d = false then some stBadDesc
  else
    let early :=
      if isScoring op then s.scoringCheck d
      else if op = opDrain ∧ 1024 < descDrainTile d + descDrainCount d then some stTileRange
      else none
    match early with
    | some st => some st
    | none =>
      if 2 ^ (s.live.ring r).cSize < descSlots d then some stCmpTooSmall
      else if isScoring op && s.jobReleased d then some stJobReleased
      else if op = opRelease ∧ (s.stream (descRelStream d)).releaseCheck (descCursor d) = .refused then some stRelRange
      else
        let stride := ((s.tables.model (descModel d)).map (strideOf op)).getD 0
        let (t, n) := jobTiles d stride
        if (isScoring op || op == opDrain) && (s.live.ring r).strict && s.tilesBusy t n then some stTileBusy else none

/-! ## Holds of R317 -/

abbrev holdTile : Nat := 1
abbrev holdSlots : Nat := 2
abbrev holdLedger : Nat := 3
abbrev holdEntity : Nat := 4
abbrev holdLoad : Nat := 5
abbrev holdContexts : Nat := 6
abbrev holdOrder : Nat := 7
abbrev holdReplay : Nat := 8
abbrev holdThermal : Nat := 9
abbrev holdFair : Nat := 10

/-- Job contexts of a ring that have not written their job entry. -/
def State.openJobs (s : State) (r : Nat) : List Job := s.jobs.jobs.filter (fun j => j.ring == r && !j.written)

/-- Opcodes that the replay gate lets through (R457). -/
def gateOpen (op : Nat) : Bool := op == opLoad || op == opMount || op == opEntUpdate || op == opEntEvict

/-- R457: the replay gate holds the job. -/
def State.gateHolds (s : State) (r : Nat) (d : BitVec 512) : Bool :=
  let earlier := if descGlobal d then s.jobs.jobs.filter (fun j => !j.written) else s.openJobs r
  s.pwr.replayDue && !(gateOpen (descOp d) || (descOp d == opFence && earlier.all (fun j => gateOpen j.op)))

/-- Free slots of a completion ring. -/
def State.freeSlots (s : State) (r : Nat) : Nat :=
  2 ^ (s.live.ring r).cSize - dist (s.ring r).cmpHead (s.ring r).cmpTail

/-- R371: cost of a scoring job per record, by the charging gait, and in all.
A Tremolo job costs K times as much (R266). -/
def State.costPer (s : State) (d : BitVec 512) : Nat :=
  let c := ((s.tables.model (descModel d)).map (fun m => m.cost.getD s.gait.charging 0)).getD 0
  c * (if descOp d = opTremolo then descK d else 1)
def State.costOf (s : State) (d : BitVec 512) : Nat := s.costPer d * descCount d

/-- R372: the ledger covers a cost. -/
def State.covered (s : State) (cost : Nat) : Bool :=
  !s.live.gate || decide (((min cost (1000 * s.live.cap) : Nat) : Int) ≤ s.credit)

/-- The head of a ring that waits at dispatch. -/
def State.headDesc (s : State) (r : Nat) : Option (BitVec 512) :=
  let x := s.ring r
  if s.ringOn r = false ∨ x.halt ≠ haltNone ∨ x.subHead = x.subTail ∨ s.dgenOk r = false then none
  else some (s.descriptor r x.subHead)

/-- HOLD causes 0b0111 and 0b1000, which hold a job before its checks (R315). -/
def State.gateCauses (s : State) (r : Nat) (d : BitVec 512) : List Nat :=
  (if (s.openJobs r).any (fun j => j.op == opFence || j.op == opMount) then [holdOrder] else []) ++
    (if s.gateHolds r d then [holdReplay] else [])

/-- The other HOLD causes of R317 but FAIR, in ascending order, for a job that passes R315. -/
def State.otherCauses (s : State) (r : Nat) (d : BitVec 512) : List Nat :=
  let op := descOp d
  let stride := ((s.tables.model (descModel d)).map (strideOf op)).getD 0
  let (t, n) := jobTiles d stride
  let loading := s.img.load.isSome || s.jobs.jobs.any (fun j => j.op == opLoad && !j.written)
  let patching := s.jobs.jobs.any (fun j => j.op == opPatch && !j.written)
  (if (isScoring op || op == opDrain) && s.tilesBusy t n then [holdTile] else []) ++
    (if s.freeSlots r < descSlots d then [holdSlots] else []) ++
    (if isScoring op && !s.covered (s.costOf d) then [holdLedger] else []) ++
    (if (op == opEntUpdate || op == opEntEvict) && s.ent.job.isSome then [holdEntity] else []) ++
    (if (op == opLoad && (loading || patching)) || (op == opPatch && loading) then [holdLoad] else []) ++
    (if 256 ≤ s.jobs.jobs.length then [holdContexts] else []) ++
    (if s.suspended then [holdThermal] else [])

/-- Where the head job of a ring stands. -/
inductive HeadState where
  | none
  | held (causes : List Nat)
  | refused (status : Nat)
  | ready
deriving DecidableEq, Repr

/-- R315, R317 for the head job of a ring, FAIR left out. -/
def State.headState (s : State) (r : Nat) : HeadState :=
  match s.headDesc r with
  | Option.none => .none
  | some d =>
    match s.gateCauses r d with
    | c :: cs => .held (c :: cs)
    | [] =>
      match s.jobCheck r d with
      | some st => if s.freeSlots r = 0 then .held [holdSlots] else .refused st
      | Option.none =>
        match s.otherCauses r d with
        | c :: cs => .held (c :: cs)
        | [] => .ready

/-- R377: the lowest PRIO that a scoring job held by the ledger alone leaves free to dispatch. -/
def State.fairFloor (s : State) : Nat :=
  if s.live.fair then
    (List.range 64).foldl (fun p r => if s.headState r = .held [holdLedger] then max p (s.live.ring r).prio else p) 0
  else 0

/-- The head job of a ring with every cause of R317. -/
def State.headStateFair (s : State) (r : Nat) : HeadState :=
  let scoring := (s.headDesc r).any (fun d => isScoring (descOp d))
  let fair := scoring && decide ((s.live.ring r).prio < s.fairFloor)
  match s.headState r with
  | .ready => if fair then .held [holdFair] else .ready
  | .held cs => if fair && !(cs.contains holdOrder || cs.contains holdReplay) then .held (cs ++ [holdFair]) else .held cs
  | x => x

/-! ## Dispatch and refusal -/

/-- When the head descriptor of a ring first came within SUB_TAIL, as a doorbell number (R375). -/
def Ring.age (x : Ring) : Nat :=
  ((x.tails.find? (fun t => decide (0 < dist x.subHead t.1) && decide (dist x.subHead t.1 < 2 ^ 31))).map Prod.snd).getD 0

/-- R375: the ring whose job the Rein chooses. -/
def State.reinChoice (s : State) : Option Nat :=
  (List.range 64).foldl (fun (best : Option Nat) r =>
    if s.headStateFair r = .ready then
      match best with
      | none => some r
      | some b =>
        let p := (s.live.ring r).prio
        let q := (s.live.ring b).prio
        if q < p ∨ (p = q ∧ (s.ring r).age < (s.ring b).age) then some r else some b
    else best) none

/-- The groups that score a model, each with its range of keys (R23, R322). -/
def State.groupsOf (s : State) (m : Nat) : List (Nat × Word × Word) :=
  match s.tables.stretches.filter (fun x => x.model == m) with
  | [] => (s.liveGroups.filter (fun g => g.models.contains m)).map (fun g => (g.base, 0, BitVec.allOnes 64))
  | xs => xs.map (fun x => (x.group, x.lo, x.hi))

/-- The context of a dispatched job (R318, R322, R371). -/
def State.newJob (s : State) (r : Nat) (d : BitVec 512) : Job :=
  let op := descOp d
  let sc := isScoring op
  let model := if sc then s.tables.model (descModel d) else none
  let stride := (model.map (strideOf op)).getD 0
  let owns := sc || op == opDrain
  let (t, n) := if owns then jobTiles d stride else (0, 0)
  { id := s.jobs.nextId, ring := r, op := op, tag := descTag d, desc := d, slot := (s.ring r).cmpTail
    n := if sc then descCount d else 0
    model := model
    groups := if sc then s.groupsOf (descModel d) else []
    tile := t, tiles := n, stride := stride, add := sc && descAdd d
    k := if op = opTremolo then descK d else 1
    stream := if sc then descStream d else 0
    first := if sc then descFirst d else 0
    next := 0, committed := 0, voided := 0
    costRec := if sc then s.costPer d else 0
    costLeft := if sc then s.costOf d else 0
    voidGroups := [], routeGone := none, special := [], begun := false, acked := 0, owns := owns, owed := []
    written := false, ended := false
    status := 0, done := 0, detail := 0 }

/-- R146: the words and status of tiles cleared. -/
def State.clearTiles (s : State) (first n : Nat) : State :=
  let keep (w : Nat) : Bool := !(decide (256 * first ≤ w) && decide (w < 256 * (first + n)))
  let words := s.tally.words.filter (fun w => keep w.1)
  (List.range n).foldl (fun (t : State) i => t.modTile (first + i) Tile.cleared)
    { s with tally := { s.tally with words := words, told := s.tally.told.filter keep } }

/-- R145, R146, R150: a dispatched job acquires its tiles, cleared in CLEAR mode. -/
def State.acquireTiles (s : State) (j : Job) : State :=
  if j.owns then
    let s1 := if j.scoring && !j.add then s.clearTiles j.tile j.tiles else s
    j.tileList.foldl (fun (t : State) n => t.modTile n (fun x =>
      { x with owner := some j.id, lastAdd := if j.scoring && j.add then true else x.lastAdd })) s1
  else s

/-- The submission head moves on. -/
def Ring.taken (x : Ring) : Ring :=
  let h := x.subHead + 1
  { x with subHead := h, tails := x.tails.filter (fun t => decide (0 < dist h t.1) && decide (dist h t.1 < 2 ^ 31)) }

/-- A dispatched job that still has to write its job entry. -/
def State.openJob (s : State) (id op : Nat) : Option Job :=
  match s.job id with
  | none => none
  | some j => if j.op = op ∧ j.written = false then some j else none

/-- R327, R332: a RELEASE job requests its cursor and completes. -/
def State.completeRelease (s : State) (job : Nat) : State :=
  match s.openJob job opRelease with
  | none => s
  | some j =>
    let st := descRelStream j.desc
    let c := descCursor j.desc
    let s1 := if (s.stream st).releaseCheck c = .taken then s.requestRelease st c else s
    s1.finishJob job stJobOk (s1.stream st).release.toNat c.toNat

/-- R318: the job at the head of a ring is dispatched. A RELEASE job completes with it (R327). -/
def State.dispatch (s : State) (r : Nat) (d : BitVec 512) : State :=
  let j := s.newJob r d
  let s1 := s.modRing r (fun x => { x.taken with cmpTail := x.cmpTail + BitVec.ofNat 32 j.slots })
  let s2 := { s1 with jobs := { s1.jobs with jobs := s1.jobs.jobs ++ [j], nextId := j.id + 1 } }
  let s3 := s2.acquireTiles j
  let s4 := if j.op = opEntUpdate ∨ j.op = opEntEvict then
      { s3 with ent := { s3.ent with job := some ⟨j.id, j.op == opEntEvict, [], [], 0⟩ } }
    else s3
  let s5 := s4.reserve j.costLeft
  if j.op = opRelease then s5.completeRelease j.id else s5

/-- Rings whose head descriptor breaks R311 halt. -/
def State.haltBad (s : State) : State :=
  (List.range 64).foldl (fun t r => if t.ringOn r && (t.ring r).halt == haltNone then t.readHead r else t) s

/-- JOB_DISPATCH (R311, R315, R318, R375): the Rein reads the head of each ring and dispatches the job it chooses. -/
def execJobDispatch (s : State) : Host.Outcome State Fault Refusal :=
  .next (
    if s.memUp then
      let s1 := s.haltBad
      match s1.reinChoice with
      | none => s1
      | some r =>
        match s1.headDesc r with
        | none => s1
        | some d => s1.dispatch r d
    else s)

/-- DONE and DETAIL of a refused job (R326). -/
def State.refusalDetail (s : State) (d : BitVec 512) : Nat × Nat :=
  if descOp d = opRelease then ((s.stream (descRelStream d)).release.toNat, (descCursor d).toNat) else (0, 0)

/-- JOB_REFUSAL (R315, R316): the refused job at the head of a ring writes its job entry, and the next job comes up. -/
def execJobRefusal (ring : Nat) (s : State) : Host.Outcome State Fault Refusal :=
  .next (
    if s.up then
      let s1 := if s.ringOn ring && (s.ring ring).halt == haltNone then s.readHead ring else s
      match s1.headDesc ring, s1.headState ring with
      | some d, .refused st =>
        let (done, detail) := s1.refusalDetail d
        let p := (s1.ring ring).cmpTail
        let s2 := s1.modRing ring (fun x => { x.taken with cmpTail := x.cmpTail + 1 })
        s2.writeEntry ring p (jobBody st (descOp d) (descTag d) done detail)
      | _, _ => s1
    else s)

/-! ## Release and fence -/

/-- SFD_RELEASE (R332). -/
def execSfdRelease (value : Word) (s : State) : Host.Outcome State Fault Refusal :=
  .next (
    let st := wfield value 32 12
    let c := BitVec.ofNat 32 (wfield value 0 32)
    if s.up && (s.stream st).releaseCheck c == .taken then s.requestRelease st c else s)

/-- RELEASE (R327, R332): a RELEASE job that is open requests its cursor and completes. Its own dispatch has done so (log entry 80). -/
def execRelease (job : Nat) (s : State) : Host.Outcome State Fault Refusal :=
  .next (if s.up then s.completeRelease job else s)

/-- FENCE (R335): a dispatched fence begins to wait. -/
def execFence (job : Nat) (s : State) : Host.Outcome State Fault Refusal :=
  .next (
    if s.up then
      match s.openJob job opFence with
      | none => s
      | some j => s.modJob j.id (fun x => { x with begun := true })
    else s)

/-- R335: every job that the fence waits for has written its job entry. -/
def State.fenceClear (s : State) (j : Job) : Bool :=
  s.jobs.jobs.all (fun x => decide (j.id ≤ x.id) || x.written || (x.ring != j.ring && !descGlobal j.desc))

/-- FENCE_COMPLETE (R335). -/
def execFenceComplete (job : Nat) (s : State) : Host.Outcome State Fault Refusal :=
  .next (
    if s.up then
      match s.openJob job opFence with
      | none => s
      | some j => if j.begun && s.fenceClear j then s.finishJob job stJobOk 0 0 else s
    else s)

end Sys2Proof.Machine
end

