-- ==== Sys2Proof/Machine/Score.lean ====
section
/-! DEFINITION. Scoring jobs: the offer of records to their groups (R320 to R324), dispatch into a group (R78, R253, R298,
R334, R378), voided records (R153, R154), commits (R327) and the plane switches of a group in Double. -/

namespace Sys2Proof.Machine

/-! ## Job places -/

/-- A job place of a record that has not been dispatched. -/
def JobPlace.fresh (job idx : Nat) : JobPlace where
  job := job
  idx := idx
  gen := 0
  grp := 0
  plane := none
  dispatched := false
  first := none
  markA := false
  markB := false
  oweA := []
  oweB := []
  replay := false
  paid := false
  settled := false
  commit := false
  status := 0
  multi := false
  overflow := false
  miss := false
  undo := []
  undoSat := []

/-- The record of a job takes a job place in its head (R330). -/
def State.ensurePlace (s : State) (j : Job) (i : Nat) : State :=
  s.modHead j.stream (j.seqOf i) (fun h =>
    if (h.placeOf j.id).isSome then h else { h with places := h.places ++ [JobPlace.fresh j.id i] })

/-- The head and the job place of a record of a job. -/
def State.placeAt (s : State) (j : Job) (i : Nat) : Option (Head × JobPlace) :=
  match s.head j.stream (j.seqOf i) with
  | none => none
  | some h => (h.placeOf j.id).map (fun p => (h, p))

/-- A job place that a scoring attempt still has to settle. -/
def JobPlace.open (p : JobPlace) : Bool := !p.settled || p.replay

/-- The result entry of a settled place (R325). -/
def Job.resultOf (j : Job) (p : JobPlace) : Nat :=
  resultBody p.multi p.overflow p.miss p.status j.stream j.tag (j.seqOf p.idx).toNat p.idx p.gen

/-- The entry of a committed record index, once the replay has scored it or left it (R321, R342). -/
def State.heldEntry (s : State) (j : Job) (i : Nat) : Option Nat :=
  if sget 0 j.special i ≠ 0 then
    some (resultBody false false false (sget 0 j.special i) j.stream j.tag (j.seqOf i).toNat i 0)
  else match s.placeAt j i with
    | some (_, p) => if p.commit && !p.replay then some (j.resultOf p) else none
    | none => none

/-- No committed record of a lower index of the job waits for its replay. -/
def State.rewritten (s : State) (j : Job) (i : Nat) : Bool :=
  s.acc.heads.all (fun h => (h.placeOf j.id).all (fun p => !(p.replay && p.commit && decide (p.idx < i))))

/-- R165, R339: a replay writes the entries of committed records again in the order of their indices, as far as their status is
known: at most n entries from index i. -/
def State.rewriteFrom (s : State) (j : Job) (i : Nat) : Nat → State
  | 0 => s
  | n + 1 =>
    if j.committed ≤ i ∨ j.n ≤ i then s
    else match s.heldEntry j i with
      | none => s
      | some b => (s.writeEntry j.ring (j.slot + BitVec.ofNat 32 i) b).rewriteFrom j (i + 1) n

/-- A record has its status in a job. A committed record writes its entry again (R165). -/
def State.settle (s : State) (j : Job) (i status : Nat) (multi overs miss : Bool) : State :=
  let s1 := s.modPlace j.stream (j.seqOf i) j.id (fun p =>
    { p with settled := true, replay := false, status := status, multi := multi, overflow := overs, miss := miss })
  match s1.placeAt j i with
  | some (_, p) => if p.commit && s1.rewritten j i then s1.rewriteFrom j i j.n else s1
  | none => s1

/-! ## Voided records (R153, R154) -/

/-- The tile of a record's first word (R153). -/
def Job.voidTile (j : Job) (i : Nat) : Nat := (256 * j.tile + i * j.stride) / 256

/-- R153, R165: VOIDS counts the record, unless its mark says that it has. -/
def State.countVoided (s : State) (j : Job) (i : Nat) (mark : Bool) (owe : List Nat) : State :=
  let t := j.voidTile i
  if !mark || owe.contains t then s.modTile t (fun x => { x with voids := satAdd 16 x.voids 1 }) else s

/-- R154: the plane-A write of a record is undone, and SAT stands only for other words. No other record touches the words between the
two writes of a record (R148), so the words before the write are what its exact subtraction leaves. -/
def State.undoWrite (s : State) (j : Job) (i : Nat) (p : JobPlace) : State :=
  let put (m : Sparse TallyWord) (x : Nat × Word) : Sparse TallyWord := sset ⟨0, 0⟩ m x.1 ⟨x.2, 0⟩
  let told := s.tally.told.filter (fun w => !p.undo.any (fun x => x.1 == w))
  let s1 := { s with tally := { s.tally with words := p.undo.foldl put s.tally.words, told := told } }
  let s2 := p.undoSat.foldl (fun (t : State) w =>
    t.modTile (w / 256) (fun x => { x with saturated := x.saturated.filter (· != w % 256) })) s1
  s2.modPlace j.stream (j.seqOf i) j.id (fun q => { q with undo := [], undoSat := [] })

/-- No group holds the record of a job any more. -/
def Group.forget (g : Group) (j i : Nat) : Group :=
  let mine (x : Nat × Nat) : Bool := x.1 == j && x.2 == i
  { g.leaveRun j i with
    ready := g.ready.filter (fun x => !mine x)
    marked := g.marked.filter (fun x => !mine x.2)
    tremolo := g.tremolo.filter (fun x => !mine (x.1, x.2.1)) }

/-- The engine drops every attempt of a record in a job. -/
def State.forget (s : State) (j i : Nat) : State :=
  let as := s.grp.attempts.filter (fun a => !(a.job == j && a.idx == i))
  let gs := s.grp.gathered.filter (fun x => !(x.job == j && x.idx == i))
  { s with grp := { s.grp with groups := s.grp.groups.map (fun g => g.forget j i), attempts := as, gathered := gs } }

/-- R373: RESERVED falls by the cost of one record of a job. -/
def State.pay (s : State) (j : Job) : State :=
  (s.modJob j.id (fun x => { x with costLeft := x.costLeft - x.costRec })).unreserve j.costRec

/-- R153, R154, R162: a record is voided in place in one job. -/
def State.voidPlace (s : State) (j : Job) (i status : Nat) (multi overs : Bool) : State :=
  let s1 := s.ensurePlace j i
  match s1.placeAt j i with
  | none => s1
  | some (_, p) =>
    let s2 := (s1.undoWrite j i p).countVoided j i p.markB p.oweB
    let s3 := s2.modPlace j.stream (j.seqOf i) j.id (fun q =>
      { q with markA := true, markB := true, oweA := [], oweB := [], paid := true })
    let s4 := (s3.settle j i status multi overs false).forget j.id i
    if p.paid then s4 else s4.pay j

/-! ## Offers (R320 to R324) -/

/-- R321: how many jobs dispatched before this one name the record. -/
def State.namesBefore (s : State) (j : Job) (h : Head) : Nat :=
  (h.places.filter (fun p => decide (p.job < j.id))).length +
    (s.jobs.jobs.filter (fun x => decide (x.id < j.id) && (h.placeOf x.id).isNone && (match x.indexOf h.stream h.seq with
      | none => false
      | some i => sget 0 x.special i == 0))).length

/-- R23: the BASE of the group that scores a key for the job. -/
def Job.groupFor (j : Job) (key : Word) : Option Nat :=
  (j.groups.find? (fun g => decide (g.2.1.toNat ≤ key.toNat) && decide (key.toNat ≤ g.2.2.toNat))).map (fun g => g.1)

/-- Number of the model that a job scores. -/
def Job.modelNo (j : Job) : Nat := (j.model.map (·.model)).getD 0

/-- The void status that meets a record of a job before its group takes it, or the group (R179, R322, R323). -/
def State.destination (s : State) (j : Job) (h : Head) : Nat ⊕ Group :=
  if h.void ≠ 0 then .inl h.void
  else
    match j.groupFor h.key with
    | none => .inl stVoidModel
    | some b =>
      if j.voidGroups.contains b then .inl stVoidModel
      else
        match s.group b with
        | none => .inl stVoidModel
        | some g => if g.suspended.contains j.modelNo then .inl stVoidSuspended else .inr g

/-- A record of a job goes to its group, or is voided. -/
def State.send? (s : State) (j : Job) (i : Nat) (h : Head) : State :=
  match s.destination j h with
  | .inl st => s.voidPlace j i st false false
  | .inr g => (s.ensurePlace j i).modGroup g.gid (fun x => { x with ready := x.ready ++ [(j.id, i)] })

/-- R320: the job offers its next record index. -/
def State.offer (s : State) (id : Nat) : State :=
  match s.job id with
  | none => s
  | some j =>
    let i := j.next
    let on (t : State) : State := t.modJob id (fun x => { x with next := i + 1 })
    let special (st : Nat) : State := (on (s.modJob id (fun x => { x with special := sput x.special i st }))).pay j
    if s.pwr.replayDue ∨ j.n ≤ i then s
    else if i < s.releasedOf j then on s
    else if j.routed ≤ i then special stVoidRoute
    else
      match s.head j.stream (j.seqOf i) with
      | none => s
      | some h => if 8 ≤ s.namesBefore j h then special stVoidPlaces else on (s.send? j i h)

/-- A scoring job's step: its next record is offered to its group. -/
def State.scoreStep (s : State) (job op : Nat) : State :=
  match s.openJob job op with
  | none => s
  | some _ => (s.modJob job (fun x => { x with begun := true })).offer job

/-- SCORE (R320). -/
def execScore (job : Nat) (s : State) : Host.Outcome State Fault Refusal :=
  .next (if s.up then s.scoreStep job opScore else s)

/-- SCORE_TREMOLO (R252). -/
def execScoreTremolo (job : Nat) (s : State) : Host.Outcome State Fault Refusal :=
  .next (if s.up then s.scoreStep job opTremolo else s)

/-! ## The choice of a group (R253, R298, R378, R391, R394) -/

/-- The place of a job's record, when it has still to be scored. -/
def State.openPlace (s : State) (id i : Nat) : Option (Job × Head × JobPlace) :=
  match s.job id with
  | none => none
  | some j =>
    match s.placeAt j i with
    | none => none
    | some (h, p) => if p.open then some (j, h, p) else none

/-- Records of the job that a group has not yet taken (R337). -/
def Job.pendingIn (j : Job) (g : Group) : Bool :=
  j.scoring && !j.written && (j.groups.any (fun x => x.1 == g.base)) && (decide (j.next < j.n) || g.ready.any (fun x => x.1 == j.id))

/-- The entries of a patch job name a position of the group. -/
def State.patchNames (s : State) (p : Job) (g : Group) : Bool :=
  (List.range (descPatchEntries p.desc)).any (fun i =>
    let e := patchEntry (memRead s.mem (descAddr p.desc + 32 * i) 32)
    decide (g.base ≤ e.array) && decide (e.array < g.base + g.size))

/-- R117, R337: a patch keeps records of a job out of a group until its boundary: those of later jobs of its ring from its dispatch
on, and others once the earlier jobs of its ring have had theirs taken. -/
def State.patchHolds (s : State) (g : Group) (j : Job) : Bool :=
  s.jobs.jobs.any (fun p => p.op == opPatch && !p.written && !p.begun && p.ring == j.ring && decide (p.id < j.id) &&
    s.patchNames p g) ||
  s.jobs.patches.any (fun p => p.groups.contains g.gid && (match s.job p.job with
    | none => false
    | some pj =>
      (j.ring == pj.ring && decide (pj.id < j.id)) ||
        !(s.jobs.jobs.any (fun x => x.ring == pj.ring && decide (x.id < pj.id) && x.pendingIn g))))

/-- The records that a group has still to take: those that are ready, and what is left of a run in plane A. -/
def Group.waiting (g : Group) : List (Nat × Nat) := g.ready ++ (if g.inB then [] else g.run.drop g.runPos)

/-- R320: no lower index of the job waits for its first dispatch. -/
def State.lowerDone (s : State) (id i : Nat) : Bool :=
  !s.liveGroups.any (fun g => g.waiting.any (fun x => x.1 == id && decide (x.2 < i) &&
    (s.openPlace id x.2).any (fun o => !o.2.2.dispatched)))

/-- A record may have its first dispatch, or has had it. -/
def State.inTurn (s : State) (x : Nat × Nat) : Bool :=
  (s.openPlace x.1 x.2).all (fun o => o.2.2.dispatched || s.lowerDone x.1 x.2)

/-- A ready record that no patch holds back. -/
def State.unheld (s : State) (g : Group) (x : Nat × Nat) : Bool :=
  (s.openPlace x.1 x.2).any (fun o => !s.patchHolds g o.1)

/-- A ready record that may enter the group. -/
def State.mayEnter (s : State) (g : Group) (x : Nat × Nat) : Bool := s.unheld g x && s.inTurn x

/-- R378: the first of two ready records. During the replay, jobs come in dispatch order (R342). -/
def State.before (s : State) (x y : Nat × Nat) : Bool :=
  let prio (id : Nat) : Nat := if s.pwr.replayDue then 0 else ((s.job id).map (fun j => (s.live.ring j.ring).prio)).getD 0
  if prio x.1 ≠ prio y.1 then decide (prio y.1 < prio x.1)
  else if x.1 ≠ y.1 then decide (x.1 < y.1)
  else decide (x.2 < y.2)

/-- R378: the record that the group takes next. -/
def State.firstReady (s : State) (g : Group) : Option (Nat × Nat) :=
  (g.ready.filter (s.mayEnter g)).foldl (fun best x => match best with
    | none => some x
    | some y => if s.before x y then some x else some y) none

/-- What a group dispatches next. -/
inductive Pick where
  | none
  /-- The next pass of the Tremolo record in the group. -/
  | pass (job idx pass : Nat)
  /-- A marked record. -/
  | marked (job idx : Nat)
  /-- The next record of the run. -/
  | run (job idx : Nat)
  /-- A record that is ready. -/
  | fresh (job idx : Nat)
deriving DecidableEq, Repr

/-- R381, R391, R394: a group takes records again. -/
def State.takes (s : State) (g : Group) : Bool := !g.paused && !s.suspended

/-- The next record of a group with one half. -/
def State.pickSingle (s : State) (g : Group) : Pick :=
  match g.tremolo with
  | some (j, i, p) => .pass j i p
  | none =>
    if s.takes g = false then .none
    else
      match g.marked with
      | m :: _ => .marked m.2.1 m.2.2
      | [] =>
        if g.switchDue then .none
        else match s.firstReady g with
          | some x => .fresh x.1 x.2
          | none => .none

/-- The next record of a group in Double. A record that has begun goes on through both planes and every pass (R253, R381, R391). -/
def State.pickDouble (s : State) (g : Group) : Pick :=
  match g.run with
  | [] =>
    if s.takes g = false then .none
    else
      match g.marked with
      | m :: _ => .marked m.2.1 m.2.2
      | [] =>
        if g.switchDue then .none
        else match s.firstReady g with
          | some x => .fresh x.1 x.2
          | none => .none
  | run =>
    match run[g.runPos]? with
    | none => .none
    | some x => if g.inB || g.tremolo.isSome || (s.takes g && s.inTurn x) then .run x.1 x.2 else .none

/-- R253: a Tremolo record of another group that shares arrays with this one has passes left. -/
def State.tremoloElsewhere (s : State) (g : Group) : Bool :=
  s.grp.groups.any (fun x => x.gid != g.gid && x.tremolo.isSome && decide (x.base < g.base + g.size) &&
    decide (g.base < x.base + x.size))

def State.pick (s : State) (g : Group) : Pick :=
  if s.tremoloElsewhere g then .none else if g.dbl then s.pickDouble g else s.pickSingle g

/-! ## Dispatch into a group (R78) -/

/-- R76: chain depth of a model in a plane of a group. -/
def State.chainDepth (s : State) (g : Group) (plane : Bool) (m : Nat) : Nat :=
  (s.positions g.base g.size).foldl (fun d pos =>
    (s.modelSlots (s.physOf pos) plane m).foldl (fun e x => max e (descLink x.2 + 1)) d) 1

/-- The attempt of one pass: its slot words latched, from the features that the arrays hold.
Every link of its chain uses them, in the plane of the comparison (R73, R83). -/
def State.newAttempt (s : State) (g : Group) (j : Job) (h : Head) (i pass : Nat) (plane : Bool) (m : ModelDef) : Attempt :=
  let ps := s.comparing g
  { id := s.grp.nextAttempt, first := ((h.placeOf j.id).bind (·.first)).getD s.grp.nextAttempt
    grp := g.gid, base := g.base, size := g.size, dbl := g.dbl, refold := g.refold
    job := j.id, idx := i, stream := h.stream, seq := h.seq, pass := pass, plane := plane
    depth := s.chainDepth g plane m.model
    words := ps.flatMap (fun pos => s.wordsAt (s.sample m (s.physOf pos)) pos plane)
    descs := ps.flatMap (fun pos => (s.modelSlots (s.physOf pos) plane m.model).map (fun x => (pos * 256 + x.1, x.2)))
    tokens := [], handed := [], contribs := [], partials := [], nodes := [], cert := [], tuned := false
    multi := false, overflow := false, miss := false, missVoid := false }

/-- The first check of the comparison that fails (R86, R386, R425). -/
def State.attemptFault (s : State) (g : Group) (a : Attempt) (m : Nat) : Option Detected :=
  match (s.comparing g).findSome? (s.compareFault g a.plane) with
  | some d => some d
  | none =>
    if g.tandem then
      (tandemWordFault g a.words).map (fun x =>
        { Detected.nowhere with
          check := evTandem, grp := g.gid, pos := x.1, phys := s.physOf x.1, plane := a.plane
          bank := x.2 / 16, slot := x.2, model := m, detail := 0 })
    else none

/-- R119: a first dispatch stores the generation, and a first comparison its plane. -/
def JobPlace.take (p : JobPlace) (g : Group) (attempt : Nat) (plane : Bool) : JobPlace :=
  { p with
    first := p.first.or (some attempt)
    gen := if p.dispatched then p.gen else g.gen
    dispatched := true
    grp := g.gid
    plane := if p.plane.isSome then p.plane else some plane }

/-- R17, R78: the features of a pass are loaded into the local feature buffer of every array that compares the record, and the step's
upsets strike them there. -/
def State.loadBuffers (s : State) (g : Group) (x : FeaturePlace) (ups : List Upset) : State :=
  let arr := (s.comparing g).foldl (fun (a : Arrays) pos => a.load (s.physOf pos) x) s.arr
  ({ s with arr := arr }).disturbAll (ups.filter inBuffer)

/-- One pass of a record enters the group: every cell compares, and the checks are made (R78, R85). -/
def State.enter (s : State) (g : Group) (j : Job) (h : Head) (i pass : Nat) (plane : Bool) (m : ModelDef) (ups : List Upset) :
    State :=
  let s0 := s.loadBuffers g (h.features m (j.op == opTremolo) pass) ups
  let a := s0.newAttempt g j h i pass plane m
  let s1 := s0.modPlace h.stream h.seq j.id (fun p => p.take g a.id plane)
  let s2 := { s1 with grp := { s1.grp with nextAttempt := a.id + 1, attempts := s1.grp.attempts ++ [a] } }
  match s0.attemptFault g a m.model with
  | some d => s2.failAttempt a d
  | none => s2

/-- A group's own record of what it takes. -/
def Group.taking (g : Group) (p : Pick) (k : Nat) : Group :=
  match p with
  | .none => g
  | .pass j i n =>
    { g with tremolo := if n + 1 < k then some (j, i, n + 1) else none }
  | .marked j i =>
    let g1 := { g with marked := g.marked.filter (fun x => !(x.2.1 == j && x.2.2 == i)) }
    if g.dbl then { g1 with run := [(j, i)], runPos := 1, inB := false, tremolo := if k = 0 then none else some (j, i, 0) }
    else { g1 with tremolo := if 1 < k then some (j, i, 1) else none }
  | .run _ _ => { g with runPos := g.runPos + 1 }
  | .fresh j i =>
    let g1 := { g with ready := g.ready.filter (fun x => !(x.1 == j && x.2 == i)) }
    if g.dbl then { g1 with run := [(j, i)], runPos := 1, inB := false, tremolo := if k = 0 then none else some (j, i, 0) }
    else { g1 with tremolo := if 1 < k then some (j, i, 1) else none }

/-- R334: a place that keeps its status when the entry is lost, or is voided. -/
def State.bufferPlace (s : State) (st : Nat) (sq : Word32) (p : JobPlace) : State :=
  match s.job p.job with
  | none => s
  | some j =>
    if p.settled then (if p.replay then (s.settle j p.idx p.status p.multi p.overflow p.miss).forget j.id p.idx else s)
    else if j.indexOf st sq = some p.idx then s.voidPlace j p.idx stVoidBuffer false false
    else s

/-- R422: a buffer place that gives VOID_BUFFER is retired, up to 64 of each kind. detail is the place as the log names it. -/
def State.retirePlace (s : State) (block : Bool) (n : Nat) : State :=
  let detail := if block then n + 65536 else n
  let s1 := s.logEvent evBufferCrc clsLasting 0 Detected.nowhere detail
  let list := if block then s1.acc.retiredBlocks else s1.acc.retiredHeads
  if list.contains n ∨ 64 ≤ list.length then s1
  else
    let acc := if block then { s1.acc with retiredBlocks := insertNat list n } else { s1.acc with retiredHeads := insertNat list n }
    ({ s1 with acc := acc }).logEvent evPlaceRetired clsAction 0 Detected.nowhere detail

/-- R334: an entry that fails its CRC twice. -/
def State.voidBuffer (s : State) (h : Head) : State :=
  let s1 := if h.headBad then s.retirePlace false h.place else s
  let s2 := match h.block with
    | some b => if h.blockBad then s1.retirePlace true b else s1
    | none => s1
  h.places.foldl (fun t p => t.bufferPlace h.stream h.seq p) s2

/-- The part of a buffer entry, for the count of transient errors (R390). -/
def bufferPart (h : Head) : Detected :=
  { Detected.nowhere with check := evBufferCrc, place := if h.blockBad then (h.block.getD 0) + 65536 else h.place }

/-- R334, R388: an entry whose second read passes; the error is transient. -/
def State.rereadBuffer (s : State) (h : Head) : State :=
  let f := (s.flt.addTrans (bufferPart h)).count clsTransient
  ({ s with flt := f }).modHead h.stream h.seq (fun x => { x with headBad := false, blockBad := false })

/-- R334: the CRC of an entry fails twice. -/
def State.entryLost (s : State) (h : Head) (again : Bool) : Bool :=
  (h.headBad || h.blockBad) && !(again && !s.worn (bufferPart h))

/-- The record that a pick names, checked and dispatched. -/
def State.dispatchPick (s : State) (g : Group) (p : Pick) (job i pass : Nat) (again : Bool) (ups : List Upset) : State :=
  match s.openPlace job i with
  | none => s.modGroup g.gid (fun x => x.forget job i)
  | some (j, h, pl) =>
    match j.model with
    | none => s
    | some m =>
      if s.entryLost h again then s.voidBuffer h
      else
        let s1 := if h.headBad || h.blockBad then s.rereadBuffer h else s
        let k := if j.op = opTremolo then j.k else 0
        let plane := if g.dbl then (match p with
            | .run _ _ => g.inB
            | _ => false)
          else pl.plane.getD g.plane
        (s1.modGroup g.gid (fun x => x.taking p k)).enter g j h i pass plane m ups

/-- A run in Double takes the records of the job that are accepted when it starts, at most 64 (R298). -/
def State.fillRun (s : State) (g : Group) (job i : Nat) : State :=
  let s1 := s.acc.heads.foldl (fun (t : State) _ => t.offer job) s
  match s1.job job, s1.groupNo g.gid with
  | some j, some g1 =>
    if j.op = opTremolo then s1
    else
      let more := ((g1.ready.filter (fun x => x.1 == job && decide (i < x.2) && s1.unheld g1 x)).mergeSort
        (fun x y => x.2 ≤ y.2)).take 63
      s1.modGroup g.gid (fun x =>
        { x with ready := x.ready.filter (fun y => !more.contains y), run := x.run ++ more })
  | _, _ => s1

/-- The next pass of a Tremolo record in a run (R265). -/
def Group.runPass (g : Group) : Nat := (g.tremolo.map (fun x => x.2.2)).getD 0

/-- A dispatch into one group. -/
def State.dispatchGroup (s : State) (g : Group) (again : Bool) (ups : List Upset) : State :=
  match s.pick g with
  | .none => s
  | .pass j i p => s.dispatchPick g (.pass j i p) j i p again ups
  | .marked j i => s.dispatchPick g (.marked j i) j i 0 again ups
  | .run j i => s.dispatchPick g (.run j i) j i g.runPass again ups
  | .fresh j i =>
    let s1 := s.dispatchPick g (.fresh j i) j i 0 again ups
    if g.dbl then s1.fillRun g j i else s1

/-- The group at a BASE that has a record to dispatch: an ended group first, whose records R357 still owes. -/
def State.dispatcher (s : State) (base : Nat) : Option Group :=
  match (s.grp.groups.filter (fun g => g.base == base && g.ended)).find? (fun g => s.pick g != .none) with
  | some g => some g
  | none => s.group base

/-- RECORD_DISPATCH (R78): the group at a BASE takes its next record or pass. -/
def execRecordDispatch (base : Nat) (again : Bool) (ups : List Upset) (s : State) : Host.Outcome State Fault Refusal :=
  .next (
    if s.up then
      match s.dispatcher base with
      | none => s
      | some g =>
        if s.pick g = .none then s else (s.disturbAll (ups.filter (fun u => !inBuffer u))).dispatchGroup g again ups
    else s)

/-- The group after a switch of Double (R265, R298). -/
def Group.switched (g : Group) (k : Nat) : Group :=
  if !g.inB then { g with inB := true, runPos := 0 }
  else
    match g.tremolo with
    | some (j, i, p) =>
      if p + 1 < k then { g with inB := false, runPos := 0, tremolo := some (j, i, p + 1) }
      else { g with inB := false, runPos := 0, tremolo := none, run := [] }
    | none => { g with inB := false, runPos := 0, run := [] }

/-- A run of a group in Double has ended in its plane: every record of it is dispatched, and the plane's attempts are over. -/
def State.switchReady (s : State) (g : Group) : Bool :=
  g.dbl && !g.run.isEmpty && g.runPos == g.run.length && s.grp.attempts.all (fun a => a.grp != g.gid)

/-- DOUBLE_RUN_SWITCH (R265, R298): a group in Double changes its plane after the last record of a run, once the plane's
attempts have ended. -/
def execDoubleRunSwitch (base : Nat) (s : State) : Host.Outcome State Fault Refusal :=
  .next (
    match s.grp.groups.find? (fun g => g.base == base && s.switchReady g) with
    | none => s
    | some g =>
      let k := (g.tremolo.map (fun x => ((s.job x.1).map (·.k)).getD 0)).getD 0
      if s.up then s.modGroup g.gid (fun x => x.switched k) else s)

/-! ## Commits (R327) -/

/-- The count of a commit: the cost it was charged is no longer reserved (R373), its release may go on (R333), and the
last commit ends the job. -/
def State.committedOne (s : State) (j : Job) (void paid : Bool) : State :=
  let s1 := s.modJob j.id (fun x => { x with committed := j.committed + 1, voided := j.voided + flag void })
  let s2 := (if paid then s1 else s1.pay j).releaseStream j.stream
  if j.committed + 1 = j.n then
    (s2.releaseTiles j).finishJob j.id stJobOk j.n (j.voided + flag void)
  else s2

/-- A record index without a job place of its own is committed with its status (R321, R324). -/
def State.commitSpecial (s : State) (j : Job) (i st : Nat) : State :=
  let body := resultBody false false false st j.stream j.tag (j.seqOf i).toNat i 0
  ((s.countVoided j i false []).writeEntry j.ring (j.slot + BitVec.ofNat 32 i) body).committedOne j true true

/-- A settled record, of record index i, is committed. -/
def State.commitPlace (s : State) (j : Job) (i : Nat) (p : JobPlace) : State :=
  let s1 := s.modPlace j.stream (j.seqOf i) j.id (fun q => { q with commit := true })
  (s1.writeEntry j.ring (j.slot + BitVec.ofNat 32 i) (j.resultOf p)).committedOne j (p.status != stOk) p.paid

/-- RECORD_COMMIT (R25, R327): the next record of a scoring job is committed. A record that ABANDON has released has no result entry
(R458). The order is that of the job: R25 and R327 order no two jobs of one stream against each other (log entry 86). -/
def execRecordCommit (job : Nat) (s : State) : Host.Outcome State Fault Refusal :=
  .next (
    match s.job job with
    | none => s
    | some j =>
      if s.memUp = false ∨ j.scoring = false ∨ j.written = true ∨ j.n ≤ j.committed ∨ s.rewritten j j.committed = false then s
      else
        let i := j.committed
        if sget 0 j.special i ≠ 0 then s.commitSpecial j i (sget 0 j.special i)
        else if i < s.releasedOf j then s.committedOne j false true
        else
          match s.placeAt j i with
          | none => s
          | some (_, p) => if p.open || p.commit then s else s.commitPlace j i p)

end Sys2Proof.Machine
end

