-- ==== Sys2Proof/Machine/Search.lean ====
section
/-! DEFINITION. The way of a dispatched pass to its sums: Bridge searches (R95 to R109), accumulation columns (R127 to R129), the
Chord (R130 to R133) and the Tuner (R140 to R143, R260, R261). -/

namespace Sys2Proof.Machine

/-! ## Payloads (R106) -/

abbrev kindScore : Nat := 0
abbrev kindVote : Nat := 1
abbrev kindHandOff : Nat := 2

def payKind (p : Word32) : Nat := fieldOf p.toNat 30 2
def payLane (p : Word32) : Nat := fieldOf p.toNat 26 4
def payScale (p : Word32) : Nat := fieldOf p.toNat 16 10
def payClass (p : Word32) : Nat := fieldOf p.toNat 16 8
def payValue (p : Word32) : Nat := fieldOf p.toNat 0 16
def payTarget (p : Word32) : Nat := fieldOf p.toNat 0 8

/-! ## The search of a slot (R96 to R101) -/

/-- R96: the pre-filter on bits 0 and 1. -/
def BridgeRow.passes (r : BridgeRow) (w : Word) : Bool :=
  ((r.key ^^^ w) &&& r.care &&& 3) == 0

/-- R97. -/
def BridgeRow.hits (r : BridgeRow) (w : Word) : Bool := ((w ^^^ r.key) &&& r.care) == 0

/-- R96: the rows that a search enables, with their physical rows.
Only valid rows of the plane of the comparison (R112, R123), as they stand in this token (R111). -/
def Arrays.enabled (a : Arrays) (phys bank : Nat) (plane : Bool) (p : Nat) (w : Word) : List (Nat × BridgeRow) :=
  (a.planeRows phys bank plane).filter (fun x =>
    x.2.slot.toNat == p && x.2.passes w && !a.retiredRows.contains (rowAt phys bank x.1))

/-- R98: a larger mask length comes first, then the lower row number. -/
def rowBefore (x y : Nat × BridgeRow) : Bool :=
  if x.2.mlen = y.2.mlen then decide (x.2.rownum ≤ y.2.rownum) else decide (y.2.mlen.toNat < x.2.mlen.toNat)

/-- The matching rows in the order of R98. -/
def matchesOf (rows : List (Nat × BridgeRow)) (w : Word) : List (Nat × BridgeRow) :=
  (rows.filter (fun x => x.2.hits w)).mergeSort rowBefore

/-- What a search of a slot yields (R99 to R101): the payloads it contributes or hands off, and its flags. -/
structure Found where
  payloads : List Word32
  multi : Bool
  overs : Bool
  miss : Bool
deriving DecidableEq, Repr

def foundOf (all : Bool) (ms : List (Nat × BridgeRow)) : Found :=
  let n := ms.length
  let k := if all then 16 else 1
  { payloads := (ms.take k).map (fun x => x.2.payload)
    multi := !all && decide (1 < n)
    overs := all && decide (16 < n)
    miss := n == 0 }

/-- R108, R109: the lowest enabled row that fails a check, with the check. -/
def rowFault (rows : List (Nat × BridgeRow)) : Option (Nat × Nat) :=
  rows.findSome? (fun x => x.2.failedCheck.map (fun c => (x.1, c)))

/-! ## BRIDGE_SEARCH -/

/-- R508: the word of SFD_DBG_CAP_ROW for a matching row. -/
def capRow (x : Nat × BridgeRow) : Word :=
  wordOf [(x.2.payload.toNat, 0, 32), (x.1, 32, 11), (x.2.rownum, 43, 11), (x.2.mlen.toNat, 54, 7)]

/-- SFD_DBG_CAP_REC of an attempt. -/
def Attempt.capRec (a : Attempt) : Word := wordOf [(a.seq.toNat, 0, 32), (a.stream, 32, 12), (a.pass, 44, 6)]

/-- R105, R508: an armed capture latches the first search of its slot that meets its mode. -/
def Capture.take (c : Capture) (a : Attempt) (pos slot : Nat) (ms : List (Nat × BridgeRow)) : Capture :=
  let named := wfield c.ctl 2 5 == pos && wbit c.ctl 7 == a.plane && wfield c.ctl 8 8 == slot
  if c.armed && named && (!wbit c.ctl 1 || decide (1 < ms.length)) then
    { c with armed := false, done := true, count := ms.length, rows := (ms.take 16).map capRow, recWord := a.capRec }
  else c

/-- R103, R501: the counters of a model after a search. -/
def Groups.countFound (g : Groups) (m : Nat) (f : Found) : Groups :=
  let up (on : Bool) (c : Sparse Nat) : Sparse Nat := if on then smod 0 c m (fun n => satAdd 32 n 1) else c
  { g with multi := up f.multi g.multi, overs := up f.overs g.overs, miss := up f.miss g.miss }

/-- R100, R101, R104: an attempt after a search. Only the primary's searches give the record its flags (R425). -/
def Attempt.found (a : Attempt) (pos bank : Nat) (f : Found) (missVoid twin : Bool) : Attempt :=
  let offs := f.payloads.filter (fun p => payKind p == kindHandOff)
  let leaves := f.payloads.filter (fun p => payKind p != kindHandOff)
  let own := !twin
  { a with
    handed := a.handed ++ offs.map (fun p => pos * 256 + payTarget p)
    contribs := a.contribs ++ leaves.map (fun p => ⟨pos, bank, p⟩)
    multi := a.multi || (own && f.multi)
    overflow := a.overflow || (own && f.overs)
    miss := a.miss || (own && f.miss && !missVoid)
    missVoid := a.missVoid || (own && f.miss && missVoid) }

/-- Tokens that a bank has searched for the attempt. -/
def Attempt.tokensOf (a : Attempt) (pos bank : Nat) : Nat := sget 0 a.tokens (pos * 16 + bank)

/-- R74: token n of a bank may be searched: every bank of the array has searched the links above. -/
def Attempt.tokenDue (a : Attempt) (pos n : Nat) : Bool :=
  decide (n < 16 * a.depth) && (List.range 16).all (fun b => decide (16 * (n / 16) ≤ a.tokensOf pos b))

/-- R74, R75: the slot that token n of a bank searches for the attempt, with its word and descriptor. -/
def Attempt.target (a : Attempt) (pos bank n : Nat) : Option (Nat × Word × BitVec 10) :=
  let slot := bank * 16 + n % 16
  let k := pos * 256 + slot
  match a.words.find? (fun x => x.1 == k), a.descs.find? (fun x => x.1 == k) with
  | some w, some d =>
    if descLink d.2 = n / 16 ∧ (descLink d.2 = 0 ∨ a.handed.contains k = true) then some (slot, w.2, d.2) else none
  | _, _ => none

/-- Model and MISS policy of an attempt (R104). -/
def State.attemptModel (s : State) (a : Attempt) : Option ModelDef := (s.job a.job).bind (fun j => j.model)

/-- What a search leaves: the attempt, the state with its capture and counters, and the check that failed. -/
structure Searched where
  attempt : Attempt
  state : State
  fault : Option Detected

/-- A search of one slot (R95 to R109). A position beyond the group's is a twin (R425), which adds nothing to the counters of R501
(log entry 78). A miss in a chain target is a miss of the tree (R77). -/
def State.searchSlot (s : State) (a : Attempt) (pos bank slot : Nat) (w : Word) (d : BitVec 10) (m : ModelDef) : Searched :=
  let phys := s.physOf pos
  let twin := decide (a.base + a.size ≤ pos)
  let rows := s.arr.enabled phys bank a.plane (slot % 16) w
  let ms := matchesOf rows w
  let f := foundOf (descMatchAll d) ms
  let s1 := { s with
    sel := { s.sel with capture := s.sel.capture.take a pos slot ms }
    grp := if twin then s.grp else s.grp.countFound m.model f }
  match rowFault rows with
  | some (r, c) =>
    ⟨a, s1, some { Detected.nowhere with
      check := evRowCheck, grp := a.grp, pos := pos, phys := phys, plane := a.plane, bank := bank, slot := slot
      place := r, model := m.model, detail := c }⟩
  | none => ⟨a.found pos bank f m.missVoid twin, s1, none⟩

/-- Token n of a bank of one array. -/
def State.searchToken (s : State) (a : Attempt) (pos bank n : Nat) (m : ModelDef) : Searched :=
  match a.target pos bank n with
  | some (slot, w, d) => s.searchSlot a pos bank slot w d m
  | none => ⟨a, s, none⟩

/-- The group of an attempt runs in Tandem (R425). -/
def State.twinned (s : State) (a : Attempt) : Bool := (s.groupNo a.grp).any (fun g => g.tandem)

/-- Token n of a bank of a position and, in Tandem, of its twin (R425). -/
def State.searchBoth (s : State) (a : Attempt) (pos bank n : Nat) (m : ModelDef) : Searched :=
  let r := s.searchToken a pos bank n m
  if s.twinned a then
    let t := r.state.searchToken r.attempt (pos + 16) bank n m
    { t with fault := r.fault.or t.fault }
  else r

/-- The state with an attempt as a step leaves it, which fails where a check has. -/
def State.putAttempt (s : State) (a : Attempt) (fault : Option Detected) : State :=
  let s1 := s.modAttempt a.id (fun _ => a)
  match fault with
  | some d => s1.failAttempt a d
  | none => s1

/-- BRIDGE_SEARCH (R95): a bank searches its next slot position for an attempt. -/
def execBridgeSearch (attempt pos bank : Nat) (ups : List Upset) (s : State) : Host.Outcome State Fault Refusal :=
  .next (
    match s.attempt attempt with
    | none => s
    | some a =>
      let p := a.base + pos
      let n := a.tokensOf p bank
      if s.up = false ∨ a.size ≤ pos ∨ s.inService p = false ∨ a.tokenDue p n = false then s
      else
        let s1 := s.disturbAll ups
        let b := { a with tokens := sput a.tokens (p * 16 + bank) (n + 1) }
        match s.attemptModel a with
        | none => s1.putAttempt b none
        | some m =>
          let r := s1.searchBoth b p bank n m
          r.state.putAttempt r.attempt r.fault)

/-! ## ACCUMULATION_COLUMN -/

/-- Elements of a partial sum vector (R127). -/
def ModelDef.elements (m : ModelDef) : Nat := if m.vote then m.classes else m.lanes

/-- Lane e of the model is certified (R125). -/
def ModelDef.certified (m : ModelDef) (e : Nat) : Bool := !m.vote && m.cert.getLsbD e

/-- The scale entry that an array holds for a group of a model (R295). -/
def Arrays.scaleOf (a : Arrays) (phys : Nat) (plane : Bool) (m g : Nat) : ScaleGroup :=
  let lo := scaleAt phys 0
  match (sparseRange a.scales lo (lo + 2048)).findSome? (fun x => match x.2 with
    | some y => if y.plane = plane ∧ y.model = m ∧ y.group = g then some y.entry else none
    | none => none) with
  | some e => e
  | none => ⟨0, 0⟩

/-- R53, R55, R128: element and term of a payload. -/
def Arrays.term (a : Arrays) (phys : Nat) (plane : Bool) (m : Nat) (p : Word32) : Nat × Int :=
  if payKind p = kindVote then (payClass p, (payValue p : Int))
  else
    let e := a.scaleOf phys plane m (payScale p)
    (payLane p, (e.mult.toNat : Int) * ((payValue p : Int) - e.zero.toNat))

/-- The vector of n elements that the column of an array forms from its payloads (R127). -/
def Arrays.column (a : Arrays) (phys : Nat) (plane : Bool) (m n : Nat) (ps : List Word32) : List Int :=
  let ts := ps.map (a.term phys plane m)
  (List.range n).map (fun e => ts.foldl (fun (v : Int) t => if t.1 = e then v + t.2 else v) 0)

/-- The vector a position supplies (R127, R412). -/
def State.columnOf (s : State) (a : Attempt) (m : ModelDef) (pos : Nat) : List Int :=
  if s.inService pos then
    s.arr.column (s.physOf pos) a.plane m.model m.elements
      ((a.contribs.filter (fun c => c.pos == pos)).map (·.payload))
  else List.replicate m.elements 0

/-- Elements whose residue a step's upsets disturb at a level and node. -/
def residueUpsets (ups : List Upset) (level node : Nat) : List Nat :=
  ups.filterMap (fun u => match u with
    | .residue l n e => if l = level ∧ n = node then some e else none
    | _ => none)

/-- Elements with their residues, some of them disturbed. -/
def partialsOf (vs : List Int) (upset : List Nat) : List Partial :=
  (vs.map Partial.of).mapIdx (fun i p => if upset.contains i then p.upset else p)

/-- Every bank of a position has searched every link. -/
def State.columnDue (s : State) (a : Attempt) (pos : Nat) : Bool :=
  (!s.inService pos || (List.range 16).all (fun b => decide (16 * a.depth ≤ a.tokensOf pos b))) &&
    !a.partials.any (fun p => p.1 == pos)

/-- R425: the vector of a twin differs from its primary's. -/
def State.twinFault (s : State) (a : Attempt) (m : ModelDef) (pos : Nat) : Option Detected :=
  if s.inService pos = false ∨ s.twinned a = false then none
  else
    let ps := (a.contribs.filter (fun c => c.pos == pos + 16)).map (·.payload)
    if s.arr.column (s.physOf (pos + 16)) a.plane m.model m.elements ps = s.columnOf a m pos then none
    else some { Detected.nowhere with
      check := evTandem, grp := a.grp, pos := pos, phys := s.physOf pos, plane := a.plane, model := m.model, detail := 1 }

/-- The vector that leaves the column of the node-th position, as the step's upsets leave its residues. A position out of service
supplies zeros, which no adder of its array has made (R412). -/
def State.columnPartials (s : State) (a : Attempt) (m : ModelDef) (node : Nat) (ups : List Upset) : List Partial :=
  let p := a.base + node
  partialsOf (s.columnOf a m p) (if s.inService p then residueUpsets ups 0 node else [])

/-- ACCUMULATION_COLUMN (R127): the partial vector of a position leaves its array. -/
def execAccumulationColumn (attempt pos : Nat) (ups : List Upset) (s : State) : Host.Outcome State Fault Refusal :=
  .next (
    match s.attempt attempt with
    | none => s
    | some a =>
      let p := a.base + pos
      match s.attemptModel a with
      | none => s
      | some m =>
        if s.up = false ∨ a.size ≤ pos ∨ s.columnDue a p = false then s
        else
          let s1 := s.disturbAll ups
          match s1.twinFault a m p with
          | some d => s1.failAttempt a d
          | none =>
            let v := s1.columnPartials a m pos ups
            s1.modAttempt attempt (fun x => { x with partials := x.partials ++ [(p, v)] }))

/-! ## CHORD_NODE -/

/-- The levels of the Chord of a group of n arrays (R130). -/
def chordLevels (n : Nat) : Nat := Nat.log2 n

/-- The vector at level l and node k of the Chord; level 0 is the columns. -/
def Attempt.nodeAt (a : Attempt) (l k : Nat) : Option (List Partial) :=
  if l = 0 then (a.partials.find? (fun p => p.1 == a.base + k)).map Prod.snd
  else (a.nodes.find? (fun p => p.1 == l * 32 + k)).map Prod.snd

/-- The elements that go to the Chord: standard lanes and classes (R129). -/
def ModelDef.standard (m : ModelDef) (e : Nat) : Bool := !m.certified e

/-- A check of residues fails among the elements that f selects. -/
def residueBad (f : Nat → Bool) (v : List Partial) : Bool := (v.mapIdx (fun e p => f e && !p.ok)).any id

/-- The part of a residue fault: the array at a position (R387). -/
def State.residuePart (s : State) (a : Attempt) (m : ModelDef) (pos node detail : Nat) : Detected :=
  { Detected.nowhere with
    check := evResidue, grp := a.grp, pos := pos, phys := s.physOf pos, plane := a.plane, place := node
    model := m.model, detail := detail }

/-- R511: the latch takes the first matching node sum. -/
def ChordLatch.take (c : ChordLatch) (a : Attempt) (m : ModelDef) (l k : Nat) (v : List Partial) : ChordLatch :=
  let e := wfield c.sel 13 8
  if c.armed && wfield c.sel 0 5 == a.base && wfield c.sel 5 3 == l && wfield c.sel 8 5 == k && decide (e < m.elements) &&
      m.standard e && a.pass == 0 then
    { c with
      armed := false
      value := (v.getD e ⟨0, 0⟩).value
      recWord := wordOf [(a.seq.toNat, 0, 32), (a.stream, 32, 12), (1, 44, 1), (m.model, 45, 6)] }
  else c

/-- The sum of a node (R131): standard elements add, a certified lane has none.
Nodes are ordered by position within the group (R22). -/
def chordSum (m : ModelDef) (x y : List Partial) (upset : List Nat) : List Partial :=
  (List.zipWith chordAdd x y).mapIdx (fun e p =>
    if m.standard e then (if upset.contains e then p.upset else p) else ⟨0, 0⟩)

/-- R131, R133: the check of a node that fails, of its inputs, which only the first level checks, or of its sum. -/
def State.nodeFault (s : State) (a : Attempt) (m : ModelDef) (l k : Nat) (x y v : List Partial) : Option Detected :=
  if l = 1 ∧ residueBad m.standard x = true then some (s.residuePart a m (a.base + 2 * k) k 0)
  else if l = 1 ∧ residueBad m.standard y = true then some (s.residuePart a m (a.base + 2 * k + 1) k 0)
  else if residueBad m.standard v then some (s.residuePart a m (a.base + k * 2 ^ l) k l)
  else none

/-- A node whose inputs have arrived adds them. -/
def State.chordNode (s : State) (a : Attempt) (m : ModelDef) (l k : Nat) (x y : List Partial) (upset : List Nat) : State :=
  let v := chordSum m x y upset
  match s.nodeFault a m l k x y v with
  | some d => s.failAttempt a d
  | none =>
    let s1 := { s with sel := { s.sel with chord := s.sel.chord.take a m l k v } }
    s1.modAttempt a.id (fun z => { z with nodes := z.nodes ++ [(l * 32 + k, v)] })

/-- CHORD_NODE (R131): a node adds its two inputs once both have arrived. -/
def execChordNode (attempt level node : Nat) (ups : List Upset) (s : State) : Host.Outcome State Fault Refusal :=
  .next (
    match s.attempt attempt with
    | none => s
    | some a =>
      match s.attemptModel a with
      | none => s
      | some m =>
        if s.up = false ∨ level = 0 ∨ chordLevels a.size < level ∨ a.size / 2 ^ level ≤ node ∨
            (a.nodeAt level node).isSome = true then s
        else
          match a.nodeAt (level - 1) (2 * node), a.nodeAt (level - 1) (2 * node + 1) with
          | some x, some y => (s.disturbAll ups).chordNode a m level node x y (residueUpsets ups level node)
          | _, _ => s)

/-! ## TUNER_ADD -/

/-- Every column of the attempt has left its array. -/
def Attempt.columnsDone (a : Attempt) : Bool :=
  (List.range a.size).all (fun i => (a.nodeAt 0 i).isSome)

/-- Certified sums (R140), by lane, 0 for a standard lane. -/
def Attempt.certSums (a : Attempt) (m : ModelDef) : List Int :=
  (List.range m.elements).map (fun e =>
    if m.certified e then
      (List.range a.size).foldl (fun (v : Int) i =>
        v + (((a.nodeAt 0 i).getD []).getD e ⟨0, 0⟩).value.toInt) 0
    else 0)

/-- The sum of the Chord: the last node, or the column of a group of one array. -/
def Attempt.chordRoot (a : Attempt) : Option (List Partial) := a.nodeAt (chordLevels a.size) 0

/-- Totals T_p of the attempt by element (R260, R261). -/
def Attempt.totals (a : Attempt) (m : ModelDef) : List Int :=
  let root := a.chordRoot.getD []
  (List.range m.elements).map (fun e =>
    if m.certified e then a.cert.getD e 0 else (root.getD e ⟨0, 0⟩).value.toInt)

/-- The lowest of some positions, by their number in the group, whose column fails its residue for a lane that f selects. -/
def Attempt.badColumn (a : Attempt) (f : Nat → Bool) (nodes : List Nat) : Option Nat :=
  (nodes.find? (fun i => ((a.nodeAt 0 i).map (residueBad f)).getD false)).map (a.base + ·)

/-- The Tuner adds an element of the model: a certified lane, or any element of a Tremolo pass (R140, R260, R261). -/
def ModelDef.tuned (m : ModelDef) (tremolo : Bool) (e : Nat) : Bool := decide (e < m.elements) && (tremolo || m.certified e)

/-- R142: the checks of one token of the Tuner, which adds four positions: its inputs, then its sum. The adder of a token is that
of the lowest position it adds (R387). -/
def State.tokenFault (s : State) (a : Attempt) (m : ModelDef) (tremolo : Bool) (ups : List Upset) (t : Nat) : Option Detected :=
  let nodes := (List.range 4).map (4 * t + ·)
  match a.badColumn (fun e => m.certified e || (tremolo && a.size == 1)) nodes with
  | some p => some (s.residuePart a m p 0 0x80)
  | none =>
    if (residueUpsets ups 128 t).any (m.tuned tremolo) then some (s.residuePart a m (a.base + 4 * t) t 0x81) else none

/-- The first check of the Tuner that fails. -/
def State.tunerFault (s : State) (a : Attempt) (m : ModelDef) (tremolo : Bool) (ups : List Upset) : Option Detected :=
  (List.range ((a.size + 3) / 4)).findSome? (s.tokenFault a m tremolo ups)

/-- What the record has gathered so far. -/
def State.gatheredOf (s : State) (a : Attempt) : Option Gathered :=
  s.grp.gathered.find? (fun g => g.job == a.job && g.idx == a.idx)

def Gathered.fresh (a : Attempt) (n : Nat) : Gathered :=
  ⟨a.job, a.idx, List.replicate n 0, List.replicate n 0, [], false, false, false, false⟩

def State.putGathered (s : State) (g : Gathered) : State :=
  { s with grp := { s.grp with gathered := s.grp.gathered.filter (fun x => !(x.job == g.job && x.idx == g.idx)) ++ [g] } }

/-- The flags of an attempt join those of its record (R263). -/
def Gathered.flags (g : Gathered) (a : Attempt) : Gathered :=
  { g with multi := g.multi || a.multi, overflow := g.overflow || a.overflow, miss := g.miss || a.miss
           missVoid := g.missVoid || a.missVoid }

/-- R260, R261, R265: a pass's totals join the sums of its record; in Double the plane-A half waits for the plane-B half. -/
def Gathered.addPass (g : Gathered) (a : Attempt) (ts : List Int) : Gathered :=
  let g1 := g.flags a
  if a.dbl && !a.plane then { g1 with half := ts }
  else
    let t := if a.dbl then List.zipWith (· + ·) g.half ts else ts
    { g1 with sums := List.zipWith (· + ·) g.sums t, squares := List.zipWith (fun q x => q + x * x) g.squares t, half := [] }

/-- The attempt is the last of its Tremolo record: the last pass, and in Double its plane-B half. -/
def Attempt.lastPass (a : Attempt) (k : Nat) : Bool := a.pass + 1 == k && (!a.dbl || a.plane)

/-- The Tuner's part of a Tremolo pass. An attempt that is not the last has given all it has. -/
def State.tunePass (s : State) (a : Attempt) (m : ModelDef) (k : Nat) : State :=
  let g := ((s.gatheredOf a).getD (Gathered.fresh a m.elements)).addPass a (a.totals m)
  let s1 := s.putGathered g
  if a.lastPass k then s1 else s1.dropAttempt a.id

/-- TUNER_ADD (R140, R260, R261): the Tuner adds the certified lanes of an attempt, and the totals of a Tremolo pass. -/
def execTunerAdd (attempt : Nat) (ups : List Upset) (s : State) : Host.Outcome State Fault Refusal :=
  .next (
    match s.attempt attempt with
    | none => s
    | some a =>
      match s.attemptModel a, s.job a.job with
      | some m, some j =>
        let tremolo := j.op == opTremolo
        let earlier := s.grp.attempts.any (fun x => x.job == a.job && x.idx == a.idx && decide (x.id < a.id))
        if s.up = false ∨ a.tuned = true ∨ a.columnsDone = false ∨
            (tremolo = true ∧ (a.chordRoot.isNone = true ∨ earlier = true)) then s
        else
          let s1 := s.disturbAll ups
          match s1.tunerFault a m tremolo ups with
          | some d => s1.failAttempt a d
          | none =>
            let b := { a with cert := a.certSums m, tuned := true }
            let s2 := s1.modAttempt attempt (fun _ => b)
            if tremolo then s2.tunePass b m j.k else s2
      | _, _ => s)

end Sys2Proof.Machine
end

