-- ==== Sys2Proof/Machine/Bridge.lean ====
section
/-! DEFINITION. Bridge rows in their places: free rows and their choice (R93, R94, R115), the move map (R417), and live
patches (R113 to R121). -/

namespace Sys2Proof.Machine

/-! ## Free rows -/

/-- A reserve row (R88). -/
def reserveRow (r : Nat) : Bool := r % 9 == 0

/-- Free physical rows of a bank: invalid, not retired and not reserved by a patch (R93), in rising order. -/
def Arrays.freeRows (a : Arrays) (phys bank : Nat) : List Nat :=
  let lo := rowAt phys bank 0
  let inBank (k : Nat) : Bool := decide (lo ≤ k) && decide (k < lo + 1152)
  let used := ((sparseRange a.rows lo (lo + 1152)).filter (fun x => x.2.valid)).map (fun x => x.1 - lo)
  let kept := ((a.retiredRows ++ a.reserved).filter inBank).map (· - lo)
  (List.range 1152).filter (fun r => !used.contains r && !kept.contains r)

/-- Free load rows (R88). -/
def Arrays.freeLoadRows (a : Arrays) (phys bank : Nat) : List Nat := (a.freeRows phys bank).filter (fun r => !reserveRow r)

/-- A row written into its place. -/
def Arrays.putRow (a : Arrays) (phys bank r : Nat) (x : BridgeRow) : Arrays :=
  { a with rows := sset freeRow a.rows (rowAt phys bank r) x }

/-- R110: a row of its place invalidated, so that it is free. -/
def Arrays.dropRow (a : Arrays) (phys bank r : Nat) : Arrays := a.putRow phys bank r (a.row phys bank r).invalidate

/-- R93: rows placed in the free load rows of a bank, in the order of their row numbers. Rows that patches have put beyond the load
rows take reserve rows as well, since a Remount writes every valid row (R409). -/
def Arrays.placeRows (a : Arrays) (phys bank : Nat) (rows : List BridgeRow) : Arrays :=
  let sorted := rows.mergeSort (fun x y => x.rownum ≤ y.rownum)
  let load := a.freeLoadRows phys bank
  let places := if sorted.length ≤ load.length then load else a.freeRows phys bank
  (List.zip places sorted).foldl (fun b x => b.putRow phys bank x.1 x.2) a

/-- Which of the admitted rows R115 takes. -/
inductive RowAim where
  | nearest (old : Nat)
  | lowest
  | highest

/-- The distance of two rows. -/
def rowGap (x y : Nat) : Nat := if x ≤ y then y - x else x - y

/-- The row among the admitted ones that R115 takes. -/
def RowAim.take (aim : RowAim) (rows : List Nat) : Option Nat :=
  match aim with
  | .lowest => rows.head?
  | .highest => rows.getLast?
  | .nearest old => rows.foldl (fun best r => match best with
      | none => some r
      | some b => if rowGap r old < rowGap b old then some r else some b) none

/-- R115: a reserve row before a load row, strictly between two rows. -/
def Arrays.chooseRow (a : Arrays) (phys bank : Nat) (lo hi : Option Nat) (aim : RowAim) : Option Nat :=
  let ok (r : Nat) : Bool := (lo.all (fun l => decide (l < r))) && (hi.all (fun h => decide (r < h)))
  let rows := (a.freeRows phys bank).filter ok
  match rows.filter reserveRow with
  | [] => aim.take rows
  | rs => aim.take rs

/-- Rows of one slot position and plane, with those that a patch has written and not yet validated: physical row and row
number. -/
def Arrays.slotRows (a : Arrays) (phys bank : Nat) (plane : Bool) (p : Nat) : List (Nat × Nat) :=
  let lo := rowAt phys bank 0
  ((sparseRange a.rows lo (lo + 1152)).filter (fun x =>
    (x.2.valid || a.reserved.contains x.1) && x.2.plane == plane && x.2.slot.toNat == p)).map (fun x => (x.1 - lo, x.2.rownum))

/-- The physical rows between which a row number lies among rows of its slot and plane (R94, R114). -/
def rowBounds (rows : List (Nat × Nat)) (n : Nat) : Option Nat × Option Nat :=
  let below := (rows.filter (fun x => decide (x.2 < n))).map Prod.fst
  let above := (rows.filter (fun x => decide (n < x.2))).map Prod.fst
  (below.max?, above.min?)

/-- R114, R115: the free row for a replacement or a retirement. -/
def Arrays.rowForReplace (a : Arrays) (phys bank : Nat) (plane : Bool) (p n old : Nat) : Option Nat :=
  let (lo, hi) := rowBounds (a.slotRows phys bank plane p) n
  a.chooseRow phys bank lo hi (.nearest old)

/-- R114, R115: the free row for an insertion. -/
def Arrays.rowForInsert (a : Arrays) (phys bank : Nat) (plane : Bool) (p n : Nat) : Option Nat :=
  let (lo, hi) := rowBounds (a.slotRows phys bank plane p) n
  a.chooseRow phys bank lo hi (if lo.isNone && hi.isSome then .highest else .lowest)

/-! ## The move map -/

/-- Where content of an image place stands now (R417): position, plane and slot. -/
def Arrays.present (a : Arrays) (pos : Nat) (plane : Bool) (slot : Nat) : Nat × Bool × Nat :=
  match a.moves.find? (fun m => m.fromPos == pos && m.fromPlane == plane && m.fromSlot == slot) with
  | some m => (m.toPos, m.toPlane, m.toSlot)
  | none => (pos, plane, slot)

/-- The image place of content that stands at a place. -/
def Arrays.imagePlace (a : Arrays) (pos : Nat) (plane : Bool) (slot : Nat) : Nat × Bool × Nat :=
  match a.moves.find? (fun m => m.toPos == pos && m.toPlane == plane && m.toSlot == slot) with
  | some m => (m.fromPos, m.fromPlane, m.fromSlot)
  | none => (pos, plane, slot)

/-- A payload as the array holds it: a hand-off names the present slot of its target (R408). -/
def Arrays.presentPayload (a : Arrays) (pos : Nat) (plane : Bool) (p : Word32) : Word32 :=
  if payKind p = kindHandOff then
    BitVec.ofNat 32 (p.toNat - payTarget p + (a.present pos plane (payTarget p)).2.2)
  else p

/-- A row as the Bridge stores it (R90, R110): sealed and valid. -/
def Arrays.makeRow (a : Arrays) (pos : Nat) (plane : Bool) (slot : Nat) (key care : Word) (payload : Word32) (n : Nat) : BridgeRow :=
  let (_, π, sl) := a.present pos plane slot
  sealRow
    { key := key, care := care, payload := a.presentPayload pos plane payload, slot := BitVec.ofNat 4 sl, valid := true
      plane := π, mlen := 0, p0 := false, p1 := false, rownum := n, own := some ⟨pos, plane, slot⟩ }

/-- The present place of an image slot: physical array, bank, plane and slot position. -/
structure RowSpot where
  phys : Nat
  bank : Nat
  plane : Bool
  slotPos : Nat
deriving DecidableEq, Repr

def State.rowSpot (s : State) (pos : Nat) (plane : Bool) (slot : Nat) : RowSpot :=
  let (q, π, sl) := s.arr.present pos plane slot
  ⟨s.physOf q, sl / 16, π, sl % 16⟩

/-- The same on a copy of the position: itself, or its twin for 16 (R424). -/
def State.spotOn (s : State) (copy pos : Nat) (plane : Bool) (slot : Nat) : RowSpot :=
  { s.rowSpot pos plane slot with phys := s.physOf ((s.arr.present pos plane slot).1 + copy) }

/-- The valid row of a spot with a row number. -/
def Arrays.rowIn (a : Arrays) (k : RowSpot) (n : Nat) : Option (Nat × BridgeRow) :=
  (a.planeRows k.phys k.bank k.plane).find? (fun x => x.2.slot.toNat == k.slotPos && x.2.rownum == n)

/-- The valid row with a row number at the present place of an image slot. -/
def State.findRow (s : State) (pos : Nat) (plane : Bool) (slot n : Nat) : Option (RowSpot × Nat × BridgeRow) :=
  let k := s.rowSpot pos plane slot
  (s.arr.rowIn k n).map (fun x => (k, x.1, x.2))

/-- Groups, ended ones included, that have a position. -/
def State.groupsAt (s : State) (pos : Nat) : List Group :=
  s.grp.groups.filter (fun g => decide (g.base ≤ pos) && decide (pos < g.base + g.size))

/-- The distances of a position's copies: itself, and its twin in Tandem (R424). -/
def State.copyOffsets (s : State) (pos : Nat) : List Nat := if (s.groupsAt pos).any (·.tandem) then [0, 16] else [0]

/-! ## Checks of a patch (R116) -/

/-- Slot that an entry names. -/
def PatchEntry.slotNo (e : PatchEntry) : Nat := 16 * e.bank + e.slot

/-- The descriptor of the slot that an image place names. -/
def State.imageDesc (s : State) (pos : Nat) (plane : Bool) (slot : Nat) : BitVec 10 :=
  let (q, π, sl) := s.arr.present pos plane slot
  s.arr.desc (s.physOf q) π sl

/-- R52, R106, R107 for a payload of a model. -/
def ModelDef.payloadOk (m : ModelDef) (p : Word32) : Bool :=
  let k := payKind p
  if k = kindScore then !m.vote && decide (payLane p < m.lanes) && decide (payScale p < m.scale.length)
  else if k = kindVote then m.vote && fieldOf p.toNat 24 6 == 0 && decide (payClass p < m.classes)
  else k == kindHandOff && fieldOf p.toNat 8 22 == 0

/-- R72 for a hand-off from a slot to a target slot. -/
def handOffOk (d t : BitVec 10) : Bool :=
  !descMatchAll d && descLink d != 3 && descUsed t && descSlotModel t == descSlotModel d && descLink t == descLink d + 1

/-- The live group that holds a position. -/
def State.groupAt (s : State) (pos : Nat) : Option Group :=
  s.liveGroups.find? (fun g => decide (g.base ≤ pos) && decide (pos < g.base + g.size))

/-- R116, order 2: the entry's plane is a live plane of a group. -/
def State.patchPlaneOk (s : State) (e : PatchEntry) : Bool :=
  (s.groupAt e.array).any (fun g => g.dbl || g.plane == e.plane)

/-- R106, R107: the kind of a payload, and its zero fields, which no model decides. -/
def payloadForm (p : Word32) : Bool :=
  let k := payKind p
  k == kindScore || (k == kindVote && fieldOf p.toNat 24 6 == 0) || (k == kindHandOff && fieldOf p.toNat 8 22 == 0)

/-- The payload of an entry, and its slot, which is in use (R92, R106, R107). In a plane that is not live, which order 2 refuses,
only the form of the payload can be judged (log entry 83). -/
def State.patchPayloadOk (s : State) (e : PatchEntry) : Bool :=
  let d := s.imageDesc e.array e.plane e.slotNo
  payloadForm e.payload && (!s.patchPlaneOk e ||
    (descUsed d && (s.tables.model (descSlotModel d)).any (fun m =>
      m.payloadOk e.payload &&
        (payKind e.payload != kindHandOff || handOffOk d (s.imageDesc e.array e.plane (payTarget e.payload))))))

/-- Two entries name one row number. -/
def PatchEntry.sameRow (x y : PatchEntry) : Bool :=
  x.array == y.array && x.bank == y.bank && x.plane == y.plane && x.row == y.row

abbrev patchReplace : Nat := 1
abbrev patchInsert : Nat := 2
abbrev patchDelete : Nat := 3

/-- R116, order 1: the form of an entry, with the entries before it. -/
def State.patchFormOk (s : State) (before : List PatchEntry) (reserved : Bool) (e : PatchEntry) : Bool :=
  reserved && (e.op == patchReplace || e.op == patchInsert || e.op == patchDelete) &&
    (e.key &&& ~~~e.care) == 0 && decide (e.row < 1152) && !reserveRow e.row && !before.any e.sameRow &&
    (if e.op = patchDelete then e.key == 0 && e.care == 0 && e.payload == 0 else s.patchPayloadOk e)

/-- Valid rows of the image bank of an entry that have its row number, in any slot of the bank. -/
def State.rowNumberTaken (s : State) (e : PatchEntry) : Bool :=
  (List.range 16).any (fun p => (s.findRow e.array e.plane (16 * e.bank + p) e.row).isSome)

/-- R116, order 3: the condition of R114. -/
def State.patchOpOk (s : State) (e : PatchEntry) : Bool :=
  if e.op = patchInsert then descUsed (s.imageDesc e.array e.plane e.slotNo) && !s.rowNumberTaken e
  else (s.findRow e.array e.plane e.slotNo e.row).isSome

/-- The first index of a list at which a check fails. -/
def firstFail {α : Type} (ok : α → Bool) (xs : List α) : Option Nat := xs.findIdx? (fun x => !ok x)

/-! ## The write steps of a patch (R114) -/

/-- R114, R115: the free row for the new row of an entry, with the old row it replaces, if any. -/
def State.rowFor (s : State) (k : RowSpot) (n : Nat) (old : Option Nat) : Option Nat :=
  match old with
  | some o => s.arr.rowForReplace k.phys k.bank k.plane k.slotPos n o
  | none => s.arr.rowForInsert k.phys k.bank k.plane k.slotPos n

/-- The item of an entry on one copy of its position: its rows, with the new row written and reserved. -/
def State.stageEntry (s : State) (g : Nat) (e : PatchEntry) (copy : Nat) : Option (PatchItem × State) :=
  let k := s.spotOn copy e.array e.plane e.slotNo
  let old := (s.arr.rowIn k e.row).map Prod.fst
  let item (new : Option Nat) : PatchItem := ⟨g, e, copy, k.phys, k.bank, new, old⟩
  if e.op = patchDelete then some (item none, s)
  else
    match s.rowFor k e.row old with
    | none => none
    | some r =>
      let x := { s.arr.makeRow e.array e.plane e.slotNo e.key e.care e.payload e.row with valid := false }
      let a := s.arr.putRow k.phys k.bank r { x with p0 := rowP0 x }
      some (item (some r), { s with arr := { a with reserved := insertNat a.reserved (rowAt k.phys k.bank r) } })

/-- The items of an entry on every copy of its position. -/
def State.stageCopies (s : State) (g : Nat) (e : PatchEntry) : List Nat → Option (List PatchItem × State)
  | [] => some ([], s)
  | c :: cs =>
    match s.stageEntry g e c with
    | none => none
    | some (x, t) => (t.stageCopies g e cs).map (fun r => (x :: r.1, r.2))

/-- The items of a job's entries, or the first entry without a hole. -/
def State.stageAll (s : State) : Nat → List PatchEntry → Except Nat (List PatchItem × State)
  | _, [] => .ok ([], s)
  | i, e :: es =>
    match s.stageCopies (((s.groupAt e.array).map (·.gid)).getD 0) e (s.copyOffsets e.array) with
    | none => .error i
    | some (xs, t) =>
      match t.stageAll (i + 1) es with
      | .error n => .error n
      | .ok (ys, u) => .ok (xs ++ ys, u)

/-- The items of the entries themselves, without those of twins. -/
def primaryItems (xs : List PatchItem) : List PatchItem := xs.filter (fun x => x.copy == 0)

/-- The patch journal (R121). -/
def State.journal (s : State) : List JournalEntry :=
  match s.img.live with
  | some a => a.journal
  | none => []

/-- Journal places taken by entries applied and by patches in progress. -/
def State.journalUsed (s : State) : Nat :=
  s.journal.length + (s.jobs.patches.map (fun p => (primaryItems p.items).length)).sum

/-- The entry list of a patch job, with the check of its reserved bits. -/
def State.patchEntries (s : State) (j : Job) : List (PatchEntry × Bool) :=
  (List.range (descPatchEntries j.desc)).map (fun i =>
    let bs := memRead s.mem (descAddr j.desc + 32 * i) 32
    (patchEntry bs, patchReservedOk bs))

/-- R116: the first check that fails before the write steps, with its status and entry. -/
def State.patchCheck (s : State) (es : List (PatchEntry × Bool)) : Option (Nat × Nat) :=
  let form := (List.range es.length).find? (fun i => match es[i]? with
    | none => false
    | some (e, r) => !s.patchFormOk ((es.take i).map Prod.fst) r e)
  match form, firstFail (fun e => s.patchPlaneOk e.1) es, firstFail (fun e => s.patchOpOk e.1) es with
  | some i, _, _ => some (stPatchBadEntry, i)
  | none, some i, _ => some (stPatchPlane, i)
  | none, none, some i => some (stPatchBadEntry, i)
  | none, none, none => none

/-- LEAF_PATCH (R114 to R117): the job's entries are checked, and its new rows are written into reserved rows. -/
def execLeafPatch (job : Nat) (s : State) : Host.Outcome State Fault Refusal :=
  .next (
    match s.openJob job opPatch with
    | none => s
    | some j =>
      if s.memUp = false ∨ j.begun = true then s
      else
        let es := s.patchEntries j
        match s.patchCheck es with
        | some (st, i) => s.finishJob job st 0 i
        | none =>
          match s.stageAll 0 (es.map Prod.fst) with
          | .error i => s.finishJob job stPatchNoHole 0 i
          | .ok (items, s1) =>
            if 4096 < s.journalUsed + es.length then s.finishJob job stPatchJournalFull 0 0
            else
              let groups := (items.map (·.grp)).eraseDups
              let s2 := s1.modJob job (fun x => { x with begun := true })
              { s2 with jobs := { s2.jobs with patches := s2.jobs.patches ++ [⟨job, items, groups⟩] } })

/-! ## The patch boundary (R117, R119) -/

/-- The row that a new row takes at the boundary when the one reserved for it is no longer at its slot's place: a free row as R114
wants it, or else the old row's own, or else any free row of the bank (log entry 81). -/
def State.lateRow (s : State) (k : RowSpot) (n : Nat) : Option Nat :=
  let old := (s.arr.rowIn k n).map Prod.fst
  ((s.rowFor k n old).or old).or (s.arr.freeRows k.phys k.bank).head?

/-- The visible step of an item: the new row is validated and the old one invalidated. A new row that a Remount or a move
has left behind is written again first. -/
def State.visibleStep (s : State) (x : PatchItem) : State :=
  let e := x.entry
  let kept (a : Arrays) : Arrays :=
    match x.newRow with
    | some r => { a with reserved := a.reserved.filter (· != rowAt x.phys x.bank r) }
    | none => a
  if x.copy ≠ 0 ∧ (s.copyOffsets e.array).contains x.copy = false then { s with arr := kept s.arr }
  else
    let k := s.spotOn x.copy e.array e.plane e.slotNo
    let here (r : Nat) : Bool := (k.phys, k.bank) == (x.phys, x.bank) && (s.arr.row x.phys x.bank r).slot.toNat == k.slotPos
    let s1 := { s with arr := kept s.arr }
    let row := if e.op = patchDelete then none else (x.newRow.filter here).or (s1.lateRow k e.row)
    let a1 := match s1.arr.rowIn k e.row with
      | some (o, _) => s1.arr.dropRow k.phys k.bank o
      | none => s1.arr
    let a2 := match row with
      | some r => a1.putRow k.phys k.bank r (a1.makeRow e.array e.plane e.slotNo e.key e.care e.payload e.row)
      | none => a1
    { s1 with arr := a2 }

/-- The items of a patch in a group, with those of twins that the group has only since the write steps. -/
def State.itemsDue (s : State) (p : PatchJob) (g : Group) : List PatchItem :=
  let mine := p.items.filter (fun x => x.grp == g.gid)
  let late := (primaryItems mine).flatMap (fun x => ((s.copyOffsets x.entry.array).filter (fun c =>
    !mine.any (fun y => y.copy == c && y.entry == x.entry))).map (fun c => { x with copy := c, newRow := none, oldRow := none }))
  mine ++ late

/-- R119: entries are appended to the journal, that of the former image for a group that a Mount has ended (R357). -/
def State.appendJournal (s : State) (g : Group) (es : List JournalEntry) : State :=
  let add (a : HarnessArea) : HarnessArea := { a with journal := a.journal ++ es }
  let copy (a : Option HarnessArea) (second : Bool) : State := match a with
    | none => s
    | some x => s.copyJournal second x.image.length x.journal.length es
  if g.ended then
    let t := copy s.img.former (!s.img.second)
    { t with img := { t.img with former := t.img.former.map add } }
  else
    let t := copy s.img.live s.img.second
    { t with img := { t.img with live := t.img.live.map add } }

/-- Every record dispatched into a group has been committed (R117, R124). -/
def State.groupIdle (s : State) (g : Group) : Bool :=
  s.grp.attempts.all (fun a => a.grp != g.gid) && g.marked.isEmpty && g.tremolo.isNone && g.run.isEmpty &&
    s.acc.heads.all (fun h => h.places.all (fun p => p.grp != g.gid || !p.dispatched || p.commit))

/-- R117, R337: the boundary of a patch in a group has come. -/
def State.boundaryDue (s : State) (j : Job) (g : Group) : Bool :=
  !g.paused && s.groupIdle g &&
    !(s.jobs.jobs.any (fun x => x.ring == j.ring && decide (x.id < j.id) && x.pendingIn g))

/-- A patch's visible steps in one group, its generation and its journal entries. -/
def State.applyPatch (s : State) (j : Job) (p : PatchJob) (g : Group) : State :=
  let items := primaryItems (p.items.filter (fun x => x.grp == g.gid))
  let s1 := (s.itemsDue p g).foldl State.visibleStep s
  let s2 := s1.modGroup g.gid (fun x => { x with gen := x.gen + 1 })
  let s3 := s2.appendJournal g (items.map (fun x => ⟨g.base, g.gen + 1, x.entry⟩))
  let rest := p.groups.filter (· != g.gid)
  let others := s3.jobs.patches.filter (fun q => q.job != p.job)
  if rest.isEmpty then
    ({ s3 with jobs := { s3.jobs with patches := others } }).finishJob p.job stJobOk (descPatchEntries j.desc) 0
  else
    let q : PatchJob := { p with items := p.items.filter (fun x => x.grp != g.gid), groups := rest }
    { s3 with jobs := { s3.jobs with patches := others ++ [q] } }

/-- PATCH_BOUNDARY (R117 to R119): the visible steps of a patch are applied in a group. -/
def execPatchBoundary (job base : Nat) (s : State) : Host.Outcome State Fault Refusal :=
  .next (
    match s.openJob job opPatch, s.jobs.patches.find? (fun p => p.job == job) with
    | some j, some p =>
      match s.grp.groups.find? (fun g => g.base == base && p.groups.contains g.gid) with
      | none => s
      | some g => if s.up && s.boundaryDue j g then s.applyPatch j p g else s
    | _, _ => s)

end Sys2Proof.Machine
end

