-- ==== Sys2Proof/Machine/Image.lean ====
section
/-! DEFINITION. Harness images: header and segment table (R268 to R272), the checks of every entry (R36, R52, R63, R72, R79, R92,
R107, R126, R209, R255, R275, R276, R283), generation 1 images in generation 2 form (R285), and group digests (R288). -/

namespace Sys2Proof.Machine

/-! ## Reading -/

/-- The little-endian number of k bytes at an offset. -/
def rd (b : Array Byte) (off : Nat) : Nat → Nat
  | 0 => 0
  | k + 1 => (b.getD off 0).toNat + 256 * rd b (off + 1) k

/-- What a load that fails reports (R296, R513). -/
structure LoadFail where
  status : Nat
  segtype : Nat := 0
  entry : Nat := 0
  array : Nat := 0
  half : Nat := 0
  bank : Nat := 0
  slot : Nat := 0
  place : Nat := 0
  caps : Nat := 0
deriving DecidableEq, Repr

abbrev segQuant : Nat := 1
abbrev segCatmask : Nat := 2
abbrev segFret : Nat := 3
abbrev segBridge : Nat := 4
abbrev segChord : Nat := 5
abbrev segScale : Nat := 6
abbrev segTremolo : Nat := 7
abbrev segEntmap : Nat := 8
abbrev segRoute : Nat := 9

/-- A segment table entry (R269). -/
structure SegEntry where
  type : Nat
  reserved : Nat
  offset : Nat
  size : Nat
  count : Nat
deriving DecidableEq, Repr

/-- An image as it is read: its bytes and the header fields that say how to read them. -/
structure Source where
  bytes : Array Byte
  gen : Nat
  models : Nat
  segs : List SegEntry

/-- Header fields (R268). -/
def hdrMagic (b : Array Byte) : Nat := rd b 0 4
def hdrGen (b : Array Byte) : Nat := rd b 4 1
def hdrSegs (b : Array Byte) : Nat := rd b 6 1
def hdrModels (b : Array Byte) : Nat := rd b 7 1
def hdrCaps (b : Array Byte) : Nat := rd b 8 8
def hdrLength (b : Array Byte) : Nat := rd b 16 4
def hdrBuild (b : Array Byte) : Nat := rd b 24 8
def hdrDigest (b : Array Byte) : List Byte := (List.range 32).map (fun i => b.getD (32 + i) 0)

def segEntryAt (b : Array Byte) (i : Nat) : SegEntry :=
  let o := 64 + 16 * i
  ⟨rd b o 1, rd b (o + 1) 3, rd b (o + 4) 4, rd b (o + 8) 4, rd b (o + 12) 4⟩

def sourceOf (b : Array Byte) : Source :=
  ⟨b, hdrGen b, hdrModels b, (List.range (hdrSegs b)).map (segEntryAt b)⟩

/-- A segment of a type. -/
def Source.seg (x : Source) (t : Nat) : Option SegEntry := x.segs.find? (fun e => e.type == t)
def Source.off (x : Source) (t : Nat) : Nat := ((x.seg t).map (·.offset)).getD 0
def Source.count (x : Source) (t : Nat) : Nat := ((x.seg t).map (·.count)).getD 0

/-- Cells of a slot and bytes of a row by generation (R270, R285). -/
def Source.slotCells (x : Source) : Nat := if x.gen = 1 then 32 else 64
def Source.rowBytes (x : Source) : Nat := if x.gen = 1 then 16 else 24

/-- Bytes of one array's part of one half in a FRET block (R270). -/
def Source.partBytes (x : Source) : Nat := 2048 + 256 * 8 * x.slotCells

/-! ## Header and segment table -/

/-- The header checks of R268 and R284, and the first case of R283. The segment table is a field of the header, so that its reserved
bits are reserved header fields (R269, R304). -/
def headerFail (b : Array Byte) (descLen cap0 : Nat) : Option LoadFail :=
  let gen := hdrGen b
  let len := hdrLength b
  if hdrMagic b ≠ 0x53464448 then some { status := stLoadBadHeader }
  else if gen = 3 then some { status := stLoadGen, entry := gen }
  else if gen ≠ 1 ∧ gen ≠ 2 then some { status := stLoadBadHeader }
  else if rd b 5 1 ≠ 0 ∨ rd b 20 4 ≠ 0 ∨ 12 < hdrSegs b ∨ 64 < hdrModels b ∨ len ≠ descLen ∨ len % 64 ≠ 0 ∨ len < 256 ∨
      (List.range (hdrSegs b)).any (fun i => (segEntryAt b i).reserved != 0) = true then
    some { status := stLoadBadHeader }
  else
    let missing := hdrCaps b &&& (2 ^ 64 - 1 - cap0)
    if missing ≠ 0 then some { status := stLoadCaps, caps := missing } else none

/-- The bytes that n blocks take, each of a size that its head at its offset gives. -/
def blockBytes (size : Nat → Nat) : Nat → Nat → Nat
  | 0, _ => 0
  | n + 1, off => let k := size off; k + blockBytes size n (off + k)

/-- A bound on the blocks of a segment of a size: a block is a byte at least, and one byte too many is no fit any more. -/
def blocksWithin (size count : Nat) : Nat := min count (size + 1)

/-- Block sizes (R270, R272) by the head at an offset. -/
def Source.maskBlock (x : Source) (o : Nat) : Nat := 8 + 32 * fieldOf (rd x.bytes o 8) 16 11
def Source.fretBlock (x : Source) (o : Nat) : Nat :=
  let h := rd x.bytes o 8
  8 + (1 + fieldOf h 8 1) * 2 ^ fieldOf h 5 3 * x.partBytes
def Source.rowBlock (x : Source) (o : Nat) : Nat := 8 + x.rowBytes * fieldOf (rd x.bytes o 8) 16 15
def Source.scaleBlock (x : Source) (o : Nat) : Nat := 8 + 4 * fieldOf (rd x.bytes o 8) 32 11
def Source.tremoloBlock (x : Source) (o : Nat) : Nat := 16 + 8 * fieldOf (rd x.bytes o 8) 16 9

/-- The size that COUNT and a segment's own heads imply (R271, condition 5). A segment longer than its size reads heads that
are not its own, and its size differs all the same, as does that of more blocks than it has bytes. -/
def Source.impliedSize (x : Source) (e : SegEntry) : Option Nat :=
  let n := blocksWithin e.size e.count
  if e.type = segQuant then (if e.count = 0 ∨ 64 < e.count then none else some (16896 * e.count))
  else if e.type = segCatmask then some (blockBytes x.maskBlock n e.offset)
  else if e.type = segFret then some (blockBytes x.fretBlock n e.offset)
  else if e.type = segBridge then some (blockBytes x.rowBlock n e.offset + 8 * x.models)
  else if e.type = segChord then some (8 * e.count + 8 * x.models)
  else if e.type = segScale then (if e.count ≠ x.models then none else some (blockBytes x.scaleBlock n e.offset))
  else if e.type = segTremolo then some (blockBytes x.tremoloBlock n e.offset)
  else if e.type = segEntmap then (if 16 < e.count then none else some (528 * e.count))
  else
    let h := rd x.bytes e.offset 8
    if fieldOf h 0 13 ≠ e.count then none else some (8 + 24 * e.count + 24 * fieldOf h 16 9 + 8 * x.models)

/-- The first byte that is not zero between two offsets. -/
def firstNonZero (b : Array Byte) (lo hi : Nat) : Option Nat := (List.range' lo (hi - lo)).find? (fun i => b.getD i 0 != 0)

/-- A failure of the segment table. -/
def segFail (entry type : Nat) : LoadFail := { status := stLoadSegTable, entry := entry, segtype := type }

/-- R271, conditions 1 to 7 in order. -/
def segTableFail (b : Array Byte) : Option LoadFail :=
  let x := sourceOf b
  let n := hdrSegs b
  let len := hdrLength b
  let find (bad : Nat → SegEntry → Bool) : Option LoadFail :=
    (((x.segs.mapIdx (fun i e => (i, e))).find? (fun p => bad p.1 p.2)).map (fun p => segFail p.1 p.2.type))
  let prevEnd (i : Nat) : Nat := if i = 0 then 256 else let p := x.segs.getD (i - 1) ⟨0, 0, 0, 0, 0⟩; p.offset + p.size
  let c1 := find (fun i e => e.type == 0 || decide (9 < e.type) || (x.segs.take i).any (fun y => y.type == e.type))
  let c2 := ((List.range 12).find? (fun i => decide (n ≤ i) && rd b (64 + 16 * i) 16 != 0)).map (fun i => segFail i 0)
  let c3 := find (fun _ e => e.offset % 64 != 0 || decide (e.offset < 256))
  let c4 := find (fun i e => decide (e.offset < prevEnd i) || decide (len < e.offset + e.size))
  let c5 := find (fun _ e => x.impliedSize e != some e.size)
  let need := [segQuant, segFret, segBridge, segChord, segScale, segRoute].find? (fun t => (x.seg t).isNone)
  let c6 := if x.models = 0 then none else need.map (fun t => segFail n t)
  let gaps := (List.range (n + 1)).map (fun i => (i, prevEnd i, if i < n then (x.segs.getD i ⟨0, 0, 0, 0, 0⟩).offset else len))
  let c7 := (gaps.find? (fun g => (firstNonZero b g.2.1 g.2.2).isSome)).map (fun g => segFail g.1 0)
  [c1, c2, c3, c4, c5, c6, c7].findSome? id

/-! ## Blocks -/

/-- The offsets of n blocks. -/
def blockOffsets (size : Nat → Nat) : Nat → Nat → List Nat
  | 0, _ => []
  | n + 1, off => off :: blockOffsets size n (off + size off)

/-- A block with its index and offset. -/
def Source.blocks (x : Source) (t : Nat) (size : Nat → Nat) : List (Nat × Nat) :=
  (blockOffsets size (x.count t) (x.off t)).mapIdx (fun i o => (i, o))

/-- The head of a FRET block: block, offset, BASE, arrays, halves and whether its reserved bits are zero. -/
structure FretBlock where
  idx : Nat
  off : Nat
  base : Nat
  log : Nat
  halves : Nat
  clean : Bool
deriving DecidableEq, Repr

def FretBlock.size (f : FretBlock) : Nat := 2 ^ f.log

def Source.frets (x : Source) : List FretBlock :=
  (x.blocks segFret x.fretBlock).map (fun p =>
    let h := rd x.bytes p.2 8
    ⟨p.1, p.2, fieldOf h 0 5, fieldOf h 5 3, 1 + fieldOf h 8 1, fieldOf h 9 55 == 0⟩)

/-- The head of a mask block or a row block. -/
structure ArrayBlock where
  idx : Nat
  off : Nat
  array : Nat
  half : Nat
  n : Nat
  clean : Bool
deriving DecidableEq, Repr

def Source.maskBlocks (x : Source) : List ArrayBlock :=
  (x.blocks segCatmask x.maskBlock).map (fun p =>
    let h := rd x.bytes p.2 8
    ⟨p.1, p.2, fieldOf h 0 5, fieldOf h 5 1, fieldOf h 16 11, fieldOf h 6 10 == 0 && fieldOf h 27 37 == 0⟩)

def Source.rowBlocks (x : Source) : List ArrayBlock :=
  (x.blocks segBridge x.rowBlock).map (fun p =>
    let h := rd x.bytes p.2 8
    ⟨p.1, p.2, fieldOf h 0 5, fieldOf h 5 1, fieldOf h 16 15, fieldOf h 6 10 == 0 && fieldOf h 31 33 == 0⟩)

/-- The FRET block of the group that holds a position. -/
def Source.fretOf (x : Source) (pos : Nat) : Option FretBlock :=
  x.frets.find? (fun f => decide (f.base ≤ pos) && decide (pos < f.base + f.size))

/-- Offset of an array's part of a half in its FRET block. -/
def Source.partOff (x : Source) (f : FretBlock) (half array : Nat) : Nat :=
  f.off + 8 + (half * f.size + (array - f.base)) * x.partBytes

/-- A slot descriptor and a cell entry of an image, as whole words. -/
def Source.descWord (x : Source) (f : FretBlock) (half array slot : Nat) : Nat :=
  rd x.bytes (x.partOff f half array + 8 * slot) 8
def Source.cellWord (x : Source) (f : FretBlock) (half array slot cell : Nat) : Nat :=
  if x.slotCells ≤ cell then 0
  else rd x.bytes (x.partOff f half array + 2048 + 8 * (slot * x.slotCells + cell)) 8

/-- The arrays and halves of a FRET block, in image order. -/
def FretBlock.parts (f : FretBlock) : List (Nat × Nat) :=
  (List.range f.halves).flatMap (fun h => (List.range f.size).map (fun i => (h, f.base + i)))

/-- The descriptor of a slot, of any position. -/
def Source.slotDesc (x : Source) (half array slot : Nat) : BitVec 10 :=
  match x.fretOf array with
  | none => 0
  | some f => if half < f.halves then BitVec.ofNat 10 (x.descWord f half array slot) else 0

/-- A row entry in generation 2 form (R285), with its reserved bits. -/
def Source.rowEntry (x : Source) (k : ArrayBlock) (i : Nat) : ImageRow × Nat :=
  let n := rd x.bytes (k.off + 8 + x.rowBytes * i) x.rowBytes
  if x.gen = 1 then
    let bank := fieldOf n 100 4
    let r := fieldOf n 104 10
    (⟨k.array, k.half, bank, 9 * (r / 8) + r % 8 + 1, 16 * bank + fieldOf n 96 4, BitVec.ofNat 64 (fieldOf n 0 32),
      BitVec.ofNat 64 (fieldOf n 32 32), BitVec.ofNat 32 (fieldOf n 64 32)⟩, fieldOf n 114 14)
  else
    let bank := fieldOf n 164 4
    (⟨k.array, k.half, bank, fieldOf n 168 11, 16 * bank + fieldOf n 160 4, BitVec.ofNat 64 (fieldOf n 0 64),
      BitVec.ofNat 64 (fieldOf n 64 64), BitVec.ofNat 32 (fieldOf n 128 32)⟩, fieldOf n 179 13)

def Source.rowsOf (x : Source) (k : ArrayBlock) : List (ImageRow × Nat) := (List.range k.n).map (x.rowEntry k)

/-! ## Models -/

/-- The CHORD model entries (R125), with their reserved bits. -/
structure ChordModel where
  model : Nat
  vote : Bool
  lanes : Nat
  cert : Nat
  classes : Nat
  clean : Bool
deriving DecidableEq, Repr

def Source.chordModels (x : Source) : List ChordModel :=
  (List.range x.models).map (fun i =>
    let n := rd x.bytes (x.off segChord + 8 * (x.count segChord + i)) 8
    ⟨fieldOf n 0 6, bitOf n 6, fieldOf n 8 5, fieldOf n 16 16, fieldOf n 32 9, fieldOf n 7 1 == 0 && fieldOf n 13 3 == 0 && fieldOf n 41 23 == 0⟩)

/-- CHORD group entries: BASE, log₂ of the arrays, reserved bits zero. -/
def Source.chordGroups (x : Source) : List (Nat × Nat × Bool) :=
  (List.range (x.count segChord)).map (fun i =>
    let n := rd x.bytes (x.off segChord + 8 * i) 8
    (fieldOf n 0 5, fieldOf n 5 3, fieldOf n 8 56 == 0))

/-- The models of the image in ascending number. -/
def Source.modelList (x : Source) : List Nat := (x.chordModels.map (·.model)).mergeSort (· ≤ ·)
def Source.hasModel (x : Source) (m : Nat) : Bool := x.chordModels.any (fun c => c.model == m)
def Source.chordModel (x : Source) (m : Nat) : Option ChordModel := x.chordModels.find? (fun c => c.model == m)

/-- BRIDGE model entries: MODEL, MISS, reserved bits zero; they follow the last row block. -/
def Source.bridgeModels (x : Source) : List (Nat × Bool × Bool) :=
  let e := (x.seg segBridge).getD ⟨0, 0, 0, 0, 0⟩
  (List.range x.models).map (fun i =>
    let n := rd x.bytes (e.offset + e.size - 8 * x.models + 8 * i) 8
    (fieldOf n 0 6, bitOf n 6, fieldOf n 7 57 == 0))

/-- Offset of the SCALE model entry of each model, in ascending model number. -/
def Source.scaleOffs (x : Source) : List (Nat × Nat) :=
  List.zip x.modelList (blockOffsets x.scaleBlock (x.count segScale) (x.off segScale))
def Source.scaleOff (x : Source) (m : Nat) : Option Nat := (x.scaleOffs.find? (fun p => p.1 == m)).map Prod.snd
def Source.scaleGroups (x : Source) (m : Nat) : Nat :=
  ((x.scaleOff m).map (fun o => fieldOf (rd x.bytes o 8) 32 11)).getD 0

/-- TREMOLO model entries: offset, MODEL, COUNT, reserved bits zero. -/
def Source.tremolos (x : Source) : List (Nat × Nat × Nat × Bool) :=
  (blockOffsets x.tremoloBlock (x.count segTremolo) (x.off segTremolo)).map (fun o =>
    let n := rd x.bytes o 8
    (o, fieldOf n 0 6, fieldOf n 16 9, fieldOf n 6 10 == 0 && fieldOf n 25 39 == 0))

/-- A feature entry of a TREMOLO model entry (R254): entry, reserved bits zero. -/
def Source.tremoloFeature (x : Source) (o i : Nat) : Tremolo × Bool :=
  let n := rd x.bytes (o + 16 + 8 * i) 8
  (⟨fieldOf n 0 10, fieldOf n 16 16, fieldOf n 32 15⟩, fieldOf n 10 6 == 0 && fieldOf n 47 17 == 0)

/-! ## Routes -/

/-- Stream entry i of ROUTE (R274): the entry, and whether its reserved bits and codes are clean. -/
def Source.routeEntry (x : Source) (i : Nat) : Route × Bool :=
  let n := rd x.bytes (x.off segRoute + 8 + 24 * i) 24
  ({ stream := fieldOf n 0 12, format := fieldOf n 12 2, pair := fieldOf n 14 2, qtable := fieldOf n 16 6
     markerSet := bitOf n 22, emapEn := bitOf n 23, emap := fieldOf n 24 4, marker := BitVec.ofNat 32 (fieldOf n 32 32)
     partner := fieldOf n 64 12, models := BitVec.ofNat 64 (fieldOf n 128 64) },
   fieldOf n 28 4 == 0 && fieldOf n 76 52 == 0 && fieldOf n 12 2 != 3 && fieldOf n 14 2 != 3)

def Source.routes (x : Source) : List (Route × Bool) := (List.range (x.count segRoute)).map x.routeEntry

/-- Stretch entries in a ROUTE segment. -/
def Source.stretchCount (x : Source) : Nat := fieldOf (rd x.bytes (x.off segRoute) 8) 16 9
def Source.stretchEntry (x : Source) (j : Nat) : Stretch × Bool :=
  let n := rd x.bytes (x.off segRoute + 8 + 24 * (x.count segRoute + j)) 24
  (⟨fieldOf n 0 6, fieldOf n 8 5, BitVec.ofNat 64 (fieldOf n 64 64), BitVec.ofNat 64 (fieldOf n 128 64)⟩,
   fieldOf n 6 2 == 0 && fieldOf n 13 51 == 0)
def Source.stretches (x : Source) : List (Stretch × Bool) := (List.range x.stretchCount).map x.stretchEntry

/-- The cost entry of the k-th model (R274). -/
def Source.costAt (x : Source) (k : Nat) : List Nat :=
  let n := rd x.bytes (x.off segRoute + 8 + 24 * (x.count segRoute + x.stretchCount) + 8 * k) 8
  (List.range 4).map (fun g => fieldOf n (16 * g) 16)

/-- The table of a model (R63): that of the first stream routed to it. -/
def Source.tableOf (x : Source) (m : Nat) : Option Nat :=
  (x.routes.find? (fun r => wbit r.1.models m)).map (fun r => r.1.qtable)

/-- An entry of a quantisation table, raw (R35). -/
def Source.quantEntry (x : Source) (t i : Nat) : BitVec 128 := BitVec.ofNat 128 (rd x.bytes (x.off segQuant + 16896 * t + 16 * i) 16)

/-- KIND of a wide feature in the table of a model, none when no stream routes the model. -/
def Source.kindOf (x : Source) (m f : Nat) : Option Nat := (x.tableOf m).map (fun t => qKind (x.quantEntry t (1024 + f)))

/-- An entry of an entity map (R208). -/
def Source.mapEntry (x : Source) (m i : Nat) : Nat := rd x.bytes (x.off segEntmap + 528 * m + 2 * i) 2

/-! ## Capabilities in use (R283, second case) -/

/-- The slots of an image: block, half, array, slot and descriptor (R58). -/
def Source.allSlots (x : Source) : List (FretBlock × Nat × Nat × Nat × Nat) :=
  x.frets.flatMap (fun f => f.parts.flatMap (fun p => (List.range 256).map (fun sl => (f, p.1, p.2, sl, x.descWord f p.1 p.2 sl))))

/-- The used slots of an image. -/
def Source.slots (x : Source) : List (FretBlock × Nat × Nat × Nat × Nat) := x.allSlots.filter (fun y => bitOf y.2.2.2.2 0)

def Source.anyWideCell (x : Source) : Bool :=
  x.allSlots.any (fun y => (List.range x.slotCells).any (fun c => fieldOf (x.cellWord y.1 y.2.1 y.2.2.1 y.2.2.2.1 c) 0 2 == modeWide))

/-- The capability bits that the image's content uses. -/
def Source.capsUsed (x : Source) : Nat :=
  let wideEntry := (List.range (x.count segQuant)).any (fun t => (List.range 32).any (fun k =>
    let e := qKind (x.quantEntry t (1024 + k)); e == 1 || e == 2))
  let wideMap := (List.range (x.count segEntmap)).any (fun m => (List.range 8).any (fun k => x.mapEntry m (256 + k) != 0xFFFF))
  let all := x.allSlots.any (fun y => bitOf y.2.2.2.2 9)
  let bits := [(3, wideEntry || wideMap || x.anyWideCell), (4, all), (5, x.chordModels.any (fun c => c.cert != 0)),
    (6, (x.seg segTremolo).isSome), (7, x.frets.any (fun f => f.halves == 2)), (8, x.routes.any (fun r => r.1.format == 2)),
    (9, x.routes.any (fun r => r.1.pair == 1 || r.1.pair == 2))]
  bits.foldl (fun n p => n + place (flag p.2) p.1 1) 0

/-! ## Entry checks -/

/-- A LOAD_BAD_ENTRY. -/
def badEntry (seg entry : Nat) : LoadFail := { status := stLoadBadEntry, segtype := seg, entry := entry }

/-- QUANT (R36): every entry of every table. -/
def Source.quantFail (x : Source) : Option LoadFail :=
  (List.range (x.count segQuant)).findSome? (fun t =>
    ((List.range 1056).find? (fun i => !qEntryOk i (x.quantEntry t i))).map (fun i => { badEntry segQuant t with place := i }))

/-- A block of an array's half: its group has the half, and its count lies in range. -/
def Source.arrayBlockOk (x : Source) (k : ArrayBlock) (limit : Nat) : Bool :=
  k.clean && decide (1 ≤ k.n) && decide (k.n ≤ limit) && (x.fretOf k.array).any (fun f => decide (k.half < f.halves))

/-- CATMASK (R270, R272). -/
def Source.maskFail (x : Source) : Option LoadFail :=
  let ks := x.maskBlocks
  (ks.find? (fun k => !x.arrayBlockOk k 1024 ||
    (ks.take k.idx).any (fun y => decide (2 * k.array + k.half ≤ 2 * y.array + y.half)))).map (fun k =>
      { badEntry segCatmask k.idx with array := k.array, half := k.half })

/-- Masks of an array's half. -/
def Source.maskCount (x : Source) (half array : Nat) : Nat :=
  ((x.maskBlocks.find? (fun k => k.half == half && k.array == array)).map (·.n)).getD 0
def Source.maskBits (x : Source) (half array m : Nat) : BitVec 256 :=
  match x.maskBlocks.find? (fun k => k.half == half && k.array == array) with
  | some k => if m < k.n then BitVec.ofNat 256 (rd x.bytes (k.off + 8 + 32 * m) 32) else 0
  | none => 0

/-- R63, R64, R79 for a WIDE cell of a model. -/
def Source.wideCellOk (x : Source) (m c : Nat) (word mate : Nat) : Bool :=
  let f := fieldOf word 4 10
  let lo := if c % 2 = 0 then word else mate
  let hi := if c % 2 = 0 then mate else word
  let t := BitVec.ofNat 32 (fieldOf lo 16 16 + 65536 * fieldOf hi 16 16)
  x.gen != 1 && fieldOf mate 0 2 == modeWide && fieldOf mate 4 10 == f && bitOf mate 2 == bitOf word 2 &&
    fieldOf word 32 10 == 0 && decide (f < 32) &&
    (match x.kindOf m f with
      | none => true
      | some k => (k == 1 || k == 2) && !wideMissing t k)

/-- R79 for cell c of a slot, by its word and its pair's. -/
def Source.cellOk (x : Source) (m half array c word mate : Nat) : Bool :=
  let mode := fieldOf word 0 2
  bitOf word 3 == false && fieldOf word 14 2 == 0 && fieldOf word 42 22 == 0 &&
    (if mode = modeOff then word == 0
     else if mode = modeNarrow then fieldOf word 32 10 == 0
     else if mode = modeCat then fieldOf word 16 16 == 0 && decide (fieldOf word 32 10 < x.maskCount half array)
     else x.wideCellOk m c word mate)

/-- R79 for one slot: the cell at fault, or 64 for the descriptor. -/
def Source.slotFault (x : Source) (f : FretBlock) (half array sl : Nat) : Option Nat :=
  let d := x.descWord f half array sl
  let w (c : Nat) : Nat := x.cellWord f half array sl c
  if fieldOf d 10 54 ≠ 0 ∨ (x.gen = 1 ∧ bitOf d 9 = true) then some 64
  else if bitOf d 0 = false then (List.range x.slotCells).find? (fun c => w c != 0)
  else if x.hasModel (fieldOf d 1 6) = false then some 64
  else (List.range x.slotCells).find? (fun c => !x.cellOk (fieldOf d 1 6) half array c (w c) (w (c / 2 * 2 + 1 - c % 2)))

/-- A FRET block's head (R126, R272). -/
def Source.fretHeadOk (x : Source) (f : FretBlock) : Bool :=
  f.clean && decide (f.log ≤ 5) && f.base % f.size == 0 && decide (f.base + f.size ≤ 32) && (x.gen != 1 || f.halves == 1) &&
    (x.chordGroups.any (fun g => g.1 == f.base && g.2.1 == f.log)) &&
    !((x.frets.take f.idx).any (fun y => decide (y.base < f.base + f.size) && decide (f.base < y.base + y.size)))

/-- FRET (R79). -/
def Source.fretFail (x : Source) : Option LoadFail :=
  x.frets.findSome? (fun f =>
    if x.fretHeadOk f = false then some { badEntry segFret f.idx with array := f.base }
    else f.parts.findSome? (fun p => (List.range 256).findSome? (fun sl =>
      (x.slotFault f p.1 p.2 sl).map (fun c =>
        { badEntry segFret f.idx with array := p.2, half := p.1, slot := sl, place := c }))))

/-- R52, R107 for a payload of a model of an image. -/
def Source.payloadOk (x : Source) (m : Nat) (p : Word32) : Bool :=
  match x.chordModel m with
  | none => false
  | some c =>
    let k := payKind p
    if k = kindScore then !c.vote && decide (payLane p < c.lanes) && decide (payScale p < x.scaleGroups m)
    else if k = kindVote then c.vote && fieldOf p.toNat 24 6 == 0 && decide (payClass p < c.classes)
    else k == kindHandOff && fieldOf p.toNat 8 22 == 0

/-- R72, R92, R107 for a row, with the row before it in its block. -/
def Source.rowOk (x : Source) (r : ImageRow) (reserved : Nat) (before : Option ImageRow) : Bool :=
  let d := x.slotDesc r.half r.array r.slot
  let rising := before.all (fun b => decide (b.bank * 2048 + b.row < r.bank * 2048 + r.row))
  reserved == 0 && rising && (r.key &&& ~~~r.care) == 0 && decide (r.row < 1152) && !reserveRow r.row && descUsed d &&
    x.payloadOk (descSlotModel d) r.payload &&
    (payKind r.payload != kindHandOff || handOffOk d (x.slotDesc r.half r.array (payTarget r.payload)))

/-- A failure at a BRIDGE row (R513). -/
def rowFail (k : ArrayBlock) (r : ImageRow) : LoadFail :=
  { badEntry segBridge k.idx with array := r.array, half := r.half, bank := r.bank, slot := r.slot, place := r.row }

/-- The first row at fault in a block. -/
def Source.rowsFail (x : Source) (k : ArrayBlock) : Option ImageRow → List (ImageRow × Nat) → Option LoadFail
  | _, [] => none
  | prev, (r, res) :: rs => if x.rowOk r res prev then x.rowsFail k (some r) rs else some (rowFail k r)

/-- Every used slot has a row (R92): the first that has none. -/
def Source.rowlessFail (x : Source) : Option LoadFail :=
  let slotsWith := x.rowBlocks.map (fun k => (k, (x.rowsOf k).map (fun r => r.1.slot)))
  (x.slots.find? (fun y => !(slotsWith.any (fun k => k.1.half == y.2.1 && k.1.array == y.2.2.1 && k.2.contains y.2.2.2.1)))).map
    (fun y =>
      let k := x.rowBlocks.find? (fun k => k.half == y.2.1 && k.array == y.2.2.1)
      { badEntry segBridge ((k.map (·.idx)).getD 0) with
        array := y.2.2.1, half := y.2.1, bank := y.2.2.2.1 / 16, slot := y.2.2.2.1 })

/-- BRIDGE (R92): row blocks, then model entries. -/
def Source.bridgeFail (x : Source) : Option LoadFail :=
  let blockFail (k : ArrayBlock) : Option LoadFail :=
    let twice := (x.rowBlocks.take k.idx).any (fun y => y.half == k.half && y.array == k.array)
    if x.arrayBlockOk k 16384 = false ∨ twice = true then some { badEntry segBridge k.idx with array := k.array, half := k.half }
    else x.rowsFail k none (x.rowsOf k)
  let ms := x.bridgeModels
  let modelFail := ((List.range ms.length).find? (fun i => match ms[i]? with
    | none => false
    | some m => !(m.2.2 && x.hasModel m.1) || (ms.take i).any (fun y => y.1 == m.1))).map (fun i =>
      badEntry segBridge (x.count segBridge + i))
  ((x.rowBlocks.findSome? blockFail).or x.rowlessFail).or modelFail

/-- CHORD (R126).
Groups are aligned and do not overlap, and each model lies in its groups whole (R19, R20). -/
def Source.chordFail (x : Source) : Option LoadFail :=
  let gs := x.chordGroups
  let groupBad (i : Nat) : Bool := match gs[i]? with
    | none => false
    | some g =>
      let n := 2 ^ g.2.1
      !(g.2.2 && decide (g.2.1 ≤ 5) && g.1 % n == 0 && decide (g.1 + n ≤ 32)) ||
        (gs.take i).any (fun y => decide (y.1 < g.1 + n) && decide (g.1 < y.1 + 2 ^ y.2.1))
  let ms := x.chordModels
  let modelBad (i : Nat) : Bool := match ms[i]? with
    | none => false
    | some c =>
      let ok := if c.vote then decide (1 ≤ c.classes) && decide (c.classes ≤ 256) && c.lanes == 0 && c.cert == 0
        else decide (1 ≤ c.lanes) && decide (c.lanes ≤ 16) && c.classes == 0 && decide (ones 16 c.cert ≤ 4) && c.cert >>> c.lanes == 0
      !(ok && c.clean && (x.gen != 1 || c.cert == 0)) || (ms.take i).any (fun y => y.model == c.model)
  match (List.range gs.length).find? groupBad with
  | some i => some (badEntry segChord i)
  | none => ((List.range ms.length).find? modelBad).map (fun i => badEntry segChord (gs.length + i))

/-- SCALE (R51, R52, R301). -/
def Source.scaleFail (x : Source) : Option LoadFail :=
  x.scaleOffs.findSome? (fun p =>
    let n := rd x.bytes p.2 8
    let g := fieldOf n 32 11
    let vote := (x.chordModel p.1).any (·.vote)
    if positiveNormal (BitVec.ofNat 32 (fieldOf n 0 32)) = false ∨ g = 0 ∨ 1024 < g ∨ fieldOf n 43 21 ≠ 0 ∨ (vote = true ∧ g ≠ 1) then
      some { badEntry segScale p.1 with place := 0x7FF }
    else ((List.range g).find? (fun i => fieldOf (rd x.bytes (p.2 + 8 + 4 * i) 4) 8 8 != 0)).map (fun i =>
      { badEntry segScale p.1 with place := i }))

/-- TREMOLO (R255). A generation 1 image holds no such segment (R285). -/
def Source.tremoloFail (x : Source) : Option LoadFail :=
  let ts := x.tremolos
  let one (i : Nat) : Option LoadFail := match ts[i]? with
    | none => none
    | some (o, m, n, clean) =>
      if !clean || !x.hasModel m || decide (256 < n) || (ts.take i).any (fun y => y.2.1 == m) then
        some { badEntry segTremolo m with place := 0x7FF }
      else ((List.range n).find? (fun k =>
        let e := x.tremoloFeature o k
        !e.2 || (k != 0 && decide (e.1.feature ≤ (x.tremoloFeature o (k - 1)).1.feature)))).map (fun k =>
          { badEntry segTremolo m with place := k })
  if x.gen = 1 ∧ (x.seg segTremolo).isSome = true then some { badEntry segTremolo 0 with place := 0x7FF }
  else (List.range ts.length).findSome? one

/-- ENTMAP (R208, R209). -/
def Source.entmapFail (x : Source) : Option LoadFail :=
  (List.range (x.count segEntmap)).findSome? (fun m =>
    let tables := (x.routes.filter (fun r => r.1.emapEn && r.1.emap == m)).map (fun r => r.1.qtable)
    ((List.range 264).find? (fun i =>
      let v := x.mapEntry m i
      if v = 0xFFFF then false
      else
        let wide := decide (256 ≤ i)
        let same := (List.range i).any (fun k => decide (256 ≤ k) == wide && x.mapEntry m k == v)
        let es := tables.map (fun t => x.quantEntry t (if wide then 1024 + v else v))
        decide ((if wide then 32 else 1024) ≤ v) || same || es.any (fun e => e != es.headD 0) ||
          (wide && es.any (fun e => qKind e != 1 && qKind e != 2)))).map (fun i => { badEntry segEntmap m with place := i }))

/-- R275 for a stream entry, with those before it. -/
def Source.routeOk (x : Source) (i : Nat) (r : Route) (clean : Bool) : Bool :=
  let before := (x.routes.take i).map Prod.fst
  let mapWide := r.emapEn && (List.range 8).any (fun k => x.mapEntry r.emap (256 + k) != 0xFFFF)
  let rising := before.getLast?.all (fun p => decide (p.stream < r.stream))
  let format :=
    if r.format = 1 then decide (r.stream ≤ 1023) && r.pair == 0 && !mapWide
    else if r.format = 2 then r.pair == 0 && !r.markerSet && x.gen != 1
    else true
  let pair :=
    if r.pair = 0 then true
    else r.format == 0 && x.gen != 1 && (x.routes.any (fun p => p.1.stream == r.partner && p.1.format == 0 &&
        p.1.partner == r.stream && p.1.pair == 3 - r.pair)) &&
      (r.pair != 2 || (r.models == 0 && !r.emapEn && !r.markerSet)) &&
      decide ((before.filter (fun p => p.pair == r.pair)).length < 64)
  let known := (List.range 64).all (fun m => !wbit r.models m || x.hasModel m)
  let tables := (List.range 64).all (fun m => !wbit r.models m || before.all (fun p => !wbit p.models m || p.qtable == r.qtable))
  clean && rising && format && pair && decide (r.qtable < x.count segQuant) &&
    (!r.emapEn || decide (r.emap < x.count segEntmap)) && known && tables

/-- The groups that hold a model, by BASE. -/
def Source.holders (x : Source) (m : Nat) : List Nat :=
  (x.frets.filter (fun f => x.slots.any (fun y => y.1.idx == f.idx && fieldOf y.2.2.2.2 1 6 == m))).map (·.base)

/-- What a group holds of a model, by position within the group (R276): descriptors, cells with the masks they name, and rows. -/
def Source.signature (x : Source) (base m : Nat) : List (Nat × Nat × Nat × Nat × List (Nat × BitVec 256) × List (Nat × Word × Word × Word32)) :=
  (x.slots.filter (fun y => y.1.base == base && fieldOf y.2.2.2.2 1 6 == m)).map (fun y =>
    let (f, half, array, sl, d) := y
    let cells := (List.range 64).map (fun c =>
      let w := x.cellWord f half array sl c
      (w, if fieldOf w 0 2 = modeCat then x.maskBits half array (fieldOf w 32 10) else 0))
    let rows := (x.rowBlocks.filter (fun k => k.half == half && k.array == array)).flatMap (fun k =>
      ((x.rowsOf k).filter (fun r => r.1.slot == sl)).map (fun r => (r.1.row, r.1.key, r.1.care, r.1.payload)))
    (half, array - base, sl, d, cells, rows))

/-- R276 for stretch entry j.
Every group of a stretched model holds the same trees in the same slots (R24). -/
def Source.stretchOk (x : Source) (j : Nat) (e : Stretch) (clean : Bool) : Bool :=
  let all := x.stretches.map Prod.fst
  let prev := if j = 0 then none else all[j - 1]?
  let next := all[j + 1]?
  let first := !(prev.any (fun p => p.model == e.model))
  let hs := x.holders e.model
  let sizes := hs.map (fun b => ((x.frets.find? (fun f => f.base == b)).map (·.log)).getD 0)
  let together := !first || !((all.take j).any (fun p => p.model == e.model))
  let lo := if first then e.lo == 0 else prev.any (fun p => p.hi.toNat + 1 == e.lo.toNat)
  let last := next.any (fun p => p.model == e.model) || e.hi == BitVec.allOnes 64
  let covered := !first || hs.all (fun b => all.any (fun p => p.model == e.model && p.group == b))
  let equal := !first || (sizes.all (fun z => z == sizes.headD 0) &&
    hs.all (fun b => x.signature b e.model == x.signature (hs.headD 0) e.model))
  clean && x.hasModel e.model && together && lo && last && decide (e.lo.toNat ≤ e.hi.toNat) && hs.contains e.group && covered && equal

/-- ROUTE (R275, R276). -/
def Source.routeFail (x : Source) : Option LoadFail :=
  let rs := x.routes
  let ss := x.stretches
  let head := fieldOf (rd x.bytes (x.off segRoute) 8) 13 3 == 0 && fieldOf (rd x.bytes (x.off segRoute) 8) 25 39 == 0 &&
    decide (x.stretchCount ≤ 256) && decide (x.count segRoute ≤ 4096)
  let stream := (List.range rs.length).find? (fun i => rs[i]?.any (fun r => !x.routeOk i r.1 r.2))
  let stretch := (List.range ss.length).find? (fun j => ss[j]?.any (fun e => !x.stretchOk j e.1 e.2))
  let cost := (x.modelList.mapIdx (fun k m => (k, m))).find? (fun p =>
    let many := decide (1 < (x.holders p.2).length)
    (x.costAt p.1).contains 0 || many != ss.any (fun e => e.1.model == p.2))
  if (x.seg segRoute).isNone then none
  else if !head then some (badEntry segRoute 0)
  else match stream, stretch, cost with
    | some i, _, _ => some (badEntry segRoute (1 + i))
    | none, some j, _ => some (badEntry segRoute (1 + rs.length + j))
    | none, none, some p => some (badEntry segRoute (1 + rs.length + ss.length + p.2))
    | none, none, none => none

/-- Every entry check of step 2 of R287, segment after segment. The spec gives these checks no order among the segments. -/
def Source.entryFail (x : Source) : Option LoadFail :=
  [x.quantFail, x.maskFail, x.fretFail, x.bridgeFail, x.chordFail, x.scaleFail, x.tremoloFail, x.entmapFail, x.routeFail].findSome? id

/-! ## The image and its digests -/

/-- The image body (R277): bytes 32 to 63 read as zero. -/
def bodyDigest (b : Array Byte) : List Byte :=
  let l := b.toList
  sha256 (l.take 32 ++ List.replicate 32 0 ++ l.drop 64)

/-- n bytes at an offset. -/
def slice (b : Array Byte) (o n : Nat) : List Byte := (List.range n).map (fun i => b.getD (o + i) 0)

/-- Models with slots in a FRET block, in ascending number. -/
def Source.modelsIn (x : Source) (f : FretBlock) : List Nat :=
  x.modelList.filter (fun m => x.slots.any (fun y => y.1.idx == f.idx && fieldOf y.2.2.2.2 1 6 == m))

/-- The byte ranges that a group's digest covers (R288). -/
def Source.groupSpans (x : Source) (f : FretBlock) : List (Nat × Nat) :=
  let inside (k : ArrayBlock) : Bool := decide (f.base ≤ k.array) && decide (k.array < f.base + f.size)
  let ms := x.modelsIn f
  let be := (x.seg segBridge).getD ⟨0, 0, 0, 0, 0⟩
  let at? (xs : List Nat) (o : Nat) : List (Nat × Nat) := (xs.mapIdx (fun i m => (m, o + 8 * i))).filterMap (fun p =>
    if ms.contains p.1 then some (p.2, 8) else none)
  [(f.off, x.fretBlock f.off)] ++ (x.rowBlocks.filter inside).map (fun k => (k.off, x.rowBlock k.off)) ++
    (x.maskBlocks.filter inside).map (fun k => (k.off, x.maskBlock k.off)) ++
    at? (x.chordModels.map (·.model)) (x.off segChord + 8 * x.count segChord) ++
    at? (x.bridgeModels.map Prod.fst) (be.offset + be.size - 8 * x.models) ++
    (x.tremolos.filter (fun t => ms.contains t.2.1)).map (fun t => (t.1, x.tremoloBlock t.1)) ++
    (x.scaleOffs.filter (fun p => ms.contains p.1)).map (fun p => (p.2, x.scaleBlock p.2))

/-- The group digest: the SHA-256 of its items in image order. -/
def Source.groupDigest (x : Source) (f : FretBlock) : List Byte :=
  let spans := (x.groupSpans f).mergeSort (fun a b => a.1 ≤ b.1)
  sha256 (spans.flatMap (fun p => slice x.bytes p.1 p.2))

/-- All that the image says of a model. -/
def Source.modelDef (x : Source) (k : Nat) (c : ChordModel) : ModelDef :=
  let o := (x.scaleOff c.model).getD 0
  let t := x.tremolos.find? (fun y => y.2.1 == c.model)
  { model := c.model, vote := c.vote, lanes := c.lanes, cert := BitVec.ofNat 16 c.cert, classes := c.classes
    missVoid := x.bridgeModels.any (fun b => b.1 == c.model && b.2.1)
    master := BitVec.ofNat 32 (rd x.bytes o 4)
    scale := (List.range (x.scaleGroups c.model)).map (fun i =>
      let n := rd x.bytes (o + 8 + 4 * i) 4
      ⟨BitVec.ofNat 8 (fieldOf n 0 8), BitVec.ofNat 16 (fieldOf n 16 16)⟩)
    seed := BitVec.ofNat 64 ((t.map (fun y => rd x.bytes (y.1 + 8) 8)).getD 0)
    tremolo := match t with
      | none => []
      | some y => (List.range y.2.2.1).map (fun i => (x.tremoloFeature y.1 i).1)
    cost := x.costAt k
    wideKinds := (List.range 32).map (fun f => (x.kindOf c.model f).getD 1) }

/-- The image-wide tables (R294). -/
def Source.tables (x : Source) : Tables where
  quant := (List.range (x.count segQuant)).map (fun t => (List.range 1056).map (x.quantEntry t))
  maps := (List.range (x.count segEntmap)).map (fun m => (List.range 264).map (fun i => BitVec.ofNat 16 (x.mapEntry m i)))
  routes := x.routes.map Prod.fst
  stretches := x.stretches.map Prod.fst
  models := (x.modelList.mapIdx (fun k m => (k, m))).filterMap (fun p => (x.chordModel p.2).map (x.modelDef p.1))
  groups := x.chordGroups.map (fun g =>
    match x.frets.find? (fun f => f.base == g.1) with
    | some f => ⟨g.1, 2 ^ g.2.1, f.halves == 2, x.groupDigest f, x.modelsIn f⟩
    | none => ⟨g.1, 2 ^ g.2.1, false, sha256 [], []⟩)

/-- Index of an image slot and of an image cell (Image.slots, Image.cells). -/
def imageSlotAt (half array slot : Nat) : Nat := (half * 32 + array) * 256 + slot
def imageCellAt (half array slot cell : Nat) : Nat := imageSlotAt half array slot * 64 + cell
def imageMaskAt (half array m : Nat) : Nat := (half * 32 + array) * 1024 + m

/-- An item put into a sparse store unless it is the default. -/
def sparseOf {α : Type} [DecidableEq α] (d : α) (xs : List (Nat × α)) : Sparse α :=
  (xs.filter (fun x => x.2 ≠ d)).mergeSort (fun a b => a.1 ≤ b.1)

/-- Bytes of an array's part of a half (R270). -/
abbrev part2Bytes : Nat := 2048 + 256 * 8 * 64

/-- Where the content of every array stands in an image in generation 2 form. -/
def Source.extents (x : Source) : List Extent :=
  let frets := x.frets.flatMap (fun f => f.parts.mapIdx (fun i p => (⟨f.off + 8 + i * part2Bytes, p.1, p.2, none⟩ : Extent)))
  let rows := x.rowBlocks.map (fun k => (⟨k.off + 8, k.half, k.array, some ((x.rowsOf k).map (fun r => r.1.slot))⟩ : Extent))
  frets ++ rows

/-- The image that a source in generation 2 form holds. -/
def Source.image (x : Source) : Image where
  gen := x.gen
  caps := BitVec.ofNat 64 (hdrCaps x.bytes)
  build := BitVec.ofNat 64 (hdrBuild x.bytes)
  length := hdrLength x.bytes
  digest := hdrDigest x.bytes
  tables := x.tables
  cells := sparseOf 0 (x.slots.flatMap (fun y => (List.range 64).map (fun c =>
    (imageCellAt y.2.1 y.2.2.1 y.2.2.2.1 c, BitVec.ofNat 64 (x.cellWord y.1 y.2.1 y.2.2.1 y.2.2.2.1 c)))))
  slots := sparseOf 0 (x.allSlots.map (fun y => (imageSlotAt y.2.1 y.2.2.1 y.2.2.2.1, BitVec.ofNat 64 y.2.2.2.2)))
  rows := x.rowBlocks.flatMap (fun k => (x.rowsOf k).map Prod.fst)
  masks := sparseOf 0 (x.maskBlocks.flatMap (fun k => (List.range k.n).map (fun m =>
    (imageMaskAt k.half k.array m, x.maskBits k.half k.array m))))
  extents := x.extents

/-! ## Generation 1 images (R285) -/

/-- A row entry of 24 B (R91). -/
def ImageRow.bytes (r : ImageRow) : List Byte :=
  leBytes 24 (place r.key.toNat 0 64 + place r.care.toNat 64 64 + place r.payload.toNat 128 32 + place (r.slot % 16) 160 4 +
    place r.bank 164 4 + place r.row 168 11)

/-- A segment's bytes in generation 2 form: slots with cells 32 to 63 OFF, and rows of 24 B. -/
def Source.mappedSeg (x : Source) (e : SegEntry) : List Byte :=
  if e.type = segFret then
    x.frets.flatMap (fun f => slice x.bytes f.off 8 ++ f.parts.flatMap (fun p =>
      let o := x.partOff f p.1 p.2
      slice x.bytes o 2048 ++ (List.range 256).flatMap (fun sl => slice x.bytes (o + 2048 + 256 * sl) 256 ++ List.replicate 256 0)))
  else if e.type = segBridge then
    x.rowBlocks.flatMap (fun k => slice x.bytes k.off 8 ++ (x.rowsOf k).flatMap (fun r => r.1.bytes)) ++
      slice x.bytes (e.offset + e.size - 8 * x.models) (8 * x.models)
  else slice x.bytes e.offset e.size

/-- Zero bytes up to the next multiple of 64. -/
def padded64 (bs : List Byte) : List Byte := bs ++ List.replicate ((64 - bs.length % 64) % 64) 0

/-- Segments in generation 2 form, one after the other from an offset: their table entries and their bytes. -/
def Source.mappedSegs (x : Source) : Nat → List SegEntry → List Byte × List Byte
  | _, [] => ([], [])
  | off, e :: es =>
    let bs := x.mappedSeg e
    let (table, rest) := x.mappedSegs (off + (padded64 bs).length) es
    (leBytes 16 (place e.type 0 8 + place off 32 32 + place bs.length 64 32 + place e.count 96 32) ++ table, padded64 bs ++ rest)

/-- An image in generation 2 form (R285): a generation 1 image is mapped, with its segments one after the other at multiples of 64
(log entry 38). -/
def Source.mapped (x : Source) : Source :=
  if x.gen ≠ 1 then x
  else
    let (table, body) := x.mappedSegs 256 x.segs
    let length := leBytes 4 (256 + body.length)
    let head := slice x.bytes 0 4 ++ [2] ++ slice x.bytes 5 11 ++ length ++ slice x.bytes 20 44
    sourceOf (head ++ table ++ List.replicate (192 - table.length) 0 ++ body).toArray

/-- The image that the engine holds of a source. -/
def Source.held (x : Source) : Image := { x.mapped.image with gen := x.gen }

end Sys2Proof.Machine
end

