-- ==== Sys2Proof/Machine/Place.lean ====
section
/-! DEFINITION. The content of planes: what an array must hold by the harness copy, the journal and the move map (R67, R93, R119,
R273, R292, R295, R417), and how it is written there, for a load, a Remount, a reload and a Tandem copy. -/

namespace Sys2Proof.Machine

/-! ## Planes -/

/-- The planes of a group that are in service (R357). -/
def Group.planes (g : Group) : List Bool := if g.dbl then [false, true] else [g.plane]

/-- The planes at which a group's image places stand: a Double refold has moved slots into the other plane (R413). -/
def Group.imagePlanes (g : Group) : List Bool := if g.dbl && !g.refold then [false, true] else [g.plane]

/-- R273: the half that a plane of a group holds. -/
def Group.halfOf (g : Group) (plane : Bool) : Nat := if g.dbl && !g.refold then flag plane else 0

/-- The area of the harness copy that holds a group's image: that of the former image for an ended group (R357). -/
def State.areaOf (s : State) (g : Group) : Option HarnessArea := if g.ended then s.img.former else s.img.live

/-- The position whose content a position holds: that of its primary for a twin (R423). -/
def State.primaryOf (s : State) (pos : Nat) : Nat :=
  if 16 ≤ pos && (s.groupsAt (pos - 16)).any (·.tandem) then pos - 16 else pos

/-- The positions that hold the content of a position: itself, and its twin (R424). -/
def State.copiesOf (s : State) (pos : Nat) : List Nat :=
  (s.copyOffsets pos).map (pos + ·)

/-- R357: the planes in service at a position, each with its group. -/
def State.planesAt (s : State) (pos : Nat) : List (Group × Bool) :=
  (s.groupsAt (s.primaryOf pos)).flatMap (fun g => g.planes.map (fun π => (g, π)))

/-! ## Rows of an image under its journal -/

/-- R119: one journal entry applied to the rows of its array and half. -/
def applyEntry (half : Nat) (rows : List ImageRow) (e : PatchEntry) : List ImageRow :=
  let same (r : ImageRow) : Bool := r.slot == e.slotNo && r.row == e.row
  if e.op = patchDelete then rows.filter (fun r => !same r)
  else
    let new : ImageRow := ⟨e.array, half, e.bank, e.row, e.slotNo, e.key, e.care, e.payload⟩
    rows.filter (fun r => !same r) ++ [new]

/-- R119: the rows of an array and half at a patch generation. -/
def HarnessArea.rowsAt (a : HarnessArea) (g : Group) (plane : Bool) (gen pos : Nat) : List ImageRow :=
  let half := g.halfOf plane
  let image := a.image.rows.filter (fun r => r.array == pos && r.half == half)
  let es := a.journal.filter (fun e => e.base == g.base && decide (e.gen ≤ gen) && e.entry.array == pos && e.entry.plane == plane)
  es.foldl (fun rs e => applyEntry half rs e.entry) image

/-! ## Clearing a plane -/

/-- A plane of an array without content: cells OFF, slots unused, rows free, scale entries free (R110, R290). -/
def Arrays.clearPlane (a : Arrays) (pos phys : Nat) (plane : Bool) : Arrays :=
  let lo := descAt phys plane 0
  let keep (lo hi k : Nat) : Bool := !(decide (lo ≤ k) && decide (k < hi))
  let rlo := rowAt phys 0 0
  let slo := scaleAt phys 0
  { a with
    cells := a.cells.filter (fun x => keep (lo * 64) ((lo + 256) * 64) x.1)
    descs := a.descs.filter (fun x => keep lo (lo + 256) x.1)
    maskUse := a.maskUse.filter (fun x => !(x.pos == pos && x.plane == plane))
    rows := a.rows.map (fun x => if keep rlo (rlo + 18432) x.1 || x.2.plane != plane then x else (x.1, x.2.invalidate))
    scales := a.scales.filter (fun x => keep slo (slo + 2048) x.1 || !(x.2.any (fun y => y.plane == plane)))
    reserved := a.reserved.filter (fun k => keep rlo (rlo + 18432) k || (sget freeRow a.rows k).plane != plane) }

/-! ## Writing slots -/

/-- R67: the physical mask that holds an image mask for the cells of a plane at a position: the one in use, or the lowest that no
cell at the position references.
A mask that a cell of a live plane references is never written (R68). -/
def Arrays.maskFor (a : Arrays) (pos : Nat) (plane : Bool) (fromPos m : Nat) : Nat :=
  match a.maskUse.find? (fun u => u.pos == pos && u.plane == plane && u.fromPos == fromPos && u.mask == m) with
  | some u => u.phys
  | none => (lowestFree 1024 ((a.maskUse.filter (fun u => u.pos == pos)).map (·.phys))).getD 0

/-- The 42-bit configuration of an image cell, with its mask number on the array (R57, R67). -/
def cellConfig (w : Word) (mask : Nat) : BitVec 42 :=
  let c : BitVec 42 := w.setWidth 42
  if cellMode c = modeCat then BitVec.ofNat 42 (c.toNat - place (cellMask c) 32 10 + place mask 32 10) else c

/-- A mask of an image. -/
def Image.mask (i : Image) (half pos m : Nat) : BitVec 256 := sget 0 i.masks (imageMaskAt half pos m)
def Image.slotWord (i : Image) (half pos slot : Nat) : Word := sget 0 i.slots (imageSlotAt half pos slot)
def Image.cellWord (i : Image) (half pos slot c : Nat) : Word := sget 0 i.cells (imageCellAt half pos slot c)

/-- Where an image slot is written: image, half, image place, and its present place with the array that serves it. -/
structure SlotWrite where
  img : Image
  half : Nat
  home : Home
  pos : Nat
  plane : Bool
  slot : Nat
  phys : Nat

/-- One cell of a slot, with its mask. -/
def Arrays.writeCell (a : Arrays) (x : SlotWrite) (c : Nat) : Arrays :=
  let w := x.img.cellWord x.half x.home.pos x.home.slot c
  let cfg : BitVec 42 := w.setWidth 42
  let put (b : Arrays) (v : BitVec 42) : Arrays :=
    { b with cells := sset offCell b.cells (cellAt x.phys x.plane x.slot c) (storeCell v) }
  if cellMode cfg = modeCat then
    let m := cellMask cfg
    let n := a.maskFor x.pos x.plane x.home.pos m
    let u : MaskUse := ⟨x.pos, x.plane, x.home.pos, m, n⟩
    let b := { a with
      maskUse := if a.maskUse.contains u then a.maskUse else a.maskUse ++ [u]
      masks := sset 0 a.masks (maskAt x.phys n) (x.img.mask x.half x.home.pos m) }
    put b (cellConfig w n)
  else put a cfg

/-- A slot's descriptor and its 64 cells. -/
def Arrays.writeSlot (a : Arrays) (x : SlotWrite) : Arrays :=
  let d := BitVec.ofNat 10 (x.img.slotWord x.half x.home.pos x.home.slot).toNat
  (List.range 64).foldl (fun b c => b.writeCell x c)
    { a with descs := sset 0 a.descs (descAt x.phys x.plane x.slot) d }

/-! ## Scale entries -/

/-- R295: the scale entries of the score models with leaves on an array, held for a plane, in the lowest free places. -/
def Arrays.writeScales (a : Arrays) (phys : Nat) (plane : Bool) (models : List ModelDef) : Arrays :=
  let held := (a.usedSlots phys plane).map (fun x => descSlotModel x.2)
  let want := (models.filter (fun m => !m.vote && held.contains m.model)).flatMap (fun m =>
    m.scale.mapIdx (fun i e => (⟨plane, m.model, i, e⟩ : ScaleItem)))
  let lo := scaleAt phys 0
  want.foldl (fun b it =>
    let mine := sparseRange b.scales lo (lo + 2048)
    if mine.any (fun x => x.2.any (fun y => y.plane == plane && y.model == it.model && y.group == it.group)) then b
    else match lowestFree 2048 (mine.map (fun x => x.1 - lo)) with
      | none => b
      | some k => { b with scales := sset none b.scales (scaleAt phys k) (some it) }) a

/-! ## Filling a position -/

/-- The used slots of an image in the positions of a group, for one half: position and slot. -/
def Image.groupSlots (i : Image) (half base size : Nat) : List (Nat × Nat) :=
  ((sparseRange i.slots (imageSlotAt half base 0) (imageSlotAt half (base + size) 0)).filter (fun x => x.2.getLsbD 0)).map
    (fun x => (x.1 / 256 % 32, x.1 % 256))

/-- The slots of an image that are not used but have fields in their descriptors (R58). -/
def Image.idleSlots (i : Image) (half base size : Nat) : List (Nat × Nat) :=
  ((sparseRange i.slots (imageSlotAt half base 0) (imageSlotAt half (base + size) 0)).filter (fun x => !x.2.getLsbD 0)).map
    (fun x => (x.1 / 256 % 32, x.1 % 256))

/-- A retired slot is never written again, nor is a retired row (R408). -/
def Arrays.slotRetired (a : Arrays) (phys slot : Nat) : Bool := a.retiredSlots.contains (phys * 256 + slot)
def Arrays.rowRetired (a : Arrays) (phys bank r : Nat) : Bool := a.retiredRows.contains (rowAt phys bank r)

/-- R93, R110, R417: everything of an image plane of a group that stands at a position, written to an array that serves it:
slots with their cells and masks, the descriptors of slots not in use, rows in the order of their numbers, scale entries. -/
def Arrays.fill (a : Arrays) (img : Image) (rows : List ImageRow) (half base size : Nat) (plane : Bool) (pos phys : Nat) :
    Arrays :=
  let here := (img.groupSlots half base size).filterMap (fun x =>
    let (q, π, t) := a.present x.1 plane x.2
    if q = pos ∧ a.slotRetired phys t = false then some (⟨img, half, ⟨x.1, plane, x.2⟩, pos, π, t, phys⟩ : SlotWrite) else none)
  let idle := (img.idleSlots half base size).filter (fun x => x.1 == pos && !a.slotRetired phys x.2 &&
    a.present x.1 plane x.2 == (x.1, plane, x.2) && !here.any (fun w => w.plane == plane && w.slot == x.2))
  let a0 := idle.foldl (fun (b : Arrays) x =>
    { b with descs := sset 0 b.descs (descAt phys plane x.2) ((img.slotWord half x.1 x.2).setWidth 10) }) a
  let a1 := here.foldl Arrays.writeSlot a0
  let mine := rows.filter (fun r =>
    let (q, _, t) := a.present r.array plane r.slot
    q == pos && !a.slotRetired phys t)
  let made := mine.map (fun r =>
    ((a.present r.array plane r.slot).2.2 / 16, a1.makeRow r.array plane r.slot r.key r.care r.payload r.row))
  let a2 := (List.range 16).foldl (fun b k => b.placeRows phys k ((made.filter (fun x => x.1 == k)).map Prod.snd)) a1
  (here.map (·.plane)).eraseDups.foldl (fun b π => b.writeScales phys π img.tables.models) a2

/-- Rows of every position of a group for one image plane, at a generation. -/
def HarnessArea.groupRows (x : HarnessArea) (g : Group) (plane : Bool) (gen : Nat) : List ImageRow :=
  (List.range g.size).flatMap (fun i => x.rowsAt g plane gen (g.base + i))

/-- R409, R443: an array loaded with everything that stands at a position in the planes in service, each group's rows at the
generation that gen gives it. -/
def State.fillPosition (s : State) (pos phys : Nat) (gen : Group → Nat) : State :=
  let p := s.primaryOf pos
  (s.groupsAt p).foldl (fun (t : State) g =>
    match t.areaOf g with
    | none => t
    | some x =>
      let clear := { g.planes.foldl (fun (a : Arrays) π => a.clearPlane pos phys π) t.arr with maskUse := t.arr.maskUse }
      let full := g.imagePlanes.foldl (fun (a : Arrays) π =>
        a.fill x.image (x.groupRows g π (gen g)) (g.halfOf π) g.base g.size π p phys) clear
      { t with arr := full }) s

/-! ## Placement around retired slots (R295) -/

/-- The slots of a physical array that are retired. -/
def Arrays.retiredOn (a : Arrays) (phys : Nat) : List Nat :=
  (a.retiredSlots.filter (fun k => k / 256 == phys)).map (· % 256)

/-- Load rows of a bank: those not retired. -/
def Arrays.retiredLoadRows (a : Arrays) (phys bank : Nat) : Nat :=
  let lo := rowAt phys bank 0
  (a.retiredRows.filter (fun k => decide (lo ≤ k) && decide (k < lo + 1152) && !reserveRow (k - lo))).length

/-- R295, R408: image slots of a position that fall on retired slots, each moved to the lowest slot that neither the image uses
nor the unit has retired and whose bank has rows for it, or else to the lowest such slot. have gives the load rows of each
bank. -/
def Arrays.avoidRetired (a : Arrays) (img : Image) (half pos : Nat) (plane : Bool) (phys : Nat) (have_ : Nat → Nat) :
    List Move :=
  let used := (img.groupSlots half pos 1).map Prod.snd
  let rows := img.rows.filter (fun r => r.half == half && r.array == pos)
  let rowsOf (sl : Nat) : Nat := (rows.filter (fun r => r.slot == sl)).length
  let ret := a.retiredOn phys
  (used.filter ret.contains).foldl (fun (ms : List Move) sl =>
    let slotNow (x : Nat) : Nat := ((ms.find? (fun m => m.fromSlot == x)).map (·.toSlot)).getD x
    let inBank (k : Nat) : Nat := (rows.filter (fun r => r.slot != sl && slotNow r.slot / 16 == k)).length
    let free := (List.range 256).filter (fun t => !used.contains t && !ret.contains t && !ms.any (fun m => m.toSlot == t))
    let roomy := free.find? (fun t => decide (inBank (t / 16) + rowsOf sl ≤ have_ (t / 16)))
    match roomy.or free.head? with
    | some t => ms ++ [⟨pos, plane, sl, pos, plane, t⟩]
    | none => ms) []

end Sys2Proof.Machine
end

