-- ==== Sys2Proof/Machine/Load.lean ====
section
/-! DEFINITION. Loads of harness images (R279, R286 to R304, R513): the three steps of a LOAD_HARNESS job, the disposition, the fit
check, the load report, and how a pending image is discarded. -/

namespace Sys2Proof.Machine

/-- Active logical positions of the package (R3). -/
def Variant.active : Variant → Nat
  | .v16 => 16
  | .v32 => 32
  | .v32x => 32

/-- SFD_CAP0 (R282). -/
def Variant.cap0 : Variant → Nat
  | .v32x => 0xFFB
  | _ => 0x7FB

/-! ## Disposition (R288) -/

/-- R121: the journal has entries of the group. -/
def State.journalled (s : State) (g : Group) : Bool := s.journal.any (fun e => e.base == g.base)

/-- R288, R416: a live group is kept by a group of the new image. -/
def State.keeps (s : State) (d : GroupDef) (g : Group) : Bool :=
  g.base == d.base && g.size == d.size && (g.dbl && !g.refold) == d.dbl && g.digest == d.digest && !s.journalled g &&
    g.suspended.isEmpty && (List.range g.size).all (fun i => s.inService (g.base + i))

/-- The live group that a group of the new image keeps. -/
def State.keptBy (s : State) (d : GroupDef) : Option Group := (s.group d.base).filter (s.keeps d)

/-- Positions of a group definition. -/
def GroupDef.positions (d : GroupDef) : List Nat := (List.range d.size).map (d.base + ·)

/-- The plane that a new group with one half does not load: the live plane of its lowest position in a live group that is not in
Double, or plane B when it lies in none. -/
def State.busyPlane (s : State) (d : GroupDef) : Bool :=
  match (d.positions.filterMap s.groupAt).find? (fun g => !g.dbl) with
  | some g => g.plane
  | none => true

/-- R288: the lowest position of a new group that has no idle plane to load. -/
def State.noIdle (s : State) (d : GroupDef) : Option Nat :=
  d.positions.find? (fun p => match s.groupAt p with
    | none => false
    | some g => d.dbl || g.dbl || g.plane != s.busyPlane d)

/-- The planes that a load writes at each position of a new group. -/
def State.targetPlanes (s : State) (d : GroupDef) : List Bool := if d.dbl then [false, true] else [!s.busyPlane d]

/-- R288: the disposition of every position that the new image names. -/
def State.dispose (s : State) (t : Tables) : List Disposition :=
  t.groups.flatMap (fun d =>
    let kept := (s.keptBy d).isSome
    d.positions.map (fun p => ⟨p, if kept then [] else s.targetPlanes d, kept⟩))

/-- The groups of an image that its load does not keep. -/
def newGroups (t : Tables) (disp : List Disposition) : List GroupDef :=
  t.groups.filter (fun d => !disp.any (fun x => x.pos == d.base && x.keep))

/-- Planes and halves of a new group: the planes it loads, each with its half. -/
def halvesOf (d : GroupDef) (disp : List Disposition) : List (Nat × Bool) :=
  let planes := ((disp.find? (fun x => x.pos == d.base)).map (·.planes)).getD []
  planes.map (fun π => (if d.dbl then flag π else 0, π))

/-! ## The fit check (R295) -/

/-- A resource record of the load report (R296). -/
structure Resource where
  need : Nat := 0
  avail : Nat := 0
  array : Nat := 0
  bank : Nat := 0
  twoHalves : Bool := false
deriving DecidableEq, Repr

/-- The place where the need is largest relative to what is available, the first of equals. A place that needs nothing and has nothing
is not relative to anything: any need goes before it. -/
def worstPlace (xs : List Resource) : Resource :=
  match xs with
  | [] => {}
  | x :: rest => rest.foldl (fun b y =>
      if b.need * y.avail < y.need * b.avail ∨ (b.need = 0 ∧ b.avail = 0 ∧ 0 < y.need) then y else b) x

/-- The planes at a position that stay live until the Mount. -/
def State.livePlanes (s : State) (pos : Nat) : List Bool := ((s.groupAt pos).map Group.planes).getD []

/-- Load rows of a bank that a load may fill (R295). -/
def State.rowRoom (s : State) (pos bank : Nat) : Nat :=
  let phys := s.physOf pos
  1024 - s.arr.retiredLoadRows phys bank - ((s.livePlanes pos).map (fun π => (s.arr.planeRows phys bank π).length)).sum

/-- The moves around retired slots that the load of a new group makes. -/
def State.placement (s : State) (img : Image) (d : GroupDef) (disp : List Disposition) : List Move :=
  d.positions.flatMap (fun p => (halvesOf d disp).flatMap (fun h =>
    s.arr.avoidRetired img h.1 p h.2 (s.physOf p) (s.rowRoom p)))

/-- Incoming rows of a bank of a position, after the placement. -/
def incomingRows (img : Image) (moves : List Move) (d : GroupDef) (disp : List Disposition) (pos bank : Nat) : Nat :=
  ((halvesOf d disp).map (fun h =>
    (img.rows.filter (fun r => r.half == h.1 && r.array == pos &&
      (((moves.find? (fun m => m.fromPos == pos && m.fromPlane == h.2 && m.fromSlot == r.slot)).map (·.toSlot)).getD r.slot) / 16
        == bank)).length)).sum

/-- Scale entries that the score models with leaves in a position need, over halves. -/
def incomingScales (img : Image) (d : GroupDef) (disp : List Disposition) (pos : Nat) : Nat :=
  ((halvesOf d disp).map (fun h =>
    let held := (img.groupSlots h.1 pos 1).map (fun x => fieldOf (img.slotWord h.1 x.1 x.2).toNat 1 6)
    ((img.tables.models.filter (fun m => !m.vote && held.contains m.model)).map (fun m => m.scale.length)).sum)).sum

/-- Masks of the incoming halves of a position. -/
def incomingMasks (d : GroupDef) (disp : List Disposition) (pos : Nat) (count : Nat → Nat → Nat) : Nat :=
  ((halvesOf d disp).map (fun h => count h.1 pos)).sum

/-- Largest power of two not above a number, 0 for 0. -/
def powerBelow (n : Nat) : Nat := if n = 0 then 0 else 2 ^ Nat.log2 n

/-- R295: the seven resource records. mapped is the length of the image in generation 2 form, masks the masks of a half of a
position. -/
def State.fit (s : State) (img : Image) (disp : List Disposition) (mapped : Nat) (masks : Nat → Nat → Nat) : List Resource :=
  let new := newGroups img.tables disp
  let named := new.flatMap GroupDef.positions
  let bad := named.filter (fun p => !(decide (p < s.pkg.variant.active) && s.inService p))
  let at_ (f : GroupDef → Nat → List Resource) : List Resource := new.flatMap (fun d => d.positions.flatMap (f d))
  let slotsOf (h p : Nat) : Nat := (img.groupSlots h p 1).length
  let trees := (new.map (fun d => (img.groupSlots 0 d.base d.size).length)).sum
  let oneHalf := !new.isEmpty && new.all (fun d => !d.dbl)
  let arrays : Resource := ⟨named.length, named.length - bad.length, (bad.min?).getD 0, 0,
    oneHalf && decide (trees ≤ 512 * powerBelow (named.length - bad.length))⟩
  let slots := at_ (fun d p => (halvesOf d disp).map (fun h =>
    let room := 256 - (s.arr.retiredOn (s.physOf p)).length
    ⟨slotsOf h.1 p, room, p, 0, !d.dbl && decide (slotsOf h.1 p ≤ 2 * room)⟩))
  let rows := new.flatMap (fun d =>
    let moves := s.placement img d disp
    d.positions.flatMap (fun p => (List.range 16).map (fun k => ⟨incomingRows img moves d disp p k, s.rowRoom p k, p, k, false⟩)))
  let live (p : Nat) : List MaskUse := s.arr.maskUse.filter (fun u => u.pos == p && (s.livePlanes p).contains u.plane)
  let cats := at_ (fun d p => [⟨incomingMasks d disp p masks, 1024 - (live p).length, p, 0, false⟩])
  let held (p : Nat) : Nat :=
    let lo := scaleAt (s.physOf p) 0
    ((sparseRange s.arr.scales lo (lo + 2048)).filter (fun x => x.2.any (fun y => (s.livePlanes p).contains y.plane))).length
  let scales := at_ (fun d p => [⟨incomingScales img d disp p, 2048 - held p, p, 0, false⟩])
  let certs := (img.tables.models.map (fun m => ones 16 m.cert.toNat)).sum
  let area := (mapped + 65535) / 65536 * 65536 + 196608
  [arrays, worstPlace slots, worstPlace rows, worstPlace cats, worstPlace scales, ⟨certs, 32, 0, 0, false⟩,
    ⟨2 * area, s.live.hcopyUnits * 65536, 0, 0, false⟩]

/-- A resource falls short. -/
def Resource.short (r : Resource) : Bool := decide (r.avail < r.need)

/-! ## The load report (R296) -/

/-- Report head of 64 B. -/
def reportHead (f : LoadFail) (build : Nat) (digest : List Byte) : List Byte :=
  let n := place f.status 0 16 + place f.segtype 16 8 + place f.entry 32 32 + place f.array 64 5 + place f.half 69 1 +
    place f.bank 70 4 + place f.slot 74 8 + place f.place 82 11 + place f.caps 96 64 + place build 192 64
  leBytes 32 n ++ digest.take 32 ++ List.replicate (32 - digest.length) 0

/-- Resource record of 16 B. -/
def resourceBytes (r : Resource) : List Byte :=
  leBytes 16 (min r.need (2 ^ 32 - 1) + place (min r.avail (2 ^ 32 - 1)) 32 32 + place r.array 64 5 + place r.bank 69 4 +
    place (flag r.twoHalves) 73 1)

/-- The load report of 256 B, with the resource records from step 3 on. -/
def loadReport (f : LoadFail) (build : Nat) (digest records : List Byte) : List Byte :=
  reportHead f build digest ++ records ++ List.replicate (192 - records.length) 0

/-- A load ends: the report and the job entry are written (R287, R304). -/
def State.endLoad (s : State) (l : Load) (f : LoadFail) (build : Nat) (digest records : List Byte) : State :=
  let s1 := s.write l.report (loadReport f build digest records)
  ({ s1 with img := { s1.img with load := none, last := f.status } }).finishJob l.job f.status 0 0

/-! ## Pending images (R290, R291, R406) -/

/-- R290: everything that a pending image has written is discarded. -/
def State.dropPending (s : State) : State :=
  match s.img.pend with
  | none => s
  | some p =>
    let wipe (a : Arrays) (d : Disposition) : Arrays :=
      d.planes.foldl (fun b π =>
        let c := b.clearPlane d.pos (s.physOf d.pos) π
        { c with moves := c.moves.filter (fun m => !(m.fromPos == d.pos && m.fromPlane == π)) }) a
    { s with
      arr := p.disp.foldl wipe s.arr
      img := { s.img with pend := none } }

/-- R291, R406: a pending image is ended by a fault. -/
def State.breakPending (s : State) : State :=
  if s.img.pend.isSome then
    let t := s.dropPending
    ({ t with img := { t.img with last := stLoadInterrupted } }).retarget
  else s

/-- R291: a position is remapped that a load in progress, or the pending image, has written. -/
def State.interruptLoad (s : State) (pos : Nat) : State :=
  let named (ds : List Disposition) : Bool := ds.any (fun d => d.pos == pos && !d.planes.isEmpty)
  let s1 := if s.img.pend.any (fun p => named p.disp) then s.breakPending else s
  match s1.img.load with
  | some l =>
    if l.stage = 2 ∧ named l.disp = true ∧ l.interrupted = none then
      { s1 with img := { s1.img with load := some { l with interrupted := some pos } } }
    else s1
  | none => s1

/-! ## The steps of a load -/

/-- The expected digest, from the shadow (R279). -/
def Staged.expectBytes (c : Staged) : List Byte := c.expect.flatMap (fun w => leBytes 8 w.toNat)

/-- BUILD of a report: zero when the header was refused. -/
def reportBuild (f : LoadFail) (b : Array Byte) : Nat :=
  if f.status = stLoadBadHeader ∨ f.status = stLoadGen then 0 else hdrBuild b

/-- Step 1 of R287: the header and the segment table. -/
def State.loadHeaderCheck (s : State) (b : Array Byte) (len : Nat) : Option LoadFail :=
  (headerFail b len s.pkg.variant.cap0).or (segTableFail b)

/-- LOAD_HARNESS (R287, step 1). -/
def execLoadHarness (job : Nat) (s : State) : Host.Outcome State Fault Refusal :=
  .next (
    match s.openJob job opLoad with
    | none => s
    | some j =>
      if s.memUp = false ∨ j.begun = true then s
      else
        let a := descAddr j.desc
        let len := descLength j.desc
        let b := memSlice s.mem a (max len 256)
        let l : Load := ⟨job, a, len, descDry j.desc, descReport j.desc, 1, memRead s.mem a 256, [], [], [], none⟩
        let s1 := s.modJob job (fun x => { x with begun := true })
        match s1.loadHeaderCheck b len with
        | some f => s1.endLoad l f (reportBuild f b) [] []
        | none => { s1 with img := { s1.img with load := some l } })

/-- The bytes of the first pass: the header as step 1 read it, and the rest as it stands. -/
def State.firstBytes (s : State) (l : Load) : Array Byte :=
  (l.header ++ ((memSlice s.mem l.image l.length).toList.drop 256)).toArray

/-- R279: a digest is the one expected and the one the image names. -/
def State.digestOk (s : State) (b : Array Byte) (d : List Byte) : Bool := d == s.shadow.expectBytes && d == hdrDigest b

/-- The capability bits that an image uses and does not declare (R283, second case). -/
def Source.capsMissing (x : Source) : Nat :=
  let used := x.capsUsed
  used - (used &&& hdrCaps x.bytes)

/-- Step 2 of R287. -/
def State.firstPassFail (s : State) (l : Load) (b : Array Byte) (d : List Byte) : Option LoadFail :=
  let x := sourceOf b
  if s.digestOk b d = false then some { status := stLoadDigest }
  else match s.loadHeaderCheck b l.length with
    | some f => some f
    | none =>
      if x.capsMissing ≠ 0 then some { status := stLoadCaps, caps := x.capsMissing } else x.entryFail

/-- LOAD_FIRST_PASS (R287, steps 2 to 4). -/
def execLoadFirstPass (job : Nat) (s : State) : Host.Outcome State Fault Refusal :=
  .next (
    match s.img.load with
    | none => s
    | some l =>
      if s.memUp = false ∨ l.job ≠ job ∨ l.stage ≠ 1 then s
      else
        let b := s.firstBytes l
        let d := bodyDigest b
        let build := hdrBuild b
        match s.firstPassFail l b d with
        | some f => s.endLoad l f build d []
        | none =>
          let x := (sourceOf b).mapped
          let img := (sourceOf b).held
          let disp := s.dispose img.tables
          let rs := s.fit img disp img.length x.maskCount
          let rec3 := rs.flatMap resourceBytes
          match (img.tables.groups.filter (fun g => (s.keptBy g).isNone)).filterMap s.noIdle with
          | p :: ps => s.endLoad l { status := stLoadNoIdle, array := ps.foldl min p } build d rec3
          | [] =>
            if rs.any Resource.short = true then s.endLoad l { status := stLoadFit } build d rec3
            else if l.dry = true then s.endLoad l { status := stLoadOk } build d rec3
            else
              let l1 := { l with stage := 2, digest := d, records := rec3, disp := disp }
              { s with img := { s.img with load := some l1 } })

/-- R356: retiring tables that no record of the reorder window needs are freed. -/
def State.freeTables (s : State) : State :=
  { s with img := { s.img with
    retiring := s.img.retiring.filter (fun p => s.ing.window.any (fun w => w.tgen == p.1)) } }

/-- Step 5 of R287 for one new group: planes cleared, moves around retired slots made, content written (R67, R80, R93, R110). -/
def State.loadGroup (s : State) (img : Image) (disp : List Disposition) (d : GroupDef) : State :=
  let ms := s.placement img d disp
  let hs := halvesOf d disp
  let cleared := d.positions.foldl (fun (a : Arrays) p => hs.foldl (fun b h => b.clearPlane p (s.physOf p) h.2) a) s.arr
  let a0 : Arrays := { cleared with moves := cleared.moves ++ ms }
  let full := hs.foldl (fun (a : Arrays) h =>
    let rows := img.rows.filter (fun r => r.half == h.1)
    d.positions.foldl (fun (b : Arrays) p => b.fill img rows h.1 d.base d.size h.2 p (s.physOf p)) a) a0
  { s with arr := full }

/-- The load has written the plane that holds a cell of a half. -/
def wroteCell (t : Tables) (disp : List Disposition) (x : Nat × Nat × Nat × Nat) : Bool :=
  (newGroups t disp).any (fun d => d.positions.contains x.1 && (halvesOf d disp).any (fun h => h.1 == x.2.1))

/-- Step 5 and 6 of R287 on the bytes of the second pass.
Only planes that are not live are written (R84). -/
def State.secondPass (s : State) (l : Load) (badCell : Option (Nat × Nat × Nat × Nat)) : State :=
  let b := memSlice s.mem l.image l.length
  let d := bodyDigest b
  let x := (sourceOf b).mapped
  let img := (sourceOf b).held
  let build := hdrBuild b
  let s1 := s.dropPending
  let rs := s1.fit img l.disp img.length x.maskCount
  let now := rs.flatMap resourceBytes
  match l.interrupted with
  | some p => s1.endLoad l { status := stLoadInterrupted, array := p } build l.digest l.records
  | none =>
    if d ≠ l.digest then s1.endLoad l { status := stLoadChanged } build l.digest l.records
    else if s1.digestOk b d = false then s1.endLoad l { status := stLoadDigest } build l.digest l.records
    else if rs.any Resource.short = true then s1.endLoad l { status := stLoadFit } build l.digest now
    else
      match badCell.filter (wroteCell img.tables l.disp) with
      | some (p, h, sl, c) =>
        s1.endLoad l { status := stLoadReadback, array := p, half := h, slot := sl, place := c } build l.digest now
      | none =>
        let s2 := (newGroups img.tables l.disp).foldl (fun (t : State) g => t.loadGroup img l.disp g) s1
        let s3 := ({ s2 with img := { s2.img with pend := some ⟨⟨img, []⟩, l.disp⟩ } }).copyImage (!s2.img.second) x.bytes.toList
        s3.endLoad l { status := stLoadOk } build l.digest now

/-- LOAD_SECOND_PASS (R287, steps 5 and 6). It waits for the retiring tables of R356 and for the planes and the former area that
R357 keeps. -/
def execLoadSecondPass (job : Nat) (badCell : Option (Nat × Nat × Nat × Nat)) (s : State) :
    Host.Outcome State Fault Refusal :=
  .next (
    let s0 := s.freeTables
    match s0.img.load with
    | none => s
    | some l =>
      if s0.memUp = false ∨ l.job ≠ job ∨ l.stage ≠ 2 then s
      else if s0.img.retiring.isEmpty = false ∨ s0.grp.groups.any (·.ended) = true then s
      else (s0.secondPass l badCell).retarget)

end Sys2Proof.Machine
end

