-- ==== Sys2Proof/Machine/Content.lean ====
section
/-! DEFINITION. What every item of an array must hold (R388, R417, R428): the expected content by the harness copy under the journal,
the patch generation and the move map, the restoration of one item, and the relocation of a slot (R408, R412, R413). -/

namespace Sys2Proof.Machine

/-! ## Sources -/

/-- The harness content of an image plane of a position: image, half and rows. -/
structure Content where
  img : Image
  half : Nat
  rows : List ImageRow

/-- The content of an image plane of a position: of the group in whose service it stands (R357), or of the pending image. -/
def State.contentOf (s : State) (pos : Nat) (plane : Bool) : Option Content :=
  match (s.groupsAt pos).find? (fun g => g.imagePlanes.contains plane) with
  | some g => (s.areaOf g).map (fun a => ⟨a.image, g.halfOf plane, a.rowsAt g plane g.gen pos⟩)
  | none =>
    match s.img.pend with
    | none => none
    | some p =>
      if p.disp.any (fun d => d.pos == pos && d.planes.contains plane) then
        let dbl := (p.area.image.tables.groups.find? (fun d => decide (d.base ≤ pos) && decide (pos < d.base + d.size))).any (·.dbl)
        let half := if dbl then flag plane else 0
        some ⟨p.area.image, half, p.area.image.rows.filter (fun r => r.array == pos && r.half == half)⟩
      else none

/-- The content that stands at a place: its image place and what the harness copy has for it. A twin has that of its primary. -/
def State.contentAt (s : State) (pos : Nat) (plane : Bool) (slot : Nat) : Option (Home × Content) :=
  let p := s.primaryOf pos
  let (q, π, sl) := s.arr.imagePlace p plane slot
  if s.arr.present q π sl = (p, plane, slot) then (s.contentOf q π).map (fun c => (⟨q, π, sl⟩, c)) else none

/-- The slot of an image that stands at a place, when it is used. -/
def State.usedAt (s : State) (pos : Nat) (plane : Bool) (slot : Nat) : Option (Home × Content) :=
  (s.contentAt pos plane slot).filter (fun x => bitOf (x.2.img.slotWord x.2.half x.1.pos x.1.slot).toNat 0)

/-- Planes that hold content at a position: those in service and that of a pending image. -/
def State.planesHeld (s : State) (pos : Nat) : List Bool :=
  let p := s.primaryOf pos
  let pend := match s.img.pend with
    | none => []
    | some x => (x.disp.filter (fun d => d.pos == p)).flatMap (·.planes)
  ((s.groupsAt p).flatMap Group.planes ++ pend).eraseDups

/-- R3, R428: an array that runs Curry passes: neither retired nor, on a V3-16, fused off. -/
def State.arrayLive (s : State) (phys : Nat) : Bool :=
  !bitOf s.arr.retired.toNat phys && !(decide (s.pkg.variant.active ≤ phys) && decide (phys < 32))

/-- The position that an array serves, one in service first. A spare array serves none: its own number stands for one that no group
has (log entry 85). -/
def State.servedBy (s : State) (phys : Nat) : Nat :=
  let here (p : Nat) : Bool := s.physOf p == phys
  (((List.range 32).find? (fun p => s.inService p && here p)).or ((List.range 32).find? here)).getD phys

/-! ## Expected items -/

/-- The slot write of content at a place. -/
def slotWriteAt (x : Home × Content) (pos : Nat) (plane : Bool) (slot phys : Nat) : SlotWrite :=
  ⟨x.2.img, x.2.half, x.1, pos, plane, slot, phys⟩

def State.expectCell (s : State) (pos : Nat) (plane : Bool) (slot c : Nat) : StoredCell :=
  match s.contentAt pos plane slot with
  | none => offCell
  | some (h, x) =>
    let w := x.img.cellWord x.half h.pos h.slot c
    storeCell (cellConfig w (s.arr.maskFor (s.primaryOf pos) plane h.pos (cellMask (w.setWidth 42))))

def State.expectDesc (s : State) (pos : Nat) (plane : Bool) (slot : Nat) : BitVec 10 :=
  match s.contentAt pos plane slot with
  | none => 0
  | some (h, x) => (x.img.slotWord x.half h.pos h.slot).setWidth 10

/-- The image mask that a physical mask holds, none for a mask that no cell references. -/
def State.expectMask (s : State) (pos n : Nat) : Option (BitVec 256) :=
  match s.arr.maskUse.find? (fun u => u.pos == s.primaryOf pos && u.phys == n) with
  | none => none
  | some u =>
    let x := (s.contentOf u.fromPos u.plane).or (s.contentOf u.fromPos (!u.plane))
    x.map (fun c => c.img.mask c.half u.fromPos u.mask)

/-- The image row that a physical row holds, by its image place and row number. -/
def State.imageRowOf (s : State) (x : BridgeRow) : Option ImageRow :=
  x.own.bind (fun h => (s.contentOf h.pos h.plane).bind (fun c =>
    c.rows.find? (fun r => r.slot == h.slot && r.row == x.rownum)))

/-- The row a physical place must hold, with its parity, when it holds one. -/
def State.expectRow (s : State) (phys bank r : Nat) : Option BridgeRow :=
  let x := s.arr.row phys bank r
  x.own.bind (fun h => (s.imageRowOf x).map (fun e => s.arr.makeRow h.pos h.plane h.slot e.key e.care e.payload e.row))

/-- The scale entry that an array holds at a place. -/
def State.expectScale (s : State) (pos phys idx : Nat) : Option ScaleItem :=
  (s.arr.scale phys idx).bind (fun it =>
    let p := s.primaryOf pos
    let c := (s.contentOf p it.plane).or (s.contentOf p (!it.plane))
    c.bind (fun x => (x.img.tables.model it.model).bind (fun m => (m.scale[it.group]?).map (fun e => { it with entry := e }))))

/-! ## Comparison of one item (R428) -/

/-- An item of an array. -/
inductive Item where
  | cell (plane : Bool) (slot cell : Nat)
  | desc (plane : Bool) (slot : Nat)
  | mask (n : Nat)
  | row (bank row : Nat)
  /-- Four scale entries from a place. -/
  | scale (idx : Nat)
deriving DecidableEq, Repr

abbrev curryItems : Nat := 53248

/-- R428: item n of the cycle. -/
def curryItem (n : Nat) : Item :=
  if n < 32768 then .cell (decide (16384 ≤ n)) (n / 64 % 256) (n % 64)
  else if n < 33280 then .desc (decide (33024 ≤ n)) (n % 256)
  else if n < 34304 then .mask (n - 33280)
  else if n < 52736 then .row ((n - 34304) / 1152) ((n - 34304) % 1152)
  else .scale (4 * (n - 52736))

/-- Item kind of CURRY_MISMATCH (R431). -/
def Item.kind : Item → Nat
  | .cell _ _ _ => 0
  | .desc _ _ => 1
  | .mask _ => 2
  | .row _ _ => 3
  | .scale _ => 4

/-- An item reads as the harness copy has it. -/
def State.itemOk (s : State) (pos phys : Nat) : Item → Bool
  | .cell π sl c => s.arr.slotRetired phys sl || s.arr.cell phys π sl c == s.expectCell pos π sl c
  | .desc π sl => s.arr.slotRetired phys sl || s.arr.desc phys π sl == s.expectDesc pos π sl
  | .mask n => (s.expectMask pos n).all (· == s.arr.mask phys n)
  | .row k r =>
    s.arr.rowRetired phys k r || s.arr.reserved.contains (rowAt phys k r) ||
      (match s.expectRow phys k r with
        | some x => s.arr.row phys k r == x
        | none => !(s.arr.row phys k r).valid)
  | .scale i => (List.range 4).all (fun k => s.arr.scale phys (i + k) == s.expectScale pos phys (i + k))

/-- R388: an item rewritten from the harness copy. -/
def State.restoreItem (s : State) (pos phys : Nat) : Item → State
  | .cell π sl c =>
    { s with arr := { s.arr with cells := sset offCell s.arr.cells (cellAt phys π sl c) (s.expectCell pos π sl c) } }
  | .desc π sl => { s with arr := { s.arr with descs := sset 0 s.arr.descs (descAt phys π sl) (s.expectDesc pos π sl) } }
  | .mask n =>
    match s.expectMask pos n with
    | none => s
    | some m => { s with arr := { s.arr with masks := sset 0 s.arr.masks (maskAt phys n) m } }
  | .row k r =>
    match s.expectRow phys k r with
    | some x => { s with arr := s.arr.putRow phys k r x }
    | none => { s with arr := s.arr.dropRow phys k r }
  | .scale i =>
    (List.range 4).foldl (fun (t : State) k =>
      { t with arr := { t.arr with scales := sset none t.arr.scales (scaleAt phys (i + k)) (t.expectScale pos phys (i + k)) } }) s

/-! ## Lost items (R406) -/

/-- The number of a harness item: half, position, slot and 0 to 63 for a cell, 64 for the descriptor, 65 for the rows. -/
def harnessItem (half pos slot k : Nat) : Nat := ((half * 32 + pos) * 256 + slot) * 128 + k

/-- An item of the slot that stands at a place is lost. -/
def State.slotLost (s : State) (pos : Nat) (plane : Bool) (slot : Nat) : Bool :=
  match s.usedAt pos plane slot with
  | none => false
  | some (h, c) => s.flt.lostItems.any (fun n => n / 128 == harnessItem c.half h.pos h.slot 0 / 128)

/-! ## Relocation of a slot (R408, R412, R413) -/

/-- Rows of a slot of an image. -/
def Content.rowsOf (c : Content) (h : Home) : List ImageRow := c.rows.filter (fun r => r.slot == h.slot)

/-- The store of an array with the content of a place taken away: cells OFF, the slot unused, its rows free. -/
def Arrays.leave (a : Arrays) (phys : Nat) (plane : Bool) (slot : Nat) (h : Home) : Arrays :=
  let lo := cellAt phys plane slot 0
  let rlo := rowAt phys 0 0
  { a with
    cells := a.cells.filter (fun x => !(decide (lo ≤ x.1) && decide (x.1 < lo + 64)))
    descs := sdel a.descs (descAt phys plane slot)
    rows := a.rows.map (fun x =>
      if rlo ≤ x.1 ∧ x.1 < rlo + 18432 ∧ x.2.own = some h then (x.1, x.2.invalidate) else x) }

/-- R408: the hand-offs to an image slot, in the arrays where they stand, name its present place. -/
def State.renameHandOffs (s : State) (h : Home) : State :=
  let named (x : BridgeRow) : Option ImageRow :=
    if x.own.any (fun o => o.pos == h.pos && o.plane == h.plane) then
      (s.imageRowOf x).filter (fun e => payKind e.payload == kindHandOff && payTarget e.payload == h.slot)
    else none
  let fix (x : Nat × BridgeRow) : Nat × BridgeRow :=
    match named x.2 with
    | none => x
    | some e =>
      let y := { x.2 with payload := s.arr.presentPayload h.pos h.plane e.payload }
      (x.1, { y with p1 := rowP1 y })
  { s with arr := { s.arr with rows := s.arr.rows.map fix } }

/-- The content of an image slot written at its present place on one array. -/
def Arrays.settleSlot (a : Arrays) (x : Home × Content) (pos : Nat) (plane : Bool) (slot phys : Nat) : Arrays :=
  let b := a.writeSlot (slotWriteAt x pos plane slot phys)
  let rows := (x.2.rowsOf x.1).map (fun r => b.makeRow x.1.pos x.1.plane r.slot r.key r.care r.payload r.row)
  (b.placeRows phys (slot / 16) rows).writeScales phys plane x.2.img.tables.models

/-- The content of an image slot moves to another place, on every array that holds a copy of it. -/
def State.relocate (s : State) (x : Home × Content) (pos : Nat) (plane : Bool) (slot : Nat) : State :=
  let h := x.1
  let (q, π, sl) := s.arr.present h.pos h.plane h.slot
  let gone := (s.copiesOf q).foldl (fun (a : Arrays) c => a.leave (s.physOf c) π sl h) s.arr
  let kept := gone.moves.filter (fun m => !(m.fromPos == h.pos && m.fromPlane == h.plane && m.fromSlot == h.slot))
  let a1 : Arrays := { gone with moves := kept ++ [⟨h.pos, h.plane, h.slot, pos, plane, slot⟩] }
  let a2 := (s.copiesOf pos).foldl (fun (a : Arrays) c => a.settleSlot x pos plane slot (s.physOf c)) a1
  ({ s with arr := a2 }).renameHandOffs h

/-- The masks and scale entries that a slot needs on a position fit there. -/
def State.extrasFit (s : State) (x : Home × Content) (pos : Nat) (plane : Bool) : Bool :=
  let cats := (List.range 64).filterMap (fun c =>
    let w : BitVec 42 := (x.2.img.cellWord x.2.half x.1.pos x.1.slot c).setWidth 42
    if cellMode w = modeCat then some (cellMask w) else none)
  let here := s.arr.maskUse.filter (fun u => u.pos == pos)
  let fresh := cats.eraseDups.filter (fun m => !here.any (fun u => u.plane == plane && u.fromPos == x.1.pos && u.mask == m))
  let m := fieldOf (x.2.img.slotWord x.2.half x.1.pos x.1.slot).toNat 1 6
  let groups := ((x.2.img.tables.model m).map (fun d => if d.vote then 0 else d.scale.length)).getD 0
  let lo := scaleAt (s.physOf pos) 0
  let held := sparseRange s.arr.scales lo (lo + 2048)
  let mine := (held.filter (fun y => y.2.any (fun it => it.plane == plane && it.model == m))).length
  decide (here.length + fresh.length ≤ 1024) && decide (held.length + (groups - mine) ≤ 2048)

/-- R408: the lowest slot of a position that no plane of a list uses, that is not retired on any array with a copy nor on those of
a list, and whose bank has free load rows for so many rows. -/
def State.freeSlot (s : State) (pos : Nat) (planes : List Bool) (rows : Nat) (also : List Nat) : Option Nat :=
  (List.range 256).find? (fun t =>
    planes.all (fun π => (s.usedAt pos π t).isNone) && also.all (fun p => !s.arr.slotRetired p t) &&
      (s.copiesOf pos).all (fun c =>
        !s.arr.slotRetired (s.physOf c) t && decide (rows ≤ (s.arr.freeLoadRows (s.physOf c) (t / 16)).length)))

/-- R408: before the content of a position goes onto an array, what stands in slots that are retired there moves to other slots. -/
def State.avoidOn (s : State) (pos phys : Nat) : State :=
  let p := s.primaryOf pos
  (s.arr.retiredOn phys).foldl (fun (t : State) sl =>
    let here := (t.planesHeld p).filterMap (fun π => (t.usedAt p π sl).map (fun x => (π, x)))
    let rows := (here.map (fun y => (y.2.2.rowsOf y.2.1).length)).sum
    if here.isEmpty then t
    else match t.freeSlot p (t.planesHeld p) rows [phys] with
      | some k => here.foldl (fun (u : State) y => u.relocate y.2 p y.1 k) t
      | none => t) s

/-- R424: a twin is freed. -/
def State.freeTwin (s : State) (pos : Nat) : State :=
  let a := [false, true].foldl (fun (b : Arrays) π => b.clearPlane (pos + 16) (s.physOf (pos + 16)) π) s.arr
  { s with arr := a }

/-- The slot of a position is retired on one array. -/
def State.retireSlot (s : State) (phys slot : Nat) : State :=
  { s with arr := { s.arr with retiredSlots := insertNat s.arr.retiredSlots (phys * 256 + slot) } }

end Sys2Proof.Machine
end

