-- ==== Sys2Proof/Machine/Fault.lean ====
section
/-! DEFINITION. The fault manager (R385 to R396, R407 to R429, R433): classification by retry, the failure ladder, Tandem arbitration
and Curry passes. -/

namespace Sys2Proof.Machine

/-! ## Parts (R385) -/

/-- What kind of part a detected error names. -/
inductive PartKind where
  | cell
  | desc
  | mask
  | row
  | scale
  | buffer
  | array
  | pair
deriving DecidableEq, Repr

def Detected.partKind (d : Detected) : PartKind :=
  if d.check = evCellParity then .cell
  else if d.check = evRowCheck then .row
  else if d.check = evFbufParity then .buffer
  else if d.check = evTandem then .pair
  else if d.check = evCurry then
    (if d.detail = 0 then .cell else if d.detail = 1 then .desc else if d.detail = 2 then .mask else if d.detail = 3 then .row
     else .scale)
  else .array

/-- The part of a detected error, by which transient errors are counted (R390): cells per slot, buffers and residues per
array. -/
def Detected.part (d : Detected) : Detected :=
  let n := { Detected.nowhere with phys := d.phys }
  match d.partKind with
  | .cell => { n with check := evCellParity, plane := d.plane, slot := d.slot }
  | .row => { n with check := evRowCheck, bank := d.bank, place := d.place }
  | .desc => { n with check := evCurry, plane := d.plane, slot := d.slot, detail := 1 }
  | .mask => { n with check := evCurry, place := d.place, detail := 2 }
  | .scale => { n with check := evCurry, place := d.place, detail := 4 }
  | .buffer => { n with check := evResidue }
  | .array => { n with check := evResidue }
  | .pair => { Detected.nowhere with check := evTandem, pos := d.pos }

/-- The item of a storage part. -/
def Detected.item (d : Detected) : Option Item :=
  match d.partKind with
  | .cell => some (.cell d.plane d.slot d.place)
  | .desc => some (.desc d.plane d.slot)
  | .mask => some (.mask d.place)
  | .row => some (.row d.bank d.place)
  | .scale => some (.scale d.place)
  | _ => none

/-- The job, the accepted record, its model and its group, of the pass that a detected error stopped, while the record has still to
be scored. -/
def State.workOf (s : State) (d : Detected) : Option (PassRef × Job × Head × ModelDef × Group) :=
  match d.work, s.groupNo d.grp with
  | some w, some g =>
    match s.openPlace w.job w.idx with
    | some (j, h, _) => j.model.map (fun m => (w, j, h, m, g))
    | none => none
  | _, _ => none

/-- R388: the retry rewrites a storage part, from the harness copy or, for a feature buffer place, from the acceptance
buffer. -/
def State.rewritePart (s : State) (d : Detected) : State :=
  match d.item with
  | some i => s.restoreItem d.pos d.phys i
  | none =>
    match (if d.partKind = .buffer then s.workOf d else none) with
    | some (w, j, h, m, _) => { s with arr := s.arr.putBuffer d.phys d.place (h.features m (j.op == opTremolo) w.pass) }
    | none => s

/-! ## The retry (R388, R389) -/

/-- Every search of a pass, link by link, as BRIDGE_SEARCH makes them. -/
def State.searchAll (s : State) (a : Attempt) (m : ModelDef) : Searched :=
  let own := a.words.filter (fun w => decide (w.1 / 256 < a.base + a.size))
  (List.range (16 * a.depth)).foldl (fun (r : Searched) n =>
    own.foldl (fun (r : Searched) w =>
      if w.1 % 16 = n % 16 then
        let t := r.state.searchBoth r.attempt (w.1 / 256) (w.1 % 256 / 16) n m
        { t with fault := r.fault.or t.fault }
      else r) r) ⟨a, s, none⟩

/-- The columns of a pass, and the check that fails there. -/
def State.columnsAll (s : State) (a : Attempt) (m : ModelDef) (ups : List Upset) : Attempt × Option Detected :=
  let vs := (List.range a.size).map (fun i => (a.base + i, s.columnPartials a m i ups))
  ({ a with partials := vs }, (List.range a.size).findSome? (fun i => s.twinFault a m (a.base + i)))

/-- The nodes of one level of the Chord, and the check that fails there. -/
def State.levelAll (s : State) (m : ModelDef) (ups : List Upset) (r : Attempt × Option Detected) (l : Nat) : Attempt × Option Detected :=
  (List.range (r.1.size / 2 ^ l)).foldl (fun (r : Attempt × Option Detected) k =>
    let x := (r.1.nodeAt (l - 1) (2 * k)).getD []
    let y := (r.1.nodeAt (l - 1) (2 * k + 1)).getD []
    let v := chordSum m x y (residueUpsets ups l k)
    ({ r.1 with nodes := r.1.nodes ++ [(l * 32 + k, v)] }, r.2.or (s.nodeFault r.1 m l k x y v))) r

/-- The sums of a pass from its columns to the Tuner and the Tally write: the first check that fails. -/
def State.sumFault (s : State) (a : Attempt) (m : ModelDef) (tremolo : Bool) (ups : List Upset) : Option Detected :=
  let r := ((List.range (chordLevels a.size)).map (· + 1)).foldl (s.levelAll m ups) (s.columnsAll a m ups)
  let tuner := if (List.range m.elements).any (m.tuned tremolo) then s.tunerFault r.1 m tremolo ups else none
  let single := if a.size = 1 then (r.1.badColumn m.standard [0]).map (fun p => s.residuePart r.1 m p 0 0) else none
  (r.2.or tuner).or single

/-- R388: one pass of a record repeated from the acceptance buffer. Its searches count (R502) and may be captured (R508); it writes
no Tally word. -/
def State.repeatPass (s : State) (g : Group) (j : Job) (h : Head) (m : ModelDef) (ups : List Upset) (w : PassRef) :
    State × Option Detected :=
  let tremolo := j.op == opTremolo
  let s1 := (s.loadBuffers g (h.features m tremolo w.pass) []).disturbAll ups
  let a := s1.newAttempt g j h w.idx w.pass w.plane m
  match s1.attemptFault g a m.model with
  | some d => (s1, some d)
  | none =>
    let r := s1.searchAll a m
    (r.state, r.fault.or (r.state.sumFault r.attempt m tremolo ups))

/-- R267: the passes that a retry repeats: every pass of a Tremolo record, in both planes of a group in Double. -/
def Job.retryPasses (j : Job) (g : Group) (w : PassRef) : List PassRef :=
  if j.op = opTremolo then
    (List.range j.k).flatMap (fun p => (if g.dbl then [false, true] else [w.plane]).map (fun π => { w with pass := p, plane := π }))
  else [w]

/-- Passes repeated until one fails. The stored bits are struck once. -/
def State.repeatPasses (s : State) (g : Group) (j : Job) (h : Head) (m : ModelDef) (ups : List Upset) : List PassRef → State × Option Detected
  | [] => (s, none)
  | w :: ws =>
    match s.repeatPass g j h m ups w with
    | (t, some d) => (t, some d)
    | (t, none) => t.repeatPasses g j h m (ups.filter (fun u => match u with | .residue _ _ _ => true | _ => false)) ws

/-- R388: the repeat of the affected work, and the check that fails in it. A Curry comparison reads its item again (R429). -/
def State.retry (s : State) (d : Detected) (ups : List Upset) : State × Option Detected :=
  match d.work with
  | some _ =>
    match s.workOf d with
    | some (w, j, h, m, g) => s.repeatPasses g j h m ups (j.retryPasses g w)
    | none => (s.disturbAll ups, none)
  | none =>
    let s1 := s.disturbAll ups
    (s1, (d.item.filter (fun i => !s1.itemOk d.pos d.phys i)).map (fun _ => d))

/-! ## Suspension (rung 5, R415) -/

/-- Models with a tree at a position, in the planes of a group. -/
def State.modelsAt (s : State) (g : Group) (pos : Nat) : List Nat :=
  (g.planes.flatMap (fun π => (List.range 256).filterMap (fun t =>
    (s.usedAt pos π t).map (fun x => fieldOf (x.2.img.slotWord x.2.half x.1.pos x.1.slot).toNat 1 6)))).eraseDups

/-- R323: the records of suspended models that a group holds and has not settled are voided. -/
def State.voidSuspended (s : State) (g : Group) (ms : List Nat) : State :=
  let begun := g.tremolo.toList.map (fun x => (x.1, x.2.1))
  (g.ready ++ g.marked.map Prod.snd ++ g.run ++ begun).eraseDups.foldl (fun (t : State) x =>
    match t.openPlace x.1 x.2 with
    | some (j, _, _) => if ms.contains j.modelNo then t.voidPlace j x.2 stVoidSuspended false false else t
    | none => t) s

/-- The models are suspended in the group. -/
def State.suspendModels (s : State) (g : Group) (ms : List Nat) : State :=
  (s.voidSuspended g ms).modGroup g.gid (fun x => { x with suspended := ms.foldl insertNat x.suspended })

/-- A position is OUT. -/
def State.putOut (s : State) (pos : Nat) : State :=
  { s with arr := { s.arr with out := s.arr.out ||| BitVec.ofNat 32 (2 ^ pos) } }

/-- A physical array is retired. -/
def State.retireArray (s : State) (phys : Nat) : State :=
  { s with arr := { s.arr with
    retired := s.arr.retired ||| BitVec.ofNat 34 (2 ^ phys)
    buffers := s.arr.buffers.filter (fun x => x.1 / 2 != phys) } }

/-- Rung 5: every model with a tree on the position is suspended in its group. Nothing of the position is served any more. -/
def State.suspendAt (s : State) (pos : Nat) (d : Detected) : State :=
  let gs := s.groupsAt pos
  let n := (gs.flatMap (fun g => s.modelsAt g pos)).eraseDups.length
  let s1 := gs.foldl (fun (t : State) g => t.suspendModels g (s.modelsAt g pos)) s
  ((s1.interruptLoad pos).putOut pos).logEvent evSuspend clsAction 5 d n

/-! ## Remount (rung 3, R409, R410) -/

/-- The part that read-backs of an array count for. -/
def arrayPart (phys : Nat) : Detected := { Detected.nowhere with check := evResidue, phys := phys }

/-- Spare arrays, lowest first. -/
def Arrays.spares (a : Arrays) : List Nat :=
  [32, 33].filter (fun p => !bitOf a.retired.toNat p && !a.map.contains p)

/-- A position served by another array, with everything that stands there (R409). What stands in slots retired on that array moves
to others first (R408). -/
def State.mapOnto (s : State) (pos phys : Nat) : State :=
  let s1 := (s.interruptLoad pos).avoidOn pos phys
  let a := s1.arr
  let s2 := ({ s1 with arr := { a with map := a.map.set pos phys } }).retireArray (a.map.getD pos pos)
  s2.fillPosition pos phys (·.gen)

/-- R388: read-backs of an array that failed once passed the second time. -/
def State.logReadbacks (s : State) (d : Detected) (ws : List Nat) : State :=
  ws.foldl (fun (t : State) w =>
    ({ t with flt := t.flt.addTrans (arrayPart d.phys) }).logEvent evReadback clsTransient 3 d w) s

/-- The write of an array whose read-back failed twice, and those before it that failed once. -/
def readbacksOf (bad : List (Nat × Nat)) (p : Nat) : Option Nat × List Nat :=
  let ws := (bad.filter (fun x => x.1 == p)).map Prod.snd
  let twice := ws.find? (fun w => decide (2 ≤ ws.count w))
  (twice, match twice with
    | some w => ws.takeWhile (· != w)
    | none => ws)

/-- R410: spares whose read-back fails twice at one item are retired one by one. The first that holds is the answer. -/
def State.takeSpare (s : State) (bad : List (Nat × Nat)) (d : Detected) : Nat → Option Nat × State
  | 0 => (none, s)
  | n + 1 =>
    match s.arr.spares with
    | [] => (none, s)
    | p :: _ =>
      let e := { d with phys := p }
      match readbacksOf bad p with
      | (none, once) => (some p, s.logReadbacks e once)
      | (some w, once) => (((s.logReadbacks e once).retireArray p).logEvent evReadback clsLasting 3 e w).takeSpare bad d n

/-- A Remount logged with the position that it serves. -/
def State.remountOnto (s : State) (pos p : Nat) (d : Detected) : State :=
  let s1 := s.mapOnto pos p
  s1.logEvent evRemount clsAction 3 { d with pos := pos, phys := p } s1.arr.spares.length

/-! ## Refolds (rung 4, R411 to R414) -/

/-- A position in a group of the live or pending image, or a Tandem twin (R411). -/
def State.engaged (s : State) (pos : Nat) : Bool :=
  (s.groupAt pos).isSome || s.primaryOf pos != pos ||
    (match s.img.pend with
      | none => false
      | some p => p.area.image.tables.groups.any (fun d => decide (d.base ≤ pos) && decide (pos < d.base + d.size)))

/-- R411: the position whose array is lent. -/
def State.lender (s : State) : Option Nat :=
  ((List.range s.pkg.variant.active).reverse).find? (fun p => s.inService p && !s.engaged p)

/-- R411: a borrow. -/
def State.borrow (s : State) (pos lend : Nat) (d : Detected) : State :=
  let p := s.physOf lend
  let s1 := (s.mapOnto pos p).putOut lend
  s1.logEvent evBorrow clsAction 4 { d with phys := p } lend

/-- The slots in use at a position in one plane, with their content. -/
def State.slotsAt (s : State) (pos : Nat) (plane : Bool) : List (Nat × Home × Content) :=
  (List.range 256).filterMap (fun t => (s.usedAt pos plane t).map (fun x => (t, x)))

/-- Present slots that the hand-offs of a slot name. -/
def State.targetsOf (s : State) (x : Home × Content) : List Nat :=
  ((x.2.rowsOf x.1).filter (fun r => payKind r.payload == kindHandOff)).map (fun r =>
    (s.arr.present x.1.pos x.1.plane (payTarget r.payload)).2.2)

/-- The slots of a tree: a slot with every slot of its chain (R412). -/
def State.treeOf (s : State) (slots : List (Nat × Home × Content)) (t : Nat) : List (Nat × Home × Content) :=
  let grow (have_ : List Nat) : List Nat :=
    slots.foldl (fun acc x =>
      let link := s.targetsOf x.2
      let near := acc.contains x.1 || link.any acc.contains
      if near then (x.1 :: (acc ++ link)).eraseDups else acc) have_
  let all := (List.range 4).foldl (fun acc _ => grow acc) [t]
  slots.filter (fun x => all.contains x.1)

/-- A tree moved into the free slots of one position, if it fits. -/
def State.moveTree (s : State) (tree : List (Nat × Home × Content)) (pos : Nat) (plane : Bool) : Option State :=
  tree.foldl (fun (acc : Option State) x =>
    match acc with
    | none => none
    | some t =>
      if t.extrasFit x.2 pos plane then
        (t.freeSlot pos [plane] (x.2.2.rowsOf x.2.1).length []).map (fun k => t.relocate x.2 pos plane k)
      else none) (some s)

/-- Trees of a position moved, each to the lowest position of a list where it fits. The count is of slots moved. -/
def State.moveTrees (s : State) (pos : Nat) (from_ dest : Bool) (others : List Nat) : Option (State × Nat) :=
  (List.range 256).foldl (fun (acc : Option (State × Nat)) sl =>
    match acc with
    | none => none
    | some (t, n) =>
      let slots := t.slotsAt pos from_
      if slots.any (fun x => x.1 == sl) then
        let tree := t.treeOf slots sl
        (others.findSome? (fun q => t.moveTree tree q dest)).map (fun u => (u, n + tree.length))
      else acc) (some (s, 0))

/-- The other positions in service of a group. -/
def State.othersOf (s : State) (g : Group) (pos : Nat) : List Nat := (s.positions g.base g.size).filter (· != pos)

/-- R412: a spread, for every group and plane in service at the position. -/
def State.spread (s : State) (pos : Nat) : Option (State × Nat) :=
  (s.groupsAt pos).foldl (fun (acc : Option (State × Nat)) g =>
    g.planes.foldl (fun acc2 π =>
      match acc2 with
      | none => none
      | some (t, n) => (t.moveTrees pos π π (s.othersOf g pos)).map (fun r => (r.1, n + r.2))) acc) (some (s, 0))

/-- R413: the group goes into Double; its marked records are scored again there. -/
def Group.refolded (g : Group) : Group := { g with dbl := true, refold := true, run := [], runPos := 0, inB := false }

/-- R413: the failed position's trees go into the idle plane of the group's other arrays. -/
def State.foldDouble (s : State) (pos : Nat) : Option (State × Nat) :=
  match s.groupsAt pos with
  | [g] =>
    let ps := (List.range g.size).map (g.base + ·)
    if g.size < 2 ∨ g.dbl = true ∨ g.ended = true ∨ ps.any (fun p => decide (1 < (s.groupsAt p).length)) = true then none
    else
      let s0 := ps.foldl State.interruptLoad s
      (s0.moveTrees pos g.plane (!g.plane) (s.othersOf g pos)).map (fun r =>
        (r.1.modGroup g.gid Group.refolded, r.2))
  | _ => none

/-- R414: the fault lies in a Chord node or a Tuner adder. -/
def Detected.inNode (d : Detected) : Bool := d.check == evResidue && d.detail % 128 != 0

/-- Rungs 4 and 5 for a failed position. -/
def State.refoldAt (s : State) (pos : Nat) (d : Detected) : State :=
  match s.lender with
  | some q => s.borrow pos q d
  | none =>
    match (if d.inNode then none else s.spread pos) with
    | some (t, n) => ((t.interruptLoad pos).putOut pos).logEvent evSpread clsAction 4 d n
    | none =>
      match (if d.inNode then none else s.foldDouble pos) with
      | some (t, n) => ((t.interruptLoad pos).putOut pos).logEvent evDouble clsAction 4 d n
      | none => s.suspendAt pos d

/-! ## Tandem (R426, R427) -/

/-- The group leaves Tandem: its twins are freed and DROPPED is set. -/
def State.leaveTandem (s : State) (g : Group) (d : Detected) : State :=
  let ps := (List.range g.size).map (g.base + ·)
  let s1 := ps.foldl State.freeTwin s
  let bits := BitVec.ofNat 16 (maskOf ps)
  let s2 := ({ s1 with flt := { s1.flt with dropped := s1.flt.dropped ||| bits } }).modGroup g.gid (fun x => { x with tandem := false })
  (s2.retarget).logEvent evTandemDropped clsAction 0 d (d.pos % 16)

/-- Rung 3 and above for a position: a spare, or the refolds. A twin without a spare leaves Tandem (R427). -/
def State.replaceArray (s : State) (pos : Nat) (bad : List (Nat × Nat)) (d : Detected) : State :=
  match s.takeSpare bad d 2 with
  | (some p, t) => t.remountOnto pos p d
  | (none, t) =>
    if t.primaryOf pos = pos then t.refoldAt pos d
    else match (t.groupsAt (t.primaryOf pos)).find? (·.tandem) with
      | some g => t.leaveTandem g d
      | none => t

/-! ## Rungs 1 and 2 -/

/-- The slot of a faulty row: where the row of the harness copy stands. -/
def State.rowSlot (s : State) (phys bank r : Nat) : Option Nat :=
  ((s.arr.row phys bank r).own).map (fun h => (s.arr.present h.pos h.plane h.slot).2.2)

/-- A physical row is retired. -/
def State.retireRowAt (s : State) (phys bank r : Nat) : State :=
  let a := s.arr.dropRow phys bank r
  { s with arr := { a with retiredRows := insertNat a.retiredRows (rowAt phys bank r) } }

/-- R122: the row's content goes into another row, chosen as REPLACE chooses. A row that the harness copy has free is only
retired. -/
def State.retireRow (s : State) (d : Detected) : Option State :=
  match s.expectRow d.phys d.bank d.place with
  | none => some ((s.retireRowAt d.phys d.bank d.place).logEvent evRowRetired clsAction 1 d 0)
  | some x =>
    (s.arr.rowForReplace d.phys d.bank x.plane x.slot.toNat x.rownum d.place).map (fun r =>
      let s1 := s.retireRowAt d.phys d.bank d.place
      ({ s1 with arr := s1.arr.putRow d.phys d.bank r x }).logEvent evRowRetired clsAction 1 d r)

/-- R408: a slot move. -/
def State.moveSlot (s : State) (pos slot : Nat) (d : Detected) : Option State :=
  let p := s.primaryOf pos
  let planes := s.planesHeld pos
  let here := planes.filterMap (fun π => (s.usedAt p π slot).map (fun x => (π, x)))
  let rows := (here.map (fun y => (y.2.2.rowsOf y.2.1).length)).sum
  ((s.retireSlot d.phys slot).freeSlot p planes rows []).map (fun t =>
    let s1 := here.foldl (fun (u : State) y => u.relocate y.2 p y.1 t) s
    (s1.retireSlot d.phys slot).logEvent evSlotMoved clsAction 2 d t)

/-! ## The ladder (R407, R420) -/

/-- R406: a recovery needs an item of the slot that is lost. Its model is suspended, and the slot serves no more. -/
def State.suspendLost (s : State) (pos slot : Nat) (d : Detected) : Option State :=
  let p := s.primaryOf pos
  let lost := (s.planesHeld pos).filterMap (fun π => if s.slotLost p π slot then s.usedAt p π slot else none)
  match lost with
  | [] => none
  | xs =>
    let ms := (xs.map (fun x => fieldOf (x.2.img.slotWord x.2.half x.1.pos x.1.slot).toNat 1 6)).eraseDups
    let s1 := (s.groupsAt p).foldl (fun (t : State) g =>
      t.suspendModels g (ms.filter (fun m => (s.modelsAt g p).contains m))) s
    let s2 := xs.foldl (fun (t : State) x =>
      { t with arr := (t.copiesOf p).foldl (fun (a : Arrays) c => a.leave (t.physOf c) (t.arr.present x.1.pos x.1.plane x.1.slot).2.1 slot x.1) t.arr }) s1
    some ((s2.retireSlot d.phys slot).logEvent evSuspend clsAction 5 d ms.length)

/-- A row or slot fault takes rung 1 or 2, and otherwise the array is replaced. -/
def State.ladderSlot (s : State) (slot : Nat) (bad : List (Nat × Nat)) (d : Detected) : State :=
  match (s.suspendLost d.pos slot d).or (s.moveSlot d.pos slot d) with
  | some t => t
  | none => s.replaceArray d.pos bad d

/-- Models of the lost items that stand at a position. -/
def State.lostModels (s : State) (g : Group) (pos : Nat) : List Nat :=
  (g.planes.flatMap (fun π => (List.range 256).filterMap (fun t =>
    if s.slotLost pos π t then (s.usedAt pos π t).map (fun x => fieldOf (x.2.img.slotWord x.2.half x.1.pos x.1.slot).toNat 1 6)
    else none))).eraseDups

/-- An array fault: rungs 3 to 5. The models of lost items, which no copy can bring back, are suspended (R406). -/
def State.ladderArray (s : State) (bad : List (Nat × Nat)) (d : Detected) : State :=
  let p := s.primaryOf d.pos
  let n := ((s.groupsAt p).flatMap (fun g => s.lostModels g p)).eraseDups.length
  let s1 := (s.groupsAt p).foldl (fun (t : State) g => t.suspendModels g (s.lostModels g p)) s
  (if n = 0 then s1 else s1.logEvent evSuspend clsAction 5 d n).replaceArray d.pos bad d

/-- R426, step 1: the first item of the slots compared, primary before twin, that differs from the harness copy. -/
def State.differing (s : State) (pos : Nat) (slots : List Nat) : Option Detected :=
  let item (q phys : Nat) (i : Item) : Bool := !s.itemOk q phys i
  [pos, pos + 16].findSome? (fun q =>
    let phys := s.physOf q
    let n : Detected := { Detected.nowhere with check := evCurry, pos := q, phys := phys }
    (s.planesHeld pos).findSome? (fun π => slots.findSome? (fun sl =>
      let at_ : Detected := { n with plane := π, bank := sl / 16, slot := sl }
      if item q phys (.desc π sl) then some { at_ with detail := 1 }
      else match (List.range 64).find? (fun c => item q phys (.cell π sl c)) with
        | some c => some { at_ with place := c }
        | none => none)) |>.or
    ((slots.map (· / 16)).eraseDups.findSome? (fun k =>
      ((List.range 1152).find? (fun r => (slots.length == 256 || s.rowSlot phys k r == slots.head?) && item q phys (.row k r))).map
        (fun r => { n with bank := k, place := r, detail := 3, slot := (s.rowSlot phys k r).getD 0 }))))

/-- The rung of a part that is no pair. -/
def State.ladderPart (s : State) (bad : List (Nat × Nat)) (d : Detected) : State :=
  match d.partKind with
  | .cell => s.ladderSlot d.slot bad d
  | .desc => s.ladderSlot d.slot bad d
  | .row =>
    match s.rowSlot d.phys d.bank d.place with
    | none => (s.retireRow d).getD s
    | some sl =>
      match (s.suspendLost d.pos sl d).or (s.retireRow d) with
      | some t => t
      | none => s.ladderSlot sl bad d
  | _ => s.ladderArray bad d

/-- What an array makes of a record: its slot words and its vector (R69, R127). -/
structure Trial where
  words : List (Nat × Word)
  sums : List Int

/-- A record scored on one array alone, as a referee scores it (R426). -/
def State.trial (s : State) (phys : Nat) (plane : Bool) (m : ModelDef) (x : FeaturePlace) : Trial :=
  let sample : Sample :=
    { narrow := fun i => sget 0xFFFF x.narrow i, wide := fun i => x.wide.getD i 0
      kind := fun i => m.wideKinds.getD i 1, mask := fun n => s.arr.mask phys n }
  let used := s.arr.usedSlots phys plane
  let words := used.map (fun d => (d.1, slotWord sample (fun i => (s.arr.cell phys plane d.1 i).cfg)))
  let visit (acc : List Word32 × List Nat) (link : Nat) : List Word32 × List Nat :=
    used.foldl (fun acc d =>
      if descSlotModel d.2 ≠ m.model ∨ descLink d.2 ≠ link ∨ (link ≠ 0 ∧ acc.2.contains d.1 = false) then acc
      else
        let w := ((words.find? (fun y => y.1 == d.1)).map Prod.snd).getD 0
        let f := foundOf (descMatchAll d.2) (matchesOf (s.arr.enabled phys (d.1 / 16) plane (d.1 % 16) w) w)
        (acc.1 ++ f.payloads.filter (fun p => payKind p != kindHandOff),
          acc.2 ++ (f.payloads.filter (fun p => payKind p == kindHandOff)).map payTarget)) acc
  ⟨words, s.arr.column phys plane m.model m.elements ((List.range 4).foldl visit ([], [])).1⟩

/-- Two trials agree on what a mismatch was found in: the word of a slot, or the vector. -/
def Trial.agrees (x y : Trial) (d : Detected) : Bool :=
  if d.detail = 0 then x.words.find? (fun w => w.1 == d.slot) == y.words.find? (fun w => w.1 == d.slot) else x.sums == y.sums

/-- R426, step 2: the twin is the array that disagrees with a spare loaded as the primary's position. Where both or neither do, the
stored bits do not say it, and the environment does (log entry 84). -/
def State.twinDisagrees (s : State) (p : Nat) (d : Detected) (otherwise : Bool) : Bool :=
  match s.workOf d with
  | none => otherwise
  | some (w, j, h, m, _) =>
    let x := h.features m (j.op == opTremolo) w.pass
    let loaded := ({ s with arr := { s.arr with map := s.arr.map.set d.pos p } }).fillPosition d.pos p (·.gen)
    let referee := loaded.trial p w.plane m x
    let primary := (s.trial (s.physOf d.pos) w.plane m x).agrees referee d
    let twin := (s.trial (s.physOf (d.pos + 16)) w.plane m x).agrees referee d
    if primary == twin then otherwise else primary

/-- R426: arbitration of a lasting mismatch. -/
def State.arbitrate (s : State) (bad : List (Nat × Nat)) (twinWrong : Bool) (d : Detected) : State :=
  let slots := if d.detail = 0 then [d.slot] else List.range 256
  match s.differing d.pos slots with
  | some e => s.ladderPart bad { e with grp := d.grp, model := d.model }
  | none =>
    match s.takeSpare bad d 2 with
    | (some p, t) => t.remountOnto (if t.twinDisagrees p d twinWrong then d.pos + 16 else d.pos) p d
    | (none, t) =>
      match t.groupNo d.grp with
      | some g => (t.leaveTandem g d).refoldAt d.pos d
      | none => t

/-- R407, R420: the rung of a lasting fault. -/
def State.ladder (s : State) (bad : List (Nat × Nat)) (twinWrong : Bool) (d : Detected) : State :=
  if (s.groupsAt (s.primaryOf d.pos)).isEmpty then (s.retireArray d.phys).putOut d.pos
  else if d.partKind = .pair then s.arbitrate bad twinWrong d
  else s.ladderPart bad d

/-! ## Recovery (R388 to R396) -/

/-- The recovery at the head of the queue is over; its group takes records again when no other is queued for it. -/
def State.endRecovery (s : State) (d : Detected) : State :=
  let rest := s.flt.queue.tail
  let s1 := { s with flt := { s.flt with queue := rest } }
  if rest.any (fun x => x.grp == d.grp) then s1 else s1.modGroup d.grp (fun g => { g with paused := false })

/-- The records that a recovery lets finish: those begun in its group, and in every group with planes at the position. -/
def State.recoveryReady (s : State) (d : Detected) : Bool :=
  let gs := d.grp :: (s.groupsAt (s.primaryOf d.pos)).map (·.gid)
  s.grp.attempts.all (fun a => !gs.contains a.grp) &&
    gs.all (fun n => (s.groupNo n).all (fun g => g.tremolo.isNone && g.run.isEmpty))

/-- R406: the item that a recovery would bring back from the harness copy is lost there. -/
def State.needsLost (s : State) (d : Detected) : Option Nat :=
  let p := s.primaryOf d.pos
  let lost (π : Bool) (sl k : Nat) : Bool := (s.usedAt p π sl).any (fun x =>
    s.flt.lostItems.contains (harnessItem x.2.half x.1.pos x.1.slot k))
  match d.item with
  | some (.cell π sl c) => if lost π sl c then some sl else none
  | some (.desc π sl) => if lost π sl 64 then some sl else none
  | some (.row k r) => (s.rowSlot d.phys k r).filter (fun sl => lost (s.arr.row d.phys k r).plane sl 65)
  | _ => none

/-- The part of a detected error fails the same check (R388). -/
def Detected.same (d e : Detected) : Bool := d.check == e.check && d.part == e.part

/-- R388 to R390, R407: one error classified. A part that has used up its transient errors is not retried; what the retry finds wrong
elsewhere is an error of its own. -/
def State.classify (s : State) (d : Detected) (ups : List Upset) (badSpares : List (Nat × Nat)) (twinWrong : Bool) : State :=
  let lasting (t : State) : State := (t.logEvent d.check clsLasting 0 d d.detail).ladder badSpares twinWrong d
  match (s.needsLost d).bind (fun sl => (s.logEvent d.check clsLasting 0 d d.detail).suspendLost d.pos sl d) with
  | some t => t
  | none =>
    if s.worn d.part then lasting s
    else
      let (s1, again) := (s.rewritePart d).retry d ups
      if again.any d.same then lasting s1
      else
        let s2 := ({ s1 with flt := s1.flt.addTrans d.part }).logEvent d.check clsTransient 0 d d.detail
        match again with
        | some e => s2.enqueueFault { e with work := d.work }
        | none => s2

/-- FAULT_RECOVERY (R388 to R394): the recovery at the head of the queue, once the records dispatched have finished their
attempts. -/
def execFaultRecovery (ups : List Upset) (badSpares : List (Nat × Nat)) (twinWrong : Bool) (s : State) :
    Host.Outcome State Fault Refusal :=
  .next (
    match s.flt.queue with
    | [] => s
    | d :: _ =>
      if s.up = false ∨ s.recoveryReady d = false then s
      else (s.classify d ups badSpares twinWrong).endRecovery d)

/-! ## Curry passes (R428, R429) -/

/-- The detected error of an item. -/
def State.curryFault (s : State) (pos phys : Nat) (i : Item) : Detected :=
  let g := ((s.groupAt (s.primaryOf pos)).or (s.groupsAt (s.primaryOf pos)).head?)
  let n : Detected := { Detected.nowhere with check := evCurry, grp := (g.map (·.gid)).getD 0, pos := pos, phys := phys, detail := i.kind }
  let model (π : Bool) (sl : Nat) : Nat :=
    ((s.usedAt pos π sl).map (fun x => fieldOf (x.2.img.slotWord x.2.half x.1.pos x.1.slot).toNat 1 6)).getD 0
  match i with
  | .cell π sl c => { n with plane := π, bank := sl / 16, slot := sl, place := c, model := model π sl }
  | .desc π sl => { n with plane := π, bank := sl / 16, slot := sl, model := model π sl }
  | .mask m => { n with place := m }
  | .row k r =>
    let π := (s.arr.row phys k r).plane
    let sl := (s.rowSlot phys k r).getD 0
    { n with plane := π, bank := k, slot := sl, place := r, model := model π sl }
  | .scale j => { n with place := j }

/-- CURRY_ITEM (R428): an array reads the next item of its cycle and compares it with the harness copy. -/
def execCurryItem (phys : Nat) (ups : List Upset) (s : State) : Host.Outcome State Fault Refusal :=
  .next (
    if s.up = false ∨ s.live.curryEn = false ∨ s.suspended = true ∨ s.arrayLive phys = false then s
    else
      let n := s.flt.curry.getD phys 0
      let s1 := s.disturbAll ups
      let last := decide (curryItems ≤ n + 1)
      let f := { s1.flt with
        curry := s1.flt.curry.set phys (if last then 0 else n + 1)
        cycles := if last then s1.flt.cycles.modify phys (satAdd 32 · 1) else s1.flt.cycles }
      let s2 := { s1 with flt := f }
      let pos := s2.servedBy phys
      let i := curryItem n
      if s2.itemOk pos phys i then s2
      else
        let d := s2.curryFault pos phys i
        if s2.flt.queue.any (fun x => x.part == d.part) then s2
        else ({ s2 with flt := { s2.flt with mismatches := satAdd 16 s2.flt.mismatches 1 } }).enqueueFault d)

/-! ## The acknowledgement (R432, R433) -/

/-- R433: the acknowledgement cursor is written, unless it lies beyond LOG_HEAD. -/
def State.ackFaults (s : State) (ack : Word32) : State :=
  let beyond := dist s.flt.logHead ack
  if 0 < beyond ∧ beyond < 2 ^ 31 then s
  else
    let lost := s.flt.lostAt.filter (unacknowledged ack)
    ({ s with flt := { s.flt with ack := ack, lostAt := lost } }).refreshFault

/-- SFD_FAULT_ACK (R433). -/
def execSfdFaultAck (value : Word) (s : State) : Host.Outcome State Fault Refusal :=
  .next (if s.up then s.ackFaults (BitVec.ofNat 32 (wfield value 0 32)) else s)

end Sys2Proof.Machine
end

