-- ==== Sys2Proof/Machine/Sound.lean ====
section
/-! DEFINITION. The Soundboard (R231 to R250): the arithmetic of frames and the commands that ring, start and finish them. -/

namespace Sys2Proof.Machine

/-! ## Arithmetic (R240 to R245) -/

/-- ⌊π · 2^128⌋, for cosines far more exact than any rounding of this section needs. -/
def piFix : Int := 1069028584064966747859680373161870783300

/-- The unit of the fixed-point numbers. -/
def fixOne : Int := 2 ^ 128

/-- Terms of the cosine series: n of them, from term number k. -/
def cosTerms (x : Int) : Nat → Nat → Int → Int
  | 0, _, _ => 0
  | n + 1, k, t => t + cosTerms x n (k + 1) (-(t * x / fixOne * x / fixOne) / ((2 * k + 1) * (2 * k + 2) : Int))

/-- cos(2π·t/n) · 2^128 (R240, R242). -/
def cosFix (t n : Nat) : Int := cosTerms (2 * piFix * t / n) 48 0 fixOne

/-- rnd(v / d) = ⌊v/d + ½⌋ for d above 0. -/
def rnd (v d : Int) : Int := (2 * v + d) / (2 * d)

/-- w[n] of a window of length N (R240). -/
def windowValue (hamming : Bool) (n len : Nat) : Int :=
  if hamming then rnd (2 ^ 15 * (54 * fixOne - 46 * cosFix n len)) (100 * fixOne)
  else rnd (2 ^ 14 * (fixOne - cosFix n len)) fixOne

/-- rnd(65536 · cos(2πt/n)) and rnd(−65536 · sin(2πt/n)) (R242). The sine is the cosine of a quarter turn earlier. -/
def twiddle (t n : Nat) : Int × Int :=
  (rnd (65536 * cosFix t n) fixOne, rnd (-(65536 * cosFix (t + 3 * n / 4) n)) fixOne)

/-- q low bits of k in reverse order. -/
def bitReverse : Nat → Nat → Nat
  | 0, _ => 0
  | q + 1, k => (k % 2) * 2 ^ q + bitReverse q (k / 2)

/-- One butterfly of R242. -/
def butterfly (tw : Int × Int) (a : Array (Int × Int)) (lo hi : Nat) : Array (Int × Int) :=
  let (pr, pi) := a.getD hi (0, 0)
  let (ur, ui) := a.getD lo (0, 0)
  let tr := rnd (pr * tw.1 - pi * tw.2) 65536
  let ti := rnd (pr * tw.2 + pi * tw.1) 65536
  (a.setIfInBounds lo (rnd (ur + tr) 2, rnd (ui + ti) 2)).setIfInBounds hi (rnd (ur - tr) 2, rnd (ui - ti) 2)

/-- Stage m of R242, over n = 2^q points. -/
def fftStage (n m : Nat) (a : Array (Int × Int)) : Array (Int × Int) :=
  let h := 2 ^ (m - 1)
  let tws := (List.range h).map (fun j => twiddle (j * n / 2 ^ m) n)
  (List.range (n / (2 * h))).foldl (fun b i =>
    (tws.zipIdx).foldl (fun c t => butterfly t.1 c (2 * h * i + t.2) (2 * h * i + t.2 + h)) b) a

/-- The transform of R242. -/
def fft (q : Nat) (y : Array Int) : Array (Int × Int) :=
  let n := 2 ^ q
  let a := Array.ofFn (fun k : Fin n => (y.getD (bitReverse q k.val) 0, (0 : Int)))
  (List.range q).foldl (fun b m => fftStage n (m + 1) b) a

/-- R243 before its last step: the edge j of B bands, exactly: the largest e with (16e + CORNER − 8)^B at most
(CORNER + 16·LO)^(B−j) · (CORNER + 16·HI)^j. -/
def rawEdge (lo hi corner bands j : Nat) : Nat :=
  let p := (corner + 16 * lo) ^ (bands - j) * (corner + 16 * hi) ^ j
  (List.range (max lo hi + 2)).foldl (fun best e =>
    if 16 * e + corner < 8 ∨ (16 * e + corner - 8) ^ bands ≤ p then e else best) 0

/-- The edges e_0 to e_B (R243). -/
def bandEdges (lo hi corner bands : Nat) : List Nat :=
  ((List.range bands).foldl (fun (acc : List Nat × Nat) j =>
    let e := max (rawEdge lo hi corner bands (j + 1)) (acc.2 + 1)
    (acc.1 ++ [e], e)) ([rawEdge lo hi corner bands 0], rawEdge lo hi corner bands 0)).1

/-- T[m] = rnd(256 · log2(1 + m/256)) (R245), exactly: 2t − 1 is at most the base-2 logarithm of ((256 + m)/256)^512. -/
def logTable (m : Nat) : Nat := (Nat.log2 ((256 + m) ^ 512) - 4096 + 1) / 2

/-- L_j of a band energy (R245). -/
def logCode (e : Nat) : Nat :=
  if e ≤ 1 then 0
  else
    let p := Nat.log2 e
    256 * p + logTable ((e - 2 ^ p) * 256 / 2 ^ p)

/-- E_j over bins lo to hi − 1 (R244). -/
def bandEnergy (a : Array (Int × Int)) (lo hi : Nat) : Nat :=
  (List.range (hi - lo)).foldl (fun s i =>
    let c := a.getD (lo + i) (0, 0)
    s + (c.1 * c.1 + c.2 * c.2).toNat) 0

/-- The codes of a frame of samples (R240 to R245). -/
def frameCodes (c : SndCfg) (samples : Array Int) : List Code :=
  let n := c.frameLen
  let y := Array.ofFn (fun k : Fin n => rnd (samples.getD k.val 0 * windowValue c.hamming k.val n) 32768)
  let a := fft (Nat.log2 n) y
  let es := bandEdges c.lo c.hi c.corner c.bands
  (List.zip es es.tail).map (fun p => BitVec.ofNat 16 (logCode (bandEnergy a p.1 p.2)))

/-! ## Channels -/

def Soundboard.channel (b : Soundboard) (i : Nat) : Channel := b.channels.getD i Channel.reset

def State.modChannel (s : State) (i : Nat) (f : Channel → Channel) : State :=
  { s with snd := { s.snd with channels := s.snd.channels.modify i f } }

/-- Sample i of a channel from its ring (R232). -/
def State.soundSample (s : State) (c : SndCfg) (i : Word32) : Int :=
  let k := i.toNat % 2 ^ c.ringBits
  if c.wide24 then (BitVec.ofNat 24 (memNat s.mem (c.addr + 4 * k) 3)).toInt
  else (BitVec.ofNat 16 (memNat s.mem (c.addr + 2 * k) 2)).toInt * 256

/-- The first sample of frame n (R248): the hop may have changed at a Mount. -/
def Channel.startOf (x : Channel) (n : Nat) : Word32 :=
  match x.spans.find? (fun p => decide (p.1 ≤ n)) with
  | none => x.sample
  | some (f, sample, hop) => sample + BitVec.ofNat 32 ((n - f) * hop)

/-- R248: the settings of a channel change before frame x.frame. Where frames get shorter, an earlier doorbell has made ready just the
frames it covered before, and the moment of the change, numbered now, those it covers since. -/
def Channel.resettled (x : Channel) (old new : SndCfg) (now : Nat) : Channel :=
  let less := BitVec.ofNat 32 (old.frameLen - new.frameLen)
  { x with
    spans := if old.hop = new.hop then x.spans else (x.frame, x.sample, new.hop) :: x.spans
    doors := if new.frameLen < old.frameLen then x.doors.map (fun d => (d.1 - less, d.2)) ++ [(x.write, now)] else x.doors }

/-- R249: the channel resumes at a frame, from which its settings hold. -/
def Channel.resumed (x : Channel) (c : SndCfg) (n now : Nat) : Channel :=
  let start := x.startOf n
  { x with
    frame := n
    sample := start
    doors := [(x.write, now)]
    spans := (n, start, c.hop) :: x.spans.filter (fun p => decide (p.1 < n)) }

/-- The running number of the doorbell that made the channel's next frame ready, if it is (R235). -/
def Channel.readySince (x : Channel) (c : SndCfg) : Option Nat :=
  (x.doors.find? (fun d => decide (dist (x.sample + BitVec.ofNat 32 c.frameLen) d.1 < 2 ^ 31))).map Prod.snd

/-- R238: the frame that became ready first, the lowest channel first among frames ready together. -/
def State.nextSound (s : State) : Option Nat :=
  (List.range 64).foldl (fun (best : Option (Nat × Nat)) i =>
    let c := s.live.chan i
    match (if c.en then (s.snd.channel i).readySince c else none), best with
    | none, b => b
    | some d, none => some (d, i)
    | some d, some (d0, i0) => if d < d0 then some (d, i) else some (d0, i0)) none |>.map Prod.snd

/-- SFD_SND_DB (R233): a channel's write cursor. -/
def execSfdSndDb (value : Word) (s : State) : Host.Outcome State Fault Refusal :=
  .next (
    if s.up = false then s
    else
      let i := wfield value 32 6
      let w := BitVec.ofNat 32 (wfield value 0 32)
      if 2 ^ 31 ≤ dist (s.snd.channel i).write w then
        s.modChannel i (fun x => { x with backward := satAdd 16 x.backward 1 })
      else
        let n := s.snd.doorbells
        let s1 := { s with snd := { s.snd with doorbells := n + 1 } }
        s1.modChannel i (fun x => { x with write := w, doors := x.doors ++ [(w, n)] }))

/-- Doorbells that can still be the first to make a later frame ready. -/
def pruneDoors (start : Word32) (ds : List (Word32 × Nat)) : List (Word32 × Nat) :=
  ds.filter (fun d => decide (0 < dist start d.1) && decide (dist start d.1 < 2 ^ 31))

/-- SND_FRAME_START (R235, R238, R240 to R245): the oldest ready frame is read and computed. -/
def execSndFrameStart (s : State) : Host.Outcome State Fault Refusal :=
  .next (
    if s.memUp = false ∨ s.snd.frame.isSome = true then s
    else
      match s.nextSound with
      | none => s
      | some i =>
        let c := s.live.chan i
        let x := s.snd.channel i
        let samples := Array.ofFn (fun k : Fin c.frameLen => s.soundSample c (x.sample + BitVec.ofNat 32 k.val))
        let overrun := decide (2 ^ c.ringBits < dist x.sample x.write)
        let f : SoundFrame :=
          { channel := i, stream := c.stream, seq := x.q0 + BitVec.ofNat 32 x.frame, key := c.key
            first := c.first, codes := frameCodes c samples, overrun := overrun }
        let next := x.sample + BitVec.ofNat 32 c.hop
        let s1 := { s with snd := { s.snd with frame := some f } }
        s1.modChannel i (fun y =>
          { y with
            sample := next
            frame := y.frame + 1
            overruns := if overrun then satAdd 16 y.overruns 1 else y.overruns
            doors := pruneDoors next y.doors }))

/-- SND_FRAME_DONE (R236, R237, R239): the finished frame takes a place of the reorder window, and waits for a lane. -/
def execSndFrameDone (s : State) : Host.Outcome State Fault Refusal :=
  .next (
    if s.up = false then s
    else
      match s.snd.frame with
      | none => s
      | some f =>
        if s.windowFree = false then s
        else
          let void := if f.overrun then stVoidOverrun else 0
          let s1 := s.takePlace f.stream f.seq f.key void .needLane [] (workSteps 0 f.codes.length 0) none
          let s2 := s1.modWindow f.stream f.seq (fun w => { w with sndFirst := f.first, sndCodes := f.codes })
          ({ s2 with snd := { s2.snd with frame := none } }).pump)

end Sys2Proof.Machine
end

