-- ==== Sys2Proof/Machine/Staging.lean ====
section
/-! DEFINITION. Staged fields (R346 to R349, R489): which bits of which register are staged, writes to the shadows, DISCARD, and the
requests and the freeze of a Mount (R350, R352). -/

namespace Sys2Proof.Machine

/-! ## Writes to shadows -/

/-- The bits of a word that the given fields, lowest bit and length, cover. -/
def bitsOf (fs : List (Nat × Nat)) : Word := BitVec.ofNat 64 (fs.foldl (fun a f => a ||| ((2 ^ f.2 - 1) <<< f.1)) 0)

/-- A register offset with the Soundboard channel that SFD_SND_SEL named when it was written. -/
def stageTarget (offset channel : Nat) : Nat := offset + 65536 * channel

/-- R489: the staged fields of a register, lowest bit and length, none for a register without. -/
def stagedFields (o : Nat) : List (Nat × Nat) :=
  if o = 0x440 then [(0, 25)]
  else if o = 0x480 then [(21, 27)]
  else if o = 0x488 then [(0, 29)]
  else if o = 0x4C0 then [(0, 1), (12, 36)]
  else if o = 0x508 then [(0, 7), (8, 7), (16, 10), (32, 12)]
  else if o = 0x510 then [(0, 11), (16, 11), (32, 16)]
  else if o = 0x518 then [(0, 64)]
  else if o = 0x520 then [(6, 42), (48, 5)]
  else if o = 0x600 then [(0, 64)]
  else if o = 0x608 then [(0, 4)]
  else if o = 0x888 then [(16, 32)]
  else if o = 0x890 then [(0, 16)]
  else if o = 0x3018 then [(0, 34)]
  else if o = 0x3020 then [(0, 8)]
  else if o = 0x3028 then [(0, 64)]
  else if o = 0x3408 then [(0, 11), (16, 5), (32, 8)]
  else if o = 0x3430 then [(0, 16)]
  else if o = 0x3480 then [(0, 1), (16, 32)]
  else if o = 0x3488 then [(12, 36), (48, 9)]
  else if o = 0x3800 then [(0, 17)]
  else if 0x1000 ≤ o ∧ o < 0x2000 then
    (if o % 64 = 0 ∨ o % 64 = 8 then [(6, 42), (48, 5)] else if o % 64 = 16 then [(0, 6)] else [])
  else if 0x4000 ≤ o ∧ o < 0x6000 then [(2, 1)]
  else []

/-- The register holds a staged field that any agent may write. SFD_IMG_EXPECT is written as R278 sets out. -/
def isStaged (o : Nat) : Bool := !(stagedFields o).isEmpty

/-- A shadow with a register's staged fields written. -/
def Staged.stage (c : Staged) (target : Nat) (value : Word) : Staged :=
  let o := target % 65536
  let ch := target / 65536
  let v := value &&& bitsOf (stagedFields o)
  let chan (f : SndCfg → SndCfg) : Staged := { c with snd := c.snd.modify ch f }
  let ring (f : RingCfg → RingCfg) : Staged := { c with rings := c.rings.modify ((o - 0x1000) / 64) f }
  if o = 0x440 then { c with budget := v }
  else if o = 0x480 then { c with entBase := v }
  else if o = 0x488 then { c with entCfg := v }
  else if o = 0x4C0 then { c with accBase := v }
  else if o = 0x508 then chan (fun x => { x with cfg := v })
  else if o = 0x510 then chan (fun x => { x with band := v })
  else if o = 0x518 then chan (fun x => { x with key := v })
  else if o = 0x520 then chan (fun x => { x with ring := v })
  else if o = 0x600 then { c with notify0 := v }
  else if o = 0x608 then { c with notify1 := v }
  else if o = 0x888 then { c with hcopyBase := v }
  else if o = 0x890 then { c with hcopySize := v }
  else if o = 0x3018 then { c with ledgerCfg := v }
  else if o = 0x3020 then { c with gait := v }
  else if o = 0x3028 then { c with gaitWm := v }
  else if o = 0x3408 then { c with faultCfg := v }
  else if o = 0x3430 then { c with tandem := v }
  else if o = 0x3480 then { c with mirror := v }
  else if o = 0x3488 then { c with spare := v }
  else if o = 0x3800 then { c with holdCfg := v }
  else if 0x1000 ≤ o ∧ o < 0x2000 then
    (if o % 64 = 0 then ring (fun x => { x with sbase := v })
     else if o % 64 = 8 then ring (fun x => { x with cbase := v })
     else if o % 64 = 16 then ring (fun x => { x with ctl := v })
     else c)
  else if 0x4000 ≤ o ∧ o < 0x6000 then
    let n := (o - 0x4000) / 8
    { c with durable := if v = 0 then c.durable.filter (· != n) else insertNat c.durable n }
  else if 0x840 ≤ o ∧ o < 0x860 then { c with expect := c.expect.set ((o - 0x840) / 8) value }
  else c

/-- A Mount holds staged writes: from its first step until its apply point or its failure (R352). -/
def MountState.freezing (m : MountState) : Bool := m.active.isSome && !m.applied

/-- R346, R352: a write to a staged register, which the freeze of a Mount holds. -/
def State.stageWrite (s : State) (target : Nat) (value : Word) : State :=
  if s.mnt.freezing then { s with mnt := { s.mnt with frozen := s.mnt.frozen ++ [(target, value)] } }
  else ({ s with shadow := s.shadow.stage target value }).retarget

/-- R352: the freeze ends and the writes it held land. -/
def State.thaw (s : State) : State :=
  { s with
    shadow := s.mnt.frozen.foldl (fun c w => c.stage w.1 w.2) s.shadow
    mnt := { s.mnt with frozen := [] } }

/-- R348: DISCARD, ignored while a Mount is in progress. -/
def State.discard (s : State) : State :=
  if s.mnt.active.isSome then s else ({ s with shadow := s.live }).retarget

/-! ## Requests (R350) -/

/-- The next request becomes the Mount in progress, and the freeze begins. -/
def State.nextMount (s : State) : State :=
  match s.mnt.active, s.mnt.waiting with
  | none, r :: rs => { s with mnt := { s.mnt with active := some r, waiting := rs, applied := false } }
  | _, _ => s

/-- R350: a request that is ready to be attempted. -/
def State.requestMount (s : State) (r : MountRequest) : State :=
  ({ s with mnt := { s.mnt with waiting := s.mnt.waiting ++ [r] } }).nextMount

/-- R350: a write of GO. One register request at most is held or in progress. -/
def State.goMount (s : State) : State :=
  if s.mnt.active = some .register ∨ s.mnt.waiting.contains .register = true then
    { s with mnt := { s.mnt with ignored := satAdd 16 s.mnt.ignored 1 } }
  else s.requestMount .register

/-- MOUNT_GO (R350, R358). DISCARD in the same write acts first. -/
def execMountGo (discard : Bool) (s : State) : Host.Outcome State Fault Refusal :=
  .next (if s.up then (if discard then s.discard else s).goMount else s)

/-- MOUNT_DISCARD (R348). -/
def execMountDiscard (s : State) : Host.Outcome State Fault Refusal :=
  .next (if s.up then s.discard else s)

/-- R336: every earlier job of the ring has written its job entry. -/
def State.mountJobReady (s : State) (j : Job) : Bool :=
  s.jobs.jobs.all (fun x => x.ring != j.ring || decide (j.id ≤ x.id) || x.written)

/-- MOUNT (R336): a MOUNT job is attempted. -/
def execMount (job : Nat) (s : State) : Host.Outcome State Fault Refusal :=
  .next (
    match s.openJob job opMount with
    | none => s
    | some j =>
      if s.up && !j.begun && s.mountJobReady j then
        (s.modJob job (fun x => { x with begun := true })).requestMount (.job job)
      else s)

end Sys2Proof.Machine
end

