-- ==== Sys2Proof/Machine/Mount.lean ====
section
/-! DEFINITION. The Mount (R346 to R358): its consistency checks (R354, R383, R434, R461), its apply point with every boundary of R355,
the plane switches of groups (R82) and the end of the planes that a Mount replaces (R124, R357). -/

namespace Sys2Proof.Machine

/-! ## Consistency checks -/

/-- A failing check: code, the two offsets and the index (R354). -/
structure MountFail where
  code : Nat
  first : Nat
  second : Nat := 0xFFFF
  index : Nat := 0
deriving DecidableEq, Repr

/-- SFD_MOUNT_FAIL of a failing check. -/
def MountFail.word (f : MountFail) : Word :=
  wordOf [(f.code, 0, 16), (f.first, 16, 16), (f.second, 32, 16), (f.index, 48, 12)]

abbrev offLoadStat : Nat := 0x880

/-- The tables as they would stand after the Mount. -/
def State.tablesAfter (s : State) : Tables :=
  match s.img.pend with
  | some p => p.area.image.tables
  | none => s.tables

/-- The groups that would be live after the Mount: BASE and size. -/
def State.groupsAfter (s : State) : List (Nat × Nat) :=
  match s.img.pend with
  | some p => p.area.image.tables.groups.map (fun d => (d.base, d.size))
  | none => s.liveGroups.map (fun g => (g.base, g.size))

/-- An image is live or pending. -/
def State.anyImage (s : State) : Bool := s.img.live.isSome || s.img.pend.isSome

/-- A load is in progress (R294). -/
def State.loading (s : State) : Bool := s.img.load.isSome || s.jobs.jobs.any (fun j => j.op == opLoad && !j.written)

/-- Routes of the live tables that the Mount removes. -/
def State.routesRemoved (s : State) : List Route :=
  match s.img.pend with
  | some p => s.tables.routes.filter (fun r => (p.area.image.tables.route r.stream).isNone)
  | none => []

/-- R175: a stream has a record in the reorder window, or an accepted record that is not released. -/
def State.streamBusy (s : State) (st : Nat) : Bool :=
  s.ing.window.any (fun w => w.stream == st) || s.acc.heads.any (fun h => h.stream == st)

/-- Offset of a ring register. -/
def ringOff (r reg : Nat) : Nat := 0x1000 + 64 * r + reg

/-- Order 6 for a ring (R307). -/
def State.ringBusy (s : State) (r : Nat) : Bool :=
  let old := s.live.ring r
  let new := s.shadow.ring r
  old.en && ((!new.en && s.jobs.jobs.any (fun j => j.ring == r)) || new.sbase != old.sbase || new.cbase != old.cbase)

/-- Orders 1 to 8 of R354. -/
def State.mountFail1 (s : State) : Option MountFail :=
  let c := s.shadow
  let rings (bad : Nat → Bool) : Option Nat := (List.range 64).find? bad
  let range (r : Nat) : Bool :=
    let x := c.ring r
    x.en && !(decide (4 ≤ x.sSize) && decide (x.sSize ≤ 16) && decide (6 ≤ x.cSize) && decide (x.cSize ≤ 20))
  let restore (r : Nat) : Bool :=
    let x := s.ring r
    x.restoring && (c.ring r).en && ((c.ring r).sSize != x.savedS || (c.ring r).cSize != x.savedC)
  let busyRoute := ((s.routesRemoved.map (·.stream)).filter s.streamBusy).min?
  if s.loading = true then some { code := 0x01, first := offLoadStat }
  else if s.img.pend.any (fun p => p.area.image.digest != c.expectBytes) then
    some { code := 0x02, first := 0x840, second := offLoadStat }
  else if s.anyImage && (c.hcopyBase != s.live.hcopyBase || c.hcopySize != s.live.hcopySize) then
    some { code := 0x03, first := 0x888, second := offLoadStat }
  else match busyRoute with
    | some st => some { code := 0x04, first := 0x2008, second := offLoadStat, index := st }
    | none => match rings range with
      | some r => some { code := 0x05, first := ringOff r 0, second := ringOff r 8, index := r }
      | none => match rings s.ringBusy with
        | some r => some { code := 0x06, first := ringOff r 16, second := ringOff r 0, index := r }
        | none => match rings restore with
          | some r => some { code := 0x07, first := ringOff r 0, second := ringOff r 8, index := r }
          | none =>
            if c.budgetSteps < 256 ∨ 16777216 < c.budgetSteps then some { code := 0x08, first := 0x440 } else none

/-- Conditions of R247 on the bands of a channel; the first of the two second registers of order 11. -/
def SndCfg.bandsBad (x : SndCfg) : Bool :=
  x.hopBits == 3 || decide (x.bands < 16) || decide (64 < x.bands) || decide (1024 < x.first + x.bands) || x.corner == 0 ||
    decide (x.hi < x.lo + x.bands) || decide (x.frameLen / 2 < x.hi) ||
    (bandEdges x.lo x.hi x.corner x.bands).getLast? != some x.hi

/-- Conditions of R247 on the sample ring of a channel. -/
def SndCfg.ringBad (x : SndCfg) : Bool :=
  decide (x.ringBits < 12) || decide (24 < x.ringBits) || decide (2 ^ x.ringBits < x.frameLen)

/-- R246: an entry of a quantisation table that gives codes of log₂ E. -/
def audioEntry (e : BitVec 128) : Bool := qKind e == 0 && qScale e == 0x3B800000 && qZero e == 0

/-- Order 12 for a channel. -/
def State.soundStreamBad (s : State) (i : Nat) : Bool :=
  let t := s.tablesAfter
  let x := s.shadow.chan i
  let shared := (List.range 64).any (fun k => k != i && (s.shadow.chan k).en && (s.shadow.chan k).stream == x.stream)
  match t.route x.stream with
  | none => true
  | some r =>
    r.format != 2 || shared ||
      (List.range x.bands).any (fun b => !audioEntry (qEntry (t.qtable r.qtable) (x.first + b)))

/-- Orders 9 to 13 of R354. -/
def State.mountFail2 (s : State) : Option MountFail :=
  let c := s.shadow
  let held := s.ent.count != 0 || s.ent.job.isSome
  let ovf := c.ovfBits
  let chans (bad : Nat → Bool) : Option Nat := (List.range 64).find? (fun i => (c.chan i).en && bad i)
  let newly := c.durable.filter (fun n => !s.live.durable.contains n)
  if 4194304 < c.entRows ∨ ¬ (ovf = 0 ∨ (10 ≤ ovf ∧ ovf ≤ 19)) then some { code := 0x09, first := 0x488 }
  else if held && c.entAddr != s.live.entAddr then some { code := 0x0A, first := 0x480, second := 0x490 }
  else if held && (c.entRows != s.live.entRows || ovf != s.live.ovfBits) then
    some { code := 0x0A, first := 0x488, second := 0x490 }
  else match chans (fun i => (c.chan i).bandsBad || (c.chan i).ringBad) with
    | some i =>
      some { code := 0x0B, first := 0x508, second := if (c.chan i).bandsBad then 0x510 else 0x520, index := i }
    | none => match chans s.soundStreamBad with
      | some i => some { code := 0x0C, first := 0x508, second := offLoadStat, index := i }
      | none =>
        if 64 < c.durable.length then
          let n := newly.headD 0
          some { code := 0x0D, first := 0x4000 + 8 * n, index := n }
        else none

/-- Orders 14 to 18 (R383). -/
def State.mountFail3 (s : State) : Option MountFail :=
  let c := s.shadow
  let wm := c.watermark
  let outside := decide (c.fixed < c.minGait) || decide (c.maxGait < c.fixed)
  let gallop := s.gait.shown == 3 || (s.gait.moving && s.gait.now == 3)
  let loose := s.groupsAfter.any (fun g => !s.tandemSet c.twin g.1 g.2)
  if 2 ≤ c.policy then some { code := 0x40, first := 0x3020 }
  else if decide (c.maxGait < c.minGait) || (c.policy == 0 && outside) then some { code := 0x41, first := 0x3020 }
  else if c.policy = 1 ∧ ¬ (wm 1 < wm 2 ∧ wm 2 < wm 3) then some { code := 0x42, first := 0x3020, second := 0x3028 }
  else if c.cap = 0 then some { code := 0x43, first := 0x3018 }
  else if s.pkg.variant = .v32x ∧ gallop = true ∧ loose = true then
    some { code := 0x44, first := 0x3030, second := if s.img.pend.isSome then offLoadStat else 0x3430 }
  else none

/-- Order 20 for pair j. -/
def State.pairBad (s : State) (j : Nat) : Bool :=
  let gs := s.groupsAfter
  let holds (g : Nat × Nat) (p : Nat) : Bool := decide (g.1 ≤ p) && decide (p < g.1 + g.2)
  match gs.find? (fun g => holds g j) with
  | none => true
  | some g => !twinCovers s.shadow.twin g.1 g.2 || gs.any (fun x => holds x (j + 16)) || !s.inService (j + 16)

/-- Two regions with their check areas overlap (R399). -/
def regionsOverlap (a b size : Nat) : Bool :=
  let span := size + size / 16
  decide (0 < size) && decide (a < b + span) && decide (b < a + span)

/-- Orders 19 to 25 (R434, R461). -/
def State.mountFail4 (s : State) : Option MountFail :=
  let c := s.shadow
  let badPair := (List.range 16).find? (fun j => bitOf c.twin j && s.pairBad j)
  let mirror := (s.anyImage && c.mirror != s.live.mirror) ||
    (c.mirrorEn && regionsOverlap c.mirrorAddr c.hcopyAddr (65536 * c.hcopyUnits))
  let spare := decide (256 < c.spareCount) || decide (c.spareCount < s.flt.pages.length) ||
    (c.spare != s.live.spare && (s.anyImage || s.ent.count != 0))
  if c.twin ≠ 0 ∧ s.pkg.variant ≠ .v32x then some { code := 0x45, first := 0x3430 }
  else match badPair with
    | some j => some { code := 0x46, first := 0x3430, second := offLoadStat, index := j }
    | none =>
      if mirror = true then some { code := 0x47, first := 0x3480, second := 0x888 }
      else if spare = true then some { code := 0x48, first := 0x3488, second := 0x3490 }
      else if 4 < c.correct ∨ c.transLimit = 0 then some { code := 0x49, first := 0x3408 }
      else if 12 * c.holdUf < 10 * (420 + 2 * c.durable.length) then
        some { code := 0x4A, first := 0x3800, second := 0x4000 }
      else if s.pwr.replayDue && s.img.pend.any (fun p => p.area.image.digest != s.pwr.savedDigest) then
        some { code := 0x4B, first := 0x3820, second := offLoadStat }
      else none

/-- R354: the first check that fails. -/
def State.mountFail (s : State) : Option MountFail :=
  ((s.mountFail1.or s.mountFail2).or s.mountFail3).or s.mountFail4

/-! ## The end of a Mount (R352, R353) -/

/-- The Mount in progress ends, its job writes its entry, and the next request is taken. -/
def State.endMount (s : State) (status done detail : Nat) : State :=
  let s1 := match s.mnt.active with
    | some (.job id) => s.finishJob id status done detail
    | _ => s
  ({ s1 with mnt := { s1.mnt with active := none, applied := false } }).nextMount

/-- R353: a Mount that fails. -/
def State.failMount (s : State) (f : MountFail) : State :=
  let m := { s.mnt with failedCnt := satAdd 16 s.mnt.failedCnt 1, lastOk := false, fail := f.word }
  ({ s with mnt := m }).thaw.retarget.endMount stMountFailed 0 f.code

/-- R352, step 6, once every group has switched. -/
def State.reportMount (s : State) : State :=
  if s.mnt.active.isSome && s.mnt.applied && s.liveGroups.all (fun g => !g.switchDue) then
    let m := { s.mnt with appliedCnt := satAdd 16 s.mnt.appliedCnt 1, lastOk := true }
    ({ s with mnt := m }).endMount stJobOk 1 0
  else s

/-- R117: a patch boundary of a group has begun: no record of an earlier job of the patch's ring is still to come. -/
def State.boundaryBegun (s : State) : Bool :=
  s.jobs.patches.any (fun p => match s.job p.job with
    | none => false
    | some j => p.groups.any (fun n => (s.groupNo n).any (fun g =>
        !s.jobs.jobs.any (fun x => x.ring == j.ring && decide (x.id < j.id) && x.pendingIn g))))

/-- R352, step 3: the Mount waits. -/
def State.mountWaits (s : State) : Bool := s.boundaryBegun || s.grp.groups.any (·.paused)

/-! ## The image at the apply point (R294, R322, R355 to R357, R502) -/

/-- A group as a Mount brings it to life. Its first record boundary makes its planes live (R82). -/
def GroupDef.newGroup (d : GroupDef) (gid : Nat) (plane : Bool) : Group where
  gid := gid
  base := d.base
  size := d.size
  ended := false
  dbl := d.dbl
  refold := false
  plane := plane
  switchDue := true
  gen := 0
  digest := d.digest
  models := d.models
  suspended := []
  tandem := false
  paused := false
  ready := []
  marked := []
  tremolo := none
  run := []
  runPos := 0
  inB := false

/-- The pending image keeps the group at a BASE. -/
def Pending.keepsBase (p : Pending) (b : Nat) : Bool := p.disp.any (fun d => d.pos == b && d.keep)

/-- The plane that the pending image has loaded for a group. -/
def Pending.planeOf (p : Pending) (b : Nat) : Bool :=
  ((p.disp.find? (fun d => d.pos == b)).bind (fun d => d.planes.head?)).getD false

/-- The live groups that a pending image does not keep. -/
def State.endedBy (s : State) (p : Pending) : List Group := s.liveGroups.filter (fun g => !p.keepsBase g.base)

/-- R322: a Mount that does not keep a group voids the records it has not yet taken, in every job that sends them there. -/
def State.voidUntaken (s : State) (g : Group) : State :=
  let s1 := { s with jobs := { s.jobs with jobs := s.jobs.jobs.map (fun j =>
    if j.scoring && !j.written && j.groups.any (fun x => x.1 == g.base) then
      { j with voidGroups := insertNat j.voidGroups g.base } else j) } }
  g.waiting.foldl (fun (t : State) x => match t.openPlace x.1 x.2 with
    | some (j, _, p) => if p.dispatched then t else t.voidPlace j x.2 stVoidModel false false
    | none => t) s1

/-- R502: the models whose counters the apply point clears: those of a group that the Mount ends or brings. -/
def State.clearedModels (s : State) (p : Pending) : List Nat :=
  ((s.endedBy p).flatMap (·.models) ++
    ((p.area.image.tables.groups.filter (fun d => !p.keepsBase d.base)).flatMap (·.models))).eraseDups

/-- The groups of the pending image become live; those it does not keep end. -/
def State.mountGroups (s : State) (p : Pending) : State :=
  let new := p.area.image.tables.groups.filter (fun d => !p.keepsBase d.base)
  let made := new.mapIdx (fun i d => d.newGroup (s.grp.nextGroup + i) (p.planeOf d.base))
  let ended := (s.endedBy p).map (·.gid)
  let old := s.grp.groups.map (fun g => if ended.contains g.gid then { g with ended := true, switchDue := false } else g)
  let gone := s.clearedModels p
  let keep (m : Sparse Nat) : Sparse Nat := m.filter (fun x => !gone.contains x.1)
  { s with grp := { s.grp with
    groups := old ++ made
    nextGroup := s.grp.nextGroup + new.length
    multi := keep s.grp.multi
    overs := keep s.grp.overs
    miss := keep s.grp.miss } }

/-- The pending image becomes live: its tables, its area of the harness copy and its groups. The journal of a restart applies to the
plane that the load has given a group with one half (R121, R514). -/
def State.mountImage (s : State) (p : Pending) : State :=
  let ended := s.endedBy p
  let restart := s.pwr.replayDue && s.img.live.isNone
  let kept := s.journal.filter (fun e => p.keepsBase e.base)
  let placed (e : JournalEntry) : JournalEntry :=
    if p.area.image.tables.groups.any (fun d => d.base == e.base && d.dbl) then e
    else { e with entry := { e.entry with plane := p.planeOf e.base } }
  let journal := if restart then s.pwr.savedJournal.map placed else kept
  let s1 := ended.foldl State.voidUntaken s
  let s2 := s1.mountGroups p
  let img := { s2.img with
    live := some { p.area with journal := journal }
    second := !s.img.second
    pend := none
    former := if ended.isEmpty then none else s.img.live
    tgen := s.img.tgen + 1
    retiring := s.img.retiring ++ [(s.img.tgen, s.tables)] }
  let gens := if restart then s.pwr.replayGens else s.pwr.replayGens.filter (fun x => p.keepsBase x.1)
  let s3 := { s2 with
    img := img
    flt := { s2.flt with lostItems := [] }
    pwr := { s2.pwr with replayGens := gens } }
  (s3.copyJournal img.second p.area.image.length 0 journal).freeTables

/-! ## Streams (R173, R196, R324) -/

/-- A stream's cursors as they stand while no frame has set them; its counters stay. -/
def Stream.unstarted (x : Stream) : Stream :=
  { x with started := false, next := 0, accept := 0, release := 0, requested := 0, unwritten := 0 }

/-- R324: a stream loses its route. It holds no record in the window (R175). -/
def State.unroute (s : State) (r : Route) : State :=
  let at_ := (s.stream r.stream).accept
  let s1 := { s with jobs := { s.jobs with jobs := s.jobs.jobs.map (fun (j : Job) =>
    if j.scoring && !j.written && j.stream == r.stream && j.routeGone.isNone then { j with routeGone := some at_ } else j) } }
  let s2 := s1.modStream r.stream Stream.unstarted
  if r.pair = 0 then s2 else s2.modPair r.dataStream (fun _ => Pair.reset)

/-- R196: a pair that the Mount newly routes starts Unseated, and both its streams take E and accept cursor anew. -/
def State.routePair (s : State) (old : Tables) (r : Route) : State :=
  if r.pair = 1 ∧ (old.route r.stream).all (fun o => o.pair != 1 || o.partner != r.partner) = true then
    let anew (x : Stream) : Stream := { x with resync := true }
    ((s.modPair r.stream (fun _ => Pair.reset)).modStream r.stream anew).modStream r.partner anew
  else s

/-- A stream that a Mount takes out of a pair expects its next frame as before (R172). -/
def State.leavePair (s : State) (r : Route) : State :=
  if r.pair = 0 then s.modStream r.stream (fun x => { x with resync := false }) else s

/-- Routes removed and pairs begun. -/
def State.mountStreams (s : State) (old : Tables) (removed : List Route) : State :=
  let s1 := removed.foldl State.unroute s
  s1.tables.routes.foldl (fun t r => (t.routePair old r).leavePair r) s1

/-! ## Rings (R307, R308, R344, R474) -/

/-- A completion slot of a restoring ring (R344). -/
def State.restoreSlot (s : State) (r : Nat) (j : Word32) : State :=
  match s.jobs.jobs.find? (fun x => x.ring == r && decide (dist x.slot j < x.slots)) with
  | none => s.writeEntry r j fillerBody
  | some x =>
    let i := dist x.slot j
    if x.scoring && decide (i < x.n) then
      if i < s.releasedOf x then s.writeEntry r j fillerBody
      else
        match (if i < x.committed ∧ s.rewritten x i = true then s.heldEntry x i else none) with
        | some b => s.writeEntry r j b
        | none => s.writeEmpty r j
    else if x.written then s.writeEntry r j (jobBody x.status x.op x.tag x.done x.detail)
    else s.writeEmpty r j

/-- R516: a job that a reset has ended: its job entry where it lies behind LIVE, and then its tiles and its context are free. -/
def State.restoreEnded (s : State) (j : Job) : State :=
  let x := s.ring j.ring
  let s1 := if dist x.cmpHead j.entrySlot < dist x.cmpHead x.cmpTail then s
    else s.writeEntry j.ring j.entrySlot (jobBody j.status j.op j.tag j.done j.detail)
  (s1.releaseTiles j).dropJob j.id

/-- R308: every slot of a completion ring without an entry. -/
def State.emptyRing (s : State) (r : Nat) : State :=
  (List.range (2 ^ (s.live.ring r).cSize)).foldl (fun (t : State) i => t.writeEmpty r (BitVec.ofNat 32 i)) s

/-- R307, R344: a Mount enables a ring. -/
def State.enableRing (s : State) (r : Nat) : State :=
  let x := s.ring r
  if x.restoring then
    let s1 := s.modRing r (fun y => { y with restoring := false, subTail := y.subHead, tails := [], halt := 0, armed := true })
    let size := 2 ^ (s.live.ring r).cSize
    let s2 := (List.range (size - dist x.cmpHead x.cmpTail)).foldl (fun (t : State) i =>
      t.writeEmpty r (x.cmpTail + BitVec.ofNat 32 i)) s1
    let s3 := (List.range (dist x.cmpHead x.cmpTail)).foldl (fun (t : State) i =>
      t.restoreSlot r (x.cmpHead + BitVec.ofNat 32 i)) s2
    ((s3.jobs.jobs.filter (fun j => j.ring == r && j.ended)).foldl State.restoreEnded s3).freeContexts
  else (s.modRing r (fun _ => { Ring.reset with armed := true })).emptyRing r

/-! ## ABANDON (R458) -/

/-- Jobs of rings that are dropped, with their tiles. -/
def State.dropJobs (s : State) (gone : Job → Bool) : State :=
  let s1 := (s.jobs.jobs.filter gone).foldl (fun (t : State) j => t.releaseTiles j) s
  { s1 with jobs := { s1.jobs with
    jobs := s1.jobs.jobs.filter (fun j => !gone j)
    patches := s1.jobs.patches.filter (fun p => !(s1.job p.job).any gone) } }

/-- R458: the restart is discarded. What is left of a job whose ring lives on commits without entries, its records being released. -/
def State.abandon (s : State) : State :=
  let s1 := s.dropJobs (fun j => (s.ring j.ring).restoring)
  let s2 : State := { s1 with
    acc := { s1.acc with heads := [] }
    rings := s1.rings.map (fun x => if x.restoring then Ring.reset else x)
    ing := { s1.ing with streams := s1.ing.streams.map (fun x =>
      (x.1, { x.2 with release := x.2.accept, requested := x.2.accept })) }
    grp := { s1.grp with attempts := [], gathered := [], groups := s1.grp.groups.map (fun g =>
      { g with ready := [], marked := [], tremolo := none, run := [], runPos := 0, inB := false }) }
    pwr := { s1.pwr with replayDue := false, replayGens := [] }
    tally := { s1.tally with unkept := [] } }
  s2.refreshHeld.freeContexts

/-! ## The other settings -/

/-- R233, R236: a Mount enables a Soundboard channel. -/
def State.enableChannel (s : State) (i : Nat) : State :=
  let st := (s.live.chan i).stream
  let x := s.stream st
  let s1 := if x.started then s else s.modStream st (fun y => { y with started := true })
  s1.modChannel i (fun y =>
    { Channel.reset with
      q0 := x.accept, overruns := y.overruns, backward := y.backward, spans := [(0, 0, (s.live.chan i).hop)] })

/-- R248: the Mount changes an enabled channel. -/
def State.resettleChannels (s : State) (old : Staged) : State :=
  let changed := (List.range 64).filter (fun i => (s.live.chan i).en && (old.chan i).en && (s.live.chan i != old.chan i))
  let s1 := { s with snd := { s.snd with doorbells := s.snd.doorbells + 1 } }
  changed.foldl (fun (t : State) i => t.modChannel i (fun y => y.resettled (old.chan i) (t.live.chan i) s.snd.doorbells)) s1

/-- R369: a Mount lowers CAP below the balance. -/
def Ledger.capTo (l : Ledger) (cap : Nat) : Ledger :=
  if (1000 * cap : Int) < l.balance then { l with balance := 1000 * cap, spills := satAdd 16 l.spills 1 } else l

/-- R331: the accept cursors of every stream, once SFD_ACC_BASE has been mounted. -/
def State.writeAccepts (s : State) : State :=
  s.ing.streams.foldl (fun (t : State) x =>
    if x.2.started then
      (t.write (t.live.accAddr + 4 * x.1) (leBytes 4 x.2.accept.toNat)).modStream x.1 (fun y => { y with unwritten := 0 })
    else t) s

/-- R423, R424: the groups whose Tandem setting the Mount changes wait for their record boundary. -/
def State.dueTandem (s : State) : State :=
  { s with grp := { s.grp with groups := s.grp.groups.map (fun g =>
    if !g.ended && g.tandem != s.tandemSet s.live.twin g.base g.size then { g with switchDue := true } else g) } }

/-- What the changed settings do at the apply point. old: the values in effect before it. -/
def State.mountSettings (s : State) (old : Staged) : State :=
  let rings := (List.range 64).filter (fun r => (s.live.ring r).en && !(old.ring r).en)
  let chans := (List.range 64).filter (fun i => (s.live.chan i).en && !(old.chan i).en)
  let off := (List.range 64).filter (fun i => !(s.live.chan i).en && (old.chan i).en)
  let s1 := rings.foldl State.enableRing s
  let s2 := chans.foldl State.enableChannel s1
  let s3 := (off.foldl (fun (t : State) i => t.modChannel i (fun y => { y with doors := [] })) s2).resettleChannels old
  let s4 := { s3 with
    led := s3.led.capTo s3.live.cap
    gait := if s3.live.policy = 1 ∧ old.policy ≠ 1 then { s3.gait with ledgerGait := 0 } else s3.gait
    flt := { s3.flt with
      dropped := s3.flt.dropped &&& BitVec.ofNat 16 s3.live.twin
      curry := if s3.live.curryEn && !old.curryEn then List.replicate 34 0 else s3.flt.curry } }
  let s5 := if s4.live.accEn && s4.live.accBase != old.accBase then s4.writeAccepts else s4
  s5.dueTandem.refreshFault.refreshHeld

/-- R351, R352 step 4: the apply point. ABANDON acts in the Mount that it is staged for. -/
def State.applyMount (s : State) : State :=
  let old := s.live
  let tables := s.tables
  let removed := s.routesRemoved
  let abandon := s.shadow.abandon && !s.live.abandon && s.pwr.replayDue
  let s1 := { s with live := s.shadow }
  let s2 := match s1.img.pend with
    | some p => (s1.mountImage p).mountStreams tables removed
    | none => s1
  let s3 := if abandon then s2.abandon else s2
  let s4 := s3.mountSettings old
  let unset (c : Staged) : Staged := if abandon then { c with holdCfg := c.holdCfg &&& 0xFFFF } else c
  let s5 := { s4 with live := unset s4.live, shadow := unset s4.live, mnt := { s4.mnt with applied := true } }
  (s5.thaw.retarget).ledgerMoved.reportMount

/-- MOUNT_APPLY (R352): the Mount in progress is checked, waits, fails, or applies. -/
def execMountApply (s : State) : Host.Outcome State Fault Refusal :=
  .next (
    if s.up = false ∨ s.mnt.freezing = false then s
    else match s.mountFail with
      | some f => s.failMount f
      | none => if s.mountWaits then s else s.applyMount)

/-! ## Group switches (R82, R352 step 5) and Tandem copies (R424) -/

/-- R424: a twin takes a copy of every plane in service of its primary (R357). What stands in slots retired on the twin moves to others
first (R408). -/
def State.copyTwin (s0 : State) (pos : Nat) : State :=
  let s := s0.avoidOn (pos + 16) (s0.physOf (pos + 16))
  let planes := ((s.groupsAt pos).flatMap Group.planes).eraseDups
  let from_ := s.physOf pos
  let dest := s.physOf (pos + 16)
  let a := s.arr
  let clear := { planes.foldl (fun (b : Arrays) π => b.clearPlane (pos + 16) dest π) a with maskUse := a.maskUse }
  let move {α : Type} (at_ : Nat) (size : Nat) (m : Sparse α) (keep : Nat → α → Bool) : Sparse α :=
    (sparseRange m at_ (at_ + size)).filter (fun x => keep (x.1 - at_) x.2) |>.map (fun x => (x.1 - at_, x.2))
  let planeOf (unit k : Nat) : Bool := decide (unit ≤ k)
  let cells := move (cellAt from_ false 0 0) 32768 a.cells (fun k _ => planes.contains (planeOf 16384 k))
  let descs := move (descAt from_ false 0) 512 a.descs (fun k _ => planes.contains (planeOf 256 k))
  let nums := (a.maskUse.filter (fun u => u.pos == pos && planes.contains u.plane)).map (·.phys)
  let masks := nums.map (fun n => (n, a.mask from_ n))
  let scales := move (scaleAt from_ 0) 2048 a.scales (fun _ x => x.any (fun y => planes.contains y.plane))
  let put {α : Type} [DecidableEq α] (d : α) (at_ : Nat) (m : Sparse α) (xs : List (Nat × α)) : Sparse α :=
    xs.foldl (fun acc x => sset d acc (at_ + x.1) x.2) m
  let b := { clear with
    cells := put offCell (cellAt dest false 0 0) clear.cells cells
    descs := put 0 (descAt dest false 0) clear.descs descs
    masks := put 0 (maskAt dest 0) clear.masks masks
    scales := put none (scaleAt dest 0) clear.scales scales }
  let c := (List.range 16).foldl (fun (x : Arrays) k =>
    planes.foldl (fun (y : Arrays) π => y.placeRows dest k ((a.planeRows from_ k π).map Prod.snd)) x) b
  { s with arr := c }

/-- R424: the read-back of a twin's copy, as in a Remount: a write that fails twice is a lasting fault of the twin's array (R427). -/
def State.checkTwin (s : State) (bad : List (Nat × Nat)) (gid pos : Nat) : State :=
  let e := { Detected.nowhere with check := evReadback, grp := gid, pos := pos + 16, phys := s.physOf (pos + 16) }
  match readbacksOf bad e.phys with
  | (none, once) => s.logReadbacks e once
  | (some w, once) => ((s.logReadbacks e once).logEvent evReadback clsLasting 3 e w).replaceArray (pos + 16) bad e

/-- R424: the twin of a position is loaded, while the group is in Tandem. -/
def State.loadTwin (s : State) (bad : List (Nat × Nat)) (gid pos : Nat) : State :=
  if (s.groupNo gid).any (·.tandem) then (s.copyTwin pos).checkTwin bad gid pos else s

/-- Two groups share a position. -/
def Group.overlaps (g h : Group) : Bool := decide (g.base < h.base + h.size) && decide (h.base < g.base + g.size)

/-- The record boundary of a group has come: no Tremolo record and no run in Double stands in the middle, of the group or of
those it replaces; a change of Tandem also lets the attempts in flight end. -/
def State.atBoundary (s : State) (g : Group) : Bool :=
  let within (h : Group) : Bool := h.tremolo.isSome || !h.run.isEmpty
  let tandem := s.tandemSet s.live.twin g.base g.size
  !within g && s.grp.groups.all (fun h => !(h.ended && h.overlaps g && within h)) &&
    (g.tandem == tandem || s.grp.attempts.all (fun a => a.grp != g.gid))

/-- The switch of one group. -/
def State.switchGroup (s : State) (g : Group) (bad : List (Nat × Nat)) : State :=
  let tandem := s.tandemSet s.live.twin g.base g.size
  let ps := (List.range g.size).map (g.base + ·)
  let s1 := s.modGroup g.gid (fun x => { x with switchDue := false, tandem := tandem })
  let s2 :=
    if tandem then ps.foldl (fun (t : State) p => t.loadTwin bad g.gid p) s1
    else if g.tandem then ps.foldl State.freeTwin s1
    else s1
  s2.retarget

/-- GROUP_PLANE_SWITCH (R82): a group changes its live plane at its first record boundary after the apply point. bad: the read-backs that
fail in the copies to its twins (R424), each with its array and the writes done, an item twice where it fails twice. -/
def execGroupPlaneSwitch (base : Nat) (bad : List (Nat × Nat)) (s : State) : Host.Outcome State Fault Refusal :=
  .next (
    match s.group base with
    | none => s
    | some g => if s.up && g.switchDue && !g.paused && s.atBoundary g then (s.switchGroup g bad).reportMount else s)

/-! ## The end of a plane (R124, R357, R418) -/

/-- The planes, rows, scale entries, masks and moves of an ended group are gone, and the former area with the last of them. -/
def State.endGroup (s : State) (g : Group) : State :=
  let ps := (List.range g.size).map (g.base + ·)
  let spots := ps.flatMap (fun p => (s.copiesOf p).map (fun q => (p, q)))
  let wipe (a : Arrays) (x : Nat × Nat) (π : Bool) : Arrays :=
    let b := a.clearPlane x.1 (s.physOf x.2) π
    { b with moves := b.moves.filter (fun m => !(m.fromPos == x.1 && m.fromPlane == π)) }
  let live (p : Nat) (π : Bool) : Bool := s.grp.groups.any (fun h =>
    h.gid != g.gid && h.planes.contains π && decide (h.base ≤ p) && decide (p < h.base + h.size))
  let arr := spots.foldl (fun (a : Arrays) x => g.planes.foldl (fun (b : Arrays) π =>
    if live x.1 π then b else wipe b x π) a) s.arr
  let rest := s.grp.groups.filter (fun h => h.gid != g.gid)
  let s1 := { s with
    arr := arr
    grp := { s.grp with groups := rest }
    flt := { s.flt with queue := s.flt.queue.filter (fun d => d.grp != g.gid) } }
  if rest.any (·.ended) then s1 else { s1 with img := { s1.img with former := none } }

/-- PLANE_END_INVALIDATE (R124): once no record compared in the planes of an ended group is uncommitted, its rows are
invalidated and freed. -/
def execPlaneEndInvalidate (ended : Nat) (s : State) : Host.Outcome State Fault Refusal :=
  .next (
    match s.groupNo ended with
    | none => s
    | some g =>
      if s.up && g.ended && s.groupIdle g && g.ready.isEmpty && !g.paused && !s.jobs.patches.any (fun p => p.groups.contains g.gid)
      then s.endGroup g else s)

end Sys2Proof.Machine
end

