-- ==== Sys2Proof/Machine/Replay.lean ====
section
/-! DEFINITION. The replay (R121, R341 to R343, R455 to R457, R514): which records of kept or restored contexts a replay scores again, in
which plane and at which patch generation. -/

namespace Sys2Proof.Machine

/-! ## What a reset leaves to replay -/

/-- The group of a place's first comparison is no longer there: fresh, after a restart, only a live group counts, since the
saved image is the live one. -/
def State.comparedAway (s : State) (fresh : Bool) (p : JobPlace) : Bool :=
  p.dispatched &&
    (if p.grp = 0 then p.settled && !p.replay
     else (s.groupNo p.grp).all (fun g => fresh && g.ended))

/-- R342: a place of a held context after a reset. A scored place whose group is gone keeps its status. A restart places
groups afresh (R514). -/
def State.replayPlace (s : State) (fresh : Bool) (p : JobPlace) : JobPlace :=
  let away := s.comparedAway fresh p
  let r := (s.job p.job).any Job.scoring && !(away && p.settled && p.status == stOk)
  let q := { p with replay := r, first := none }
  let q1 := if fresh then { q with plane := none, grp := 0 } else q
  if away && !p.settled then { q1 with dispatched := false, gen := 0, grp := 0, plane := none } else q1

/-- R342, step 3: the next record index of a job takes its place for the replay, when its record is accepted and the job has not
offered it yet. -/
def State.claim (s : State) (id : Nat) : State :=
  match s.job id with
  | none => s
  | some j =>
    let i := j.next
    let on (t : State) : State := t.modJob id (fun x => { x with next := i + 1 })
    if j.n ≤ i ∨ j.routed ≤ i then s
    else if i < s.releasedOf j then on s
    else
      match s.head j.stream (j.seqOf i) with
      | none => s
      | some h =>
        if 8 ≤ s.namesBefore j h then on (s.modJob id (fun x => { x with special := sput x.special i stVoidPlaces }))
        else on (s.ensurePlace j i)

/-- R342: every record of a job that is accepted when a reset comes. -/
def State.claimAll (s : State) (j : Job) : State :=
  if j.scoring && !j.written then s.acc.heads.foldl (fun (t : State) _ => t.claim j.id) s else s

/-- Every place of every accepted record that a job in flight names, marked for the replay. -/
def State.markReplay (s : State) (fresh : Bool) : State :=
  let t := s.jobs.jobs.foldl State.claimAll s
  { t with acc := { t.acc with heads := t.acc.heads.map (fun h => { h with places := h.places.map (t.replayPlace fresh) }) } }

/-! ## Writes that a restart has lost (R165) -/

/-- The tiles that the words of a record lie in. -/
def Job.recordTiles (j : Job) (i : Nat) : List Nat :=
  let w := 256 * j.tile + i * j.stride
  List.range' (w / 256) ((w + j.stride - 1) / 256 + 1 - w / 256)

/-- The marked writes of a place are lost in tiles that the save does not hold. In those it does hold, what was owed is owed
still. -/
def JobPlace.owe (p : JobPlace) (j : Job) (durable : List Nat) : JobPlace :=
  let gone := (j.recordTiles p.idx).filter (fun t => !durable.contains t)
  let owed (mark : Bool) (xs : List Nat) : List Nat := if mark then xs.filter durable.contains ++ gone else []
  { p with
    oweA := owed p.markA p.oweA
    oweB := owed p.markB p.oweB
    undo := p.undo.filter (fun x => durable.contains (x.1 / 256))
    undoSat := p.undoSat.filter (fun w => durable.contains (w / 256)) }

/-- The same for the VOIDS increments of indices without a place. -/
def Job.owe (j : Job) (durable : List Nat) : Job :=
  let counted := (j.special.map Prod.fst).filter (fun i => decide (i < j.committed))
  { j with owed := counted.filter (fun i => !durable.contains (j.voidTile i) || j.owed.contains i) }

/-- R165: the VOIDS increments that a job's unreleased indices without a place have lost, made again. -/
def State.repayVoids (s : State) (j : Job) : State :=
  ((j.owed.filter (fun i => decide (s.releasedOf j ≤ i))).foldl (fun (t : State) i => t.countVoided j i false []) s).modJob j.id
    (fun x => { x with owed := [] })

/-! ## Where a record is scored again -/

/-- What the replay does with a place. -/
inductive Fate where
  /-- It keeps the status it has. -/
  | held
  /-- It is voided. -/
  | void (status : Nat)
  /-- A group scores it. -/
  | score (g : Group)

/-- The group in which a dispatched record was compared, or that the saved image has in its place (R514). -/
def State.replayGroup (s : State) (j : Job) (h : Head) (p : JobPlace) : Option Group :=
  if p.grp ≠ 0 then s.groupNo p.grp else (j.groupFor h.key).bind s.group

/-- R341, R343: the fate of a place. A status that scoring does not give again stands. -/
def State.fate (s : State) (j : Job) (h : Head) (p : JobPlace) : Fate :=
  let no (status : Nat) : Fate := if p.settled then .held else .void status
  if p.settled && !(p.status == stOk || p.status == stVoidMiss) then .held
  else if p.dispatched then
    match s.replayGroup j h p with
    | none => no stVoidModel
    | some g => if g.suspended.contains j.modelNo then no stVoidSuspended else .score g
  else
    match s.destination j h with
    | .inl st => no st
    | .inr g => .score g

/-- Places that the replay has still to score. -/
def State.replays (s : State) : List (Job × Head × JobPlace) :=
  s.acc.heads.flatMap (fun h => h.places.filterMap (fun p =>
    if p.replay then (s.job p.job).map (fun j => (j, h, p)) else none))

/-- A group has the record in hand. -/
def State.inHand (s : State) (job idx : Nat) : Bool :=
  s.grp.attempts.any (fun a => a.job == job && a.idx == idx) ||
    s.grp.groups.any (fun g => g.ready.contains (job, idx) || g.run.contains (job, idx) || g.hasMark job idx ||
      g.tremolo.any (fun x => x.1 == job && x.2.1 == idx))

/-! ## Patch generations (R121, R443) -/

/-- The patch generation that a group's rows reach at the end of the replay. -/
def State.finalGen (s : State) (g : Group) : Nat :=
  if g.ended then (((s.areaOf g).map (fun a => ((a.journal.filter (fun e => e.base == g.base)).map (·.gen)).foldl max 0)).getD 0)
  else ((s.pwr.replayGens.find? (fun x => x.1 == g.base)).map Prod.snd).getD g.gen

/-- Generations of the dispatched records that a group has to score again. -/
def State.replayGenerations (s : State) (g : Group) : List Nat :=
  s.replays.filterMap (fun x =>
    match s.fate x.1 x.2.1 x.2.2 with
    | .score h => if h.gid = g.gid ∧ x.2.2.dispatched = true then some x.2.2.gen else none
    | _ => none)

/-- R121: the lowest generation among the records to be replayed in a group, or else the last. -/
def State.lowestGen (s : State) (g : Group) : Nat := ((s.replayGenerations g).min?).getD (s.finalGen g)

/-- R119, R443: the rows of a group at a generation, on every array that holds it. -/
def State.refill (s : State) (g : Group) (gen : Nat) : State :=
  let s1 := s.modGroup g.gid (fun x => { x with gen := gen })
  let spots := (s.positions g.base g.size).flatMap s.copiesOf
  spots.foldl (fun (t : State) p => t.fillPosition p (t.physOf p) (·.gen)) s1

/-- R121: a group whose records of the present generation are all scored goes on to the next generation that a record carries. -/
def State.advanceGen (s : State) (n : Nat) : State :=
  match s.groupNo n with
  | none => s
  | some g =>
    let gens := s.replayGenerations g
    if gens.any (fun x => decide (x ≤ g.gen)) then s
    else
      let next := (gens.min?).getD (s.finalGen g)
      if next = g.gen then s else s.refill g next

def State.advanceGens (s : State) : State := (s.grp.groups.map (·.gid)).foldl State.advanceGen s

/-! ## The replay -/

/-- A place that keeps its status: a lost VOIDS increment is made again (R165), and its entry written. -/
def State.holdPlace (s : State) (j : Job) (p : JobPlace) : State :=
  let s1 := if p.status ≠ stOk then s.countVoided j p.idx true p.oweB else s
  let s2 := s1.modPlace j.stream (j.seqOf p.idx) j.id (fun q => { q with oweA := [], oweB := [] })
  s2.settle j p.idx p.status p.multi p.overflow p.miss

/-- One place of the replay: it keeps its status, is voided, or becomes ready in its group at its generation. The CRC of the entry
is checked here, or at the dispatch (R334). -/
def State.replayOne (again : Bool) (s : State) (x : Job × Head × JobPlace) : State :=
  let (j, h, p) := x
  let fate := s.fate j h p
  let scored := match fate with | .score _ => true | _ => false
  if s.inHand j.id p.idx then s
  else if !scored && s.entryLost h again then
    match s.head h.stream h.seq with
    | some now => if now.headBad || now.blockBad then s.voidBuffer now else s
    | none => s
  else
    match fate with
    | .held => s.holdPlace j p
    | .void st => s.voidPlace j p.idx st false false
    | .score g =>
      let due := if p.dispatched then decide (p.gen ≤ g.gen) else decide (g.gen = s.finalGen g)
      if due then s.modGroup g.gid (fun y => { y with ready := y.ready ++ [(j.id, p.idx)] }) else s

/-- R455, R456: the gate of the replay: the image with the saved digest is live. Without a digest there was no image. -/
def State.replayGate (s : State) : Bool :=
  s.pwr.savedDigest.all (· == 0) || s.img.live.any (fun a => a.image.digest == s.pwr.savedDigest)

/-- R342, R455: every record is scored: the entries of every job stand, and REPLAY_DUE is 0. -/
def State.endReplay (s : State) : State :=
  let s1 := s.jobs.jobs.foldl (fun (t : State) j => if j.scoring then t.rewriteFrom j (s.releasedOf j) j.n else t) s
  { s1 with
    pwr := { s1.pwr with replayDue := false, replayGens := [], savedJournal := [] }
    tally := { s1.tally with unkept := [] } }

/-- REPLAY (R342): the replay goes on as far as the groups allow, and ends with its last record. -/
def execReplay (again : Bool) (s : State) : Host.Outcome State Fault Refusal :=
  .next (
    if s.up && s.pwr.replayDue && s.replayGate then
      let s0 := s.jobs.jobs.foldl State.repayVoids s
      let s1 := s0.advanceGens
      let s2 := s1.replays.foldl (State.replayOne again) s1
      if s2.replays.isEmpty then s2.advanceGens.endReplay else s2
    else s)

end Sys2Proof.Machine
end

