-- ==== Sys2Proof/Machine/Supply.lean ====
section
/-! DEFINITION. Supplies, starts and resets (R436 to R461, R472): the save into the Saddlebag, the start, the restart, and the engine reset. -/

namespace Sys2Proof.Machine

/-! ## Jobs that a reset ends (R449, R516) -/

/-- A patch of which a boundary has been taken is complete: its other groups take their boundary with it. -/
def State.completePatch (s : State) (p : PatchJob) : State :=
  match s.job p.job with
  | none => s
  | some j =>
    if p.items.length < descPatchEntries j.desc then
      p.groups.foldl (fun (t : State) n =>
        match t.jobs.patches.find? (fun q => q.job == p.job), t.groupNo n with
        | some q, some g => t.applyPatch j q g
        | _, _ => t) s
    else s

/-- R516: status and DONE of the job entry of a job that a reset ends. -/
def State.resetStatus (s : State) (j : Job) : Nat × Nat :=
  if j.op = opMount then (if s.mnt.active = some (.job j.id) ∧ s.mnt.applied = true then (stJobOk, 1) else (stJobReset, 0))
  else if j.op = opDrain then (stJobReset, j.acked)
  else (stJobReset, 0)

/-- R516: one job ends. Where its ring is up, its job entry is written, and its tiles and its context are free. Otherwise they wait
for the Mount that enables the ring (R344). -/
def State.endJob (s : State) (now : Bool) (j : Job) (status done : Nat) : State :=
  if now && s.ringOn j.ring then ((s.finishJob j.id status done 0).releaseTiles j).dropJob j.id
  else (s.finishJob j.id status done 0).modJob j.id (fun x => { x with ended := true })

/-- R516: every job in flight but the scoring jobs ends. now: the completion rings stand, which an engine reset leaves up. -/
def State.endJobs (s : State) (now : Bool) : State :=
  let s1 := s.jobs.patches.foldl State.completePatch s
  let s2 := s1.jobs.jobs.foldl (fun (t : State) j =>
    if j.scoring || j.written then t
    else
      let (st, done) := s1.resetStatus j
      t.endJob now j st done) s1
  { s2 with jobs := { s2.jobs with patches := [] } }

/-- R370: no job's cost is reserved any more. -/
def Job.unpriced (j : Job) : Job := { j with costRec := 0, costLeft := 0 }

/-! ## The save (R447 to R451) -/

/-- The digest of the live image, or that of the restart that still waits for its image. -/
def State.digestToSave (s : State) : List Byte :=
  match s.img.live with
  | some a => a.image.digest
  | none => if s.pwr.replayDue then s.pwr.savedDigest else List.replicate 32 0

/-- R174: cursors of a stream as a restart has them. -/
def Stream.restarted (x : Stream) : Stream :=
  { Stream.reset with
    started := x.started, next := x.accept, accept := x.accept, release := x.release, requested := x.requested, resync := x.resync }

/-- R344, R450: the state of a ring in a save. -/
def State.savedRing (s : State) (r : Nat) : Ring :=
  let x := s.ring r
  let c := s.live.ring r
  if s.jobs.jobs.any (fun j => j.ring == r) then
    { Ring.reset with
      subHead := x.subHead
      subTail := x.subHead
      cmpHead := s.liveIndex r
      cmpTail := x.cmpTail
      restoring := true
      savedS := if x.restoring then x.savedS else c.sSize
      savedC := if x.restoring then x.savedC else c.cSize }
  else Ring.reset

/-- Groups with the patch generation they keep. -/
def State.gensToSave (s : State) : List (Nat × Nat) :=
  if s.img.live.isSome then s.liveGroups.map (fun g => (g.base, s.finalGen g)) else s.pwr.replayGens

/-- R450: what the save holds. -/
def State.capture (s : State) : Save :=
  let t := (s.endJobs false).markReplay true
  let durable := s.live.durable
  { cause := s.pwr.sagSrc
    digest := s.digestToSave
    streams := t.ing.streams.map (fun x => (x.1, x.2.restarted))
    rings := (List.range 64).map t.savedRing
    jobs := { t.jobs with jobs := t.jobs.jobs.map Job.unpriced, doorbells := 0 }
    tiles := t.tally.tiles
    journal := if s.img.live.isSome then t.journal else s.pwr.savedJournal
    groupGens := t.gensToSave
    durable := durable
    words := t.tally.words.filter (fun w => durable.contains (w.1 / 256))
    heads := t.acc.heads }

/-- SAG_SRC codes of R460. -/
def sagCode : SagSource → Nat
  | .sagN => 1
  | .vddSfd => 2
  | .vddmSfd => 3
  | .vppSfd => 4

abbrev warmSource : Nat := 5

/-- R447, R459: a save begins: all work stops, and the save-begun mark stands. -/
def State.beginSave (s : State) (source : Nat) (warm : Bool) : State :=
  ({ s with
    pwr := { s.pwr with phase := .saving, sagSrc := source, warm := warm }
    bag := { s.bag with save := none, sealed := false, begun := true } }).refreshFault

/-- R436: a source is below its sag threshold at a level in mV; SAG_N is low beyond its filter. -/
def State.sagTrips (s : State) (source : SagSource) (mv : Nat) : Bool :=
  match source with
  | .sagN => true
  | .vddSfd => decide (mv + 50 < gaitMv s.gait.shown)
  | .vddmSfd => decide (mv < 740)
  | .vppSfd => decide (mv < 1650)

/-- R436: a rail at a level. -/
def Power.railAt (p : Power) (source : SagSource) (mv : Nat) : Power :=
  match source with
  | .sagN => p
  | .vddSfd => { p with vddMv := mv }
  | .vddmSfd => { p with vddmMv := mv }
  | .vppSfd => { p with vppMv := mv }

/-- The level of SAG_N and the range of VDDM_SFD after a source has tripped. -/
def State.tripped (s : State) (source : SagSource) : State :=
  { s with
    pins := { s.pins with sagN := s.pins.sagN && source != .sagN }
    pwr := { s.pwr with vddmKept := s.pwr.vddmKept && source != .vddmSfd } }

/-- SAG (R436, R441, R446 to R448): a sag begins a save, or turns a warm save into a sag save. mv: the level of the rail that crosses. -/
def execSag (source : SagSource) (mv : Nat) (s : State) : Host.Outcome State Fault Refusal :=
  .next (
    let s0 := { s with pwr := s.pwr.railAt source mv }
    if s.sagTrips source mv = false then s0
    else
      let s1 := s0.tripped source
      match s.pwr.phase with
      | .running => s1.beginSave (sagCode source) false
      | .saving =>
        if s.pwr.warm then ({ s1 with pwr := { s1.pwr with sagSrc := sagCode source, warm := false } }).refreshFault else s1
      | .inReset => s1)

/-- WARM_REQUEST (R441, R472). -/
def execWarmRequest (s : State) : Host.Outcome State Fault Refusal :=
  .next (if s.up then s.beginSave warmSource true else s)

/-- A module while the engine is in reset. -/
def LinkModule.off (l : LinkModule) : LinkModule := { l with state := 0, retraining := false, requests := [] }

/-- In reset nothing is driven towards the package link, and SFD_FAULT_N is released (R438). -/
def State.enterReset (s : State) : State :=
  ({ s with
    pwr := { s.pwr with phase := .inReset, accHeld := false }
    link := s.link.map LinkModule.off }).refreshFault

/-- SFD_SAVE_LAST of a save (R460). -/
def State.saveWord (s : State) (vhold : Nat) : Word :=
  let n := s.live.durable.length
  wordOf [((s.acc.bytes + 1023) / 1024, 0, 13), (n, 16, 7), (saveEnergyUp s.acc.bytes n, 32, 16), (min vhold 65535, 48, 16)]

/-- R448: the lowest VHOLD at which a save goes on, in mV. -/
abbrev vholdFloor : Nat := 2700

/-- SAVE_SEALED (R441, R447, R472): the save is sealed, and the engine enters reset. -/
def execSaveSealed (vhold : Nat) (s : State) : Host.Outcome State Fault Refusal :=
  .next (
    if s.pwr.phase ≠ .saving ∨ vhold < vholdFloor then s
    else
      let warm := s.pwr.warm
      let s1 := { s with
        bag := { s.bag with save := some s.capture, sealed := true, consumed := false, saves := satAdd 32 s.bag.saves 1 }
        pwr := { s.pwr with saveLast := s.saveWord vhold, vholdMv := vhold, vddmKept := warm, warm := false } }
      let s2 := if warm then s1.send .saveSealed else s1
      s2.enterReset)

/-- SAVE_INCOMPLETE (R448, R459): VHOLD has fallen below 2.70 V before the seal. -/
def execSaveIncomplete (s : State) : Host.Outcome State Fault Refusal :=
  .next (
    if s.pwr.phase = .saving then ({ s with pwr := { s.pwr with warm := false, vddmKept := false } }).enterReset else s)

/-- PACKAGE_WARM_RESET (R440, R164): the base die asserts the reset that follows a sealed warm save. Only what becomes of the
Tally is not settled by the save. -/
def execPackageWarmReset (vddmKept : Bool) (s : State) : Host.Outcome State Fault Refusal :=
  .next (
    if s.pwr.phase = .inReset ∧ vddmKept = false then { s with pwr := { s.pwr with vddmKept := false } } else s)

/-- VHOLD_LOW (R439): VHOLD crosses 3.20 V. -/
def execVholdLow (mv : Nat) (s : State) : Host.Outcome State Fault Refusal :=
  .next (
    let s1 := { s with pwr := { s.pwr with vholdMv := mv } }
    if s.up then s1.refreshHeld else s1)

/-! ## The start (R444, R445, R459) -/

/-- What the persistent area keeps of the fault manager (R419, R430, R444). -/
def Faults.persistent (f : Faults) : Faults :=
  { Faults.reset with log := f.log, logHead := f.logHead, ack := f.ack, lostAt := f.lostAt, pages := f.pages }

/-- R419: retirements, array remaps and OUT marks. -/
def Arrays.persistent (a : Arrays) : Arrays :=
  { Arrays.reset with
    map := a.map, out := a.out, retired := a.retired, retiredRows := a.retiredRows, retiredSlots := a.retiredSlots }

/-- The engine with every register at its reset value and the retirements of the unit applied (R444, step 1). Memory is not
kept (R440). -/
def State.cold (s : State) : State :=
  { s with
    live := Staged.reset
    shadow := Staged.reset
    sel := Selects.reset
    img := Images.reset
    ing := Ingest.reset
    ent := { Entities.reset with retired := s.ent.retired }
    snd := Soundboard.reset
    acc := { s.acc with heads := [] }
    rings := List.replicate 64 Ring.reset
    jobs := Jobs.reset
    arr := s.arr.persistent
    grp := Groups.reset
    tally := { Tally.reset with spared := s.tally.spared }
    mnt := MountState.reset
    led := Ledger.reset
    gait := GaitState.reset
    flt := s.flt.persistent
    link := [LinkModule.reset, LinkModule.reset]
    mem := []
    tap := if s.tap.selected = tapExtest then s.tap.bypassed else s.tap
    pins := { s.pins.idle with sagN := true }
    pwr := { Power.reset with phase := .running, sagSrc := s.pwr.sagSrc, saveLast := s.pwr.saveLast } }

/-- R164: the Tally of a restart. kept: words and status have never left the die. -/
def Tally.restored (t : Tally) (sv : Save) (kept : Bool) : Tally :=
  let status (x : Nat × Tile) : Nat × Tile :=
    if kept || sv.durable.contains x.1 then x else (x.1, { Tile.reset with owner := x.2.owner })
  let lost := if kept then t.unkept else (List.range 1024).filter (fun n => !sv.durable.contains n)
  { Tally.reset with
    words := if kept then t.words else sv.words
    tiles := (sv.tiles.map status).filter (fun x => x.2 != Tile.reset)
    spared := t.spared
    unkept := lost }

/-- R444, steps 3 and 4: the engine with a save restored. kept: the Tally is kept. -/
def State.restore (s : State) (sv : Save) (kept : Bool) : State :=
  let c := s.cold
  let owe (p : JobPlace) : JobPlace := ((sv.jobs.jobs.find? (fun j => j.id == p.job)).map (fun j => p.owe j sv.durable)).getD p
  let heads := if kept then sv.heads else sv.heads.map (fun h => { h with places := h.places.map owe })
  let jobs := if kept then sv.jobs else { sv.jobs with jobs := sv.jobs.jobs.map (fun j => j.owe sv.durable) }
  { c with
    live := { c.live with durable := sv.durable }
    shadow := { c.shadow with durable := sv.durable }
    ing := { c.ing with streams := sv.streams }
    rings := sv.rings
    jobs := jobs
    acc := { c.acc with heads := heads }
    tally := s.tally.restored sv kept
    bag := { c.bag with consumed := true }
    pwr := { c.pwr with
      cause := if sv.cause = warmSource then 2 else 1
      replayDue := true
      tallyKept := kept
      records := heads.length
      savedDigest := sv.digest
      savedJournal := sv.journal
      replayGens := sv.groupGens } }

/-- R445, R451: the save that the start restores. -/
def Saddlebag.valid (b : Saddlebag) (regionsOk : Bool) : Option Save :=
  if b.sealed && !b.consumed && regionsOk then b.save else none

/-- R459, R460: CAUSE of a start that restores nothing. -/
def Saddlebag.coldCause (b : Saddlebag) : Nat :=
  if b.sealed && !b.consumed then 5 else if b.begun then 4 else 0

/-- The telemetry target as a loss of its rails leaves it. -/
def Telemetry.lost (t : Telemetry) : Telemetry := ⟨0, none, false, [], t.answers⟩

/-- R444, step 5: the start is over. -/
def State.announceStart (s : State) : State := ((s.refreshFault.refreshHeld).send .ready).send (.notify 68)

/-- R436, R437: every rail is at its start threshold. -/
def railsGood (vdd vddm vpp vhold : Nat) : Bool :=
  decide (500 ≤ vdd) && decide (770 ≤ vddm) && decide (1710 ≤ vpp) && decide (3200 ≤ vhold)

/-- The rails at their levels in mV. -/
def Power.rails (p : Power) (vdd vddm vpp vhold : Nat) : Power :=
  { p with vddMv := vdd, vddmMv := vddm, vppMv := vpp, vholdMv := vhold }

/-- POWER_ON (R444): SAG_N is high, the base die has released the reset, and the rails stand at these levels. The engine starts when every
one is good, and stays in reset otherwise (R437, R447). -/
def execPowerOn (vdd vddm vpp vhold : Nat) (regionsOk : Bool) (s : State) : Host.Outcome State Fault Refusal :=
  .next (
    if s.pwr.phase ≠ .inReset then s
    else if railsGood vdd vddm vpp vhold = false then { s with pwr := s.pwr.rails vdd vddm vpp vhold }
    else
      let s1 := match s.bag.valid regionsOk with
        | some sv => s.restore sv (sv.cause == warmSource && s.pwr.vddmKept)
        | none =>
          let c := s.cold
          { c with pwr := { c.pwr with cause := s.bag.coldCause }, bag := { c.bag with consumed := true } }
      let s2 := if s1.pwr.cause = 2 then s1 else { s1 with tele := s1.tele.lost }
      ({ s2 with
        bag := { s2.bag with begun := false }
        pwr := s2.pwr.rails vdd vddm vpp vhold }).announceStart)

/-! ## The engine reset (R442, R443) -/

/-- R442: the staged fields that keep their values in effect. -/
def Staged.kept (c : Staged) : Staged :=
  { c with
    budget := Staged.reset.budget
    notify0 := Staged.reset.notify0
    notify1 := Staged.reset.notify1
    ledgerCfg := Staged.reset.ledgerCfg
    gait := Staged.reset.gait
    gaitWm := Staged.reset.gaitWm
    faultCfg := Staged.reset.faultCfg }

/-- A scale frame that the engine has accepted, of a block that is not accepted whole: the block's records come again
(R174, R193). -/
def HeldScale.kept (f : HeldScale) (accept : Word32) : Option HeldScale :=
  match f.pairedTo with
  | none => none
  | some b =>
    if blockOf accept = b ∧ accept.toNat % 64 ≠ 0 then some { f with left := 64 - accept.toNat % 64 }
    else if dist accept (BitVec.ofNat 32 (64 * b)) < 2 ^ 31 then some { f with pairedTo := none, left := 0 }
    else none

/-- R174, R442: ingest after an engine reset. -/
def State.ingestKept (s : State) : Ingest :=
  let keep (x : Nat × Pair) : Nat × Pair :=
    (x.1, { x.2 with coming := [], holding := x.2.holding.filterMap (fun f => f.kept (s.stream x.1).accept) })
  { Ingest.reset with
    order := s.ing.order
    streams := s.ing.streams.map (fun x => (x.1, { x.2.restarted with unwritten := x.2.unwritten }))
    pairs := s.ing.pairs.map keep }

/-- R249: a channel resumes at the frame whose SEQ is the stream's accept cursor. -/
def State.resumeChannel (s : State) (i : Nat) (x : Channel) : Channel :=
  let c := s.live.chan i
  let n := dist x.q0 (s.stream c.stream).accept
  if c.en then x.resumed c n s.snd.doorbells else { x with doors := [] }

/-- A group after an engine reset: its records wait for the replay (R396), and a switch that is due is made. -/
def State.groupKept (s : State) (g : Group) : Group :=
  { g with
    gen := s.finalGen g
    switchDue := false
    tandem := if g.ended then g.tandem else if g.switchDue then s.tandemSet s.live.twin g.base g.size else g.tandem
    paused := false
    ready := []
    marked := []
    tremolo := none
    run := []
    runPos := 0
    inB := false }

/-- R90, R443: the arrays without content; the mask numbers, moves and retirements stay. -/
def Arrays.emptied (a : Arrays) : Arrays :=
  { a with cells := [], descs := [], masks := [], rows := [], scales := [], buffers := [], nextPlace := 0, reserved := [] }

/-- R443: every group's rows at the lowest generation that a record to be replayed carries, on every array in parallel. -/
def State.reload (s : State) : State :=
  let s1 := { s with
    arr := s.arr.emptied
    grp := { s.grp with groups := s.grp.groups.map (fun g => { g with gen := s.lowestGen g }) } }
  ((List.range 32).filter s.inService).foldl (fun (t : State) p => t.fillPosition p (t.physOf p) (·.gen)) s1

/-- R455: REPLAY_DUE and the saved digest after an engine reset. A restart that still waits goes on waiting. -/
def State.replayAfter (s : State) : Power :=
  let waiting := s.pwr.replayDue && s.img.live.isNone
  let due := waiting || !s.acc.heads.isEmpty
  { s.pwr with
    cause := 3
    replayDue := due
    tallyKept := true
    records := 0
    savedDigest := if waiting then s.pwr.savedDigest else if due then s.digestToSave else List.replicate 32 0
    savedJournal := if waiting then s.pwr.savedJournal else []
    replayGens := if due then s.gensToSave else []
    accHeld := false }

/-- The keys marked LOST (R226). -/
def Entities.lostKeys (e : Entities) : List Word :=
  ((e.index.map Prod.snd ++ e.overflow.flatMap (fun b => b.2.entries.map Prod.snd) ++ e.stranded).filter (·.lost)).map (·.key)

/-- R362, R442: the gait after an engine reset. The voltage last requested and a change under way are no registers: the rail stands where it
stood. -/
def GaitState.kept (g : GaitState) : GaitState :=
  { GaitState.reset with
    now := g.now, requested := g.requested, moving := g.moving, written := g.written, vdone := g.vdone, attempts := g.attempts }

/-- R442: the state that an engine reset leaves, before the reload. -/
def State.kept (s : State) : State :=
  let c := s.live.kept
  { s with
    live := c
    shadow := c
    sel := Selects.reset
    img := { s.img with load := none, last := 0, foreign := 0, retiring := [] }
    ing := s.ingestKept
    ent := { s.ent with
      cache := [], buckets := [], lostBefore := s.ent.lostKeys, job := none, entityVoids := 0, ovfRefused := 0, retirements := 0 }
    snd := { s.snd with frame := none, doorbells := s.snd.doorbells + 1, channels := s.snd.channels.mapIdx (fun i x => s.resumeChannel i x) }
    jobs := { s.jobs with jobs := s.jobs.jobs.map Job.unpriced }
    grp := { s.grp with groups := s.grp.groups.map s.groupKept, attempts := [], gathered := [], multi := [], overs := [], miss := [] }
    tally := { s.tally with corrected := [] }
    mnt := MountState.reset
    led := Ledger.reset
    gait := s.gait.kept
    flt := { s.flt.persistent with dropped := s.flt.dropped, lostLines := s.flt.lostLines, lostItems := s.flt.lostItems }
    link := s.link.map (fun l => { l with requests := [] })
    pwr := s.replayAfter }

/-- ENGINE_RESET (R440, R442, R443, R472): taken unless the engine is in reset or writes a save. -/
def execEngineReset (s : State) : Host.Outcome State Fault Refusal :=
  .next (
    if s.up then
      let s1 := (((s.endJobs true).dropPending).markReplay false).kept.retarget
      let s2 := s1.ing.streams.foldl (fun (t : State) x => if x.2.started && decide (0 < x.2.unwritten) then t.writeAccept x.1 else t) s1
      (s2.reload.announceStart).pump
    else s)

end Sys2Proof.Machine
end

