-- ==== Sys2Proof/Machine/Tally.lean ====
section
/-! DEFINITION. The Tally: reads of its words (R160, R161), the write of a record's sums (R135 to R149, R154, R162, R165), drains
(R157 to R159), spare rows (R421) and the debug window (R510). -/

namespace Sys2Proof.Machine

/-! ## Reads of words -/

/-- The part of a Tally word: its tile row (R385). -/
def tallyPart (w : Nat) : Detected := { Detected.nowhere with check := evTallyWord, place := w / 256 }

/-- A word of the Tally in the fault log (R431): PLACE is the word within its tile, DETAIL the tile. -/
def State.logTally (s : State) (w : Nat) : State :=
  s.logEvent evTallyWord clsLasting 0 { Detected.nowhere with place := w % 256 } (w / 256)

def State.tallyWord (s : State) (w : Nat) : TallyWord := sget TallyWord.reset s.tally.words w
def State.putTally (s : State) (w : Nat) (x : TallyWord) : State :=
  { s with tally := { s.tally with words := sset TallyWord.reset s.tally.words w x, told := s.tally.told.filter (· != w) } }

/-- R160, R421: a corrected word is written back. A word that is corrected again at its next read has a lasting fault, and its
tile waits for a spare row. -/
def State.correctWord (s : State) (w : Nat) (v : Word) : State :=
  let s1 := s.putTally w ⟨v, 0⟩
  if s.tally.corrected.contains w || s.worn (tallyPart w) then
    let t := s1.tally
    ({ s1 with tally := { t with corrected := t.corrected.filter (· != w), sparing := insertNat t.sparing (w / 256) } }).logTally w
  else
    { s1 with
      tally := { s1.tally with corrected := insertNat s1.tally.corrected w }
      flt := (s1.flt.addTrans (tallyPart w)).count clsTransient }

/-- R161: a word with an uncorrectable error. It is reported once, until a write has given the word new bits. -/
def State.loseWord (s : State) (w : Nat) : State :=
  if s.tally.told.contains w then s
  else
    let s1 := s.modTile (w / 256) (fun t => { t with lost := insertNat t.lost (w % 256) })
    ({ s1 with tally := { s1.tally with told := insertNat s1.tally.told w } }).logTally w

/-- R160, R161: a read of a global word: the word and what the read leaves. -/
def State.readTally (s : State) (w : Nat) : Word × State :=
  let (v, corrected, lost) := tallyRead (s.tallyWord w)
  if corrected then (v, s.correctWord w v)
  else if lost then (v, s.loseWord w)
  else (v, { s with tally := { s.tally with corrected := s.tally.corrected.filter (· != w) } })

/-! ## The write of a record's sums -/

/-- A sum and the word it is added into; a wide one takes two words (R141, R144). -/
structure Addend where
  word : Nat
  wide : Bool
  value : Int
deriving DecidableEq, Repr

/-- R144 for a SCORE record: the words of its lanes or classes.
The sums are raw integers (R54). -/
def ModelDef.addends (m : ModelDef) (first : Nat) (ts : List Int) : List Addend :=
  (ts.mapIdx (fun e v => (e, v))).map (fun x =>
    ⟨first + x.1 + ((List.range x.1).filter m.certified).length, m.certified x.1, x.2⟩)

/-- R144 for a SCORE_TREMOLO record. -/
def ModelDef.tremoloAddends (m : ModelDef) (first : Nat) (sums squares : List Int) : List Addend :=
  if m.vote then sums.mapIdx (fun e v => ⟨first + e, false, v⟩)
  else
    sums.mapIdx (fun e v => (⟨first + 4 * e, true, v⟩ : Addend)) ++
      squares.mapIdx (fun e v => ⟨first + 4 * e + 2, true, v⟩)

/-- What a Tally write has kept of the words before it (R154). -/
structure Kept where
  undo : List (Nat × Word)
  sat : List Nat

/-- R135, R138: a word of a tile saturates. -/
def State.setSaturated (s : State) (w : Nat) : State :=
  s.modTile (w / 256) (fun t => { t with saturated := insertNat t.saturated (w % 256) })

/-- A word is written. A replay that writes into a tile that was not kept, or repeats a write that a tile has lost, rebuilds the tile
(R164, R165). -/
def State.storeTally (s : State) (owe : List Nat) (w : Nat) (v : Word) : State :=
  let s1 := s.putTally w ⟨v, 0⟩
  if s.tally.unkept.contains (w / 256) || owe.contains (w / 256) then s1.modTile (w / 256) (fun t => { t with rebuilt := true }) else s1

/-- R165: a write goes into a word unless its mark says that the word has it and no restart has lost its tile since.
So a retry repeats no write that has been made (R163). -/
def wordDue (mark : Bool) (owe : List Nat) (w : Nat) : Bool := !mark || owe.contains (w / 256)

/-- A saturation kept beside the write. -/
def State.noteSaturation (s : State) (k : Kept) (w : Nat) (sat : Bool) : State × Kept :=
  if sat then
    (s.setSaturated w, if (s.tile (w / 256)).saturated.contains (w % 256) then k else { k with sat := k.sat ++ [w] })
  else (s, k)

/-- R135: an addition into a standard lane word or a class word. -/
def State.addStandard (s : State) (mark : Bool) (owe : List Nat) (x : Addend) (k : Kept) : State × Kept :=
  if wordDue mark owe x.word = false then (s, k)
  else
    let (old, s1) := s.readTally x.word
    let (v, sat) := saturate max48 ((old.setWidth 48).toInt + x.value)
    let s2 := s1.storeTally owe x.word (BitVec.ofInt 64 v)
    s2.noteSaturation { k with undo := k.undo ++ [(x.word, old)] } x.word sat

/-- R141: an addition into a 128-bit value of two words. Where only the higher word is due, the lower one already has its
part. -/
def State.addWide (s : State) (mark : Bool) (owe : List Nat) (x : Addend) (k : Kept) : State × Kept :=
  let dueL := wordDue mark owe x.word
  let dueH := wordDue mark owe (x.word + 1)
  if !dueL && !dueH then (s, k)
  else
    let (lo, s1) := s.readTally x.word
    let (hi, s2) := s1.readTally (x.word + 1)
    let lo0 := if dueL then lo else lo - BitVec.ofInt 64 x.value
    let old : Int := (hi ++ lo0 : BitVec 128).toInt
    let (v, sat) := saturate max128 (old + x.value)
    let new : Quad := BitVec.ofInt 128 v
    let s3 := if dueL then s2.storeTally owe x.word (new.setWidth 64) else s2
    let s4 := if dueH then s3.storeTally owe (x.word + 1) ((new >>> 64).setWidth 64) else s3
    s4.noteSaturation { k with undo := k.undo ++ [(x.word, lo), (x.word + 1, hi)] } x.word sat

/-- A Tally write (R147, R149): the addends in order. -/
def State.addAll (s : State) (mark : Bool) (owe : List Nat) (xs : List Addend) : State × Kept :=
  xs.foldl (fun r x => if x.wide then r.1.addWide mark owe x r.2 else r.1.addStandard mark owe x r.2) (s, ⟨[], []⟩)

/-- R154, R162: the plane-A write of a record in Double, with its mark and what undoes it. -/
def State.writeHalf (s : State) (j : Job) (i : Nat) (p : JobPlace) (xs : List Addend) : State :=
  let (s1, k) := s.addAll p.markA p.oweA xs
  s1.modPlace j.stream (j.seqOf i) j.id (fun q =>
    { q with markA := true, oweA := [], undo := k.undo ++ q.undo, undoSat := k.sat ++ q.undoSat })

/-- R162: the last Tally write of a record, with its mark; the record is settled. half: it is the plane-B write. -/
def State.writeLast (s : State) (j : Job) (i : Nat) (p : JobPlace) (half : Bool) (xs : List Addend) (g : Gathered) : State :=
  let (s1, _) := s.addAll (if half then p.markB else p.markA) (if half then p.oweB else p.oweA) xs
  let s2 := s1.modPlace j.stream (j.seqOf i) j.id (fun q =>
    if half then { q with markB := true, oweB := [], undo := [], undoSat := [] } else { q with markA := true, oweA := [] })
  s2.settle j i stOk g.multi g.overflow g.miss

/-- The record leaves the pipeline. -/
def State.endRecord (s : State) (a : Attempt) : State :=
  let s1 := s.dropAttempt a.id
  { s1 with grp := { s1.grp with gathered := s1.grp.gathered.filter (fun x => !(x.job == a.job && x.idx == a.idx)) } }

/-- The sums of an attempt reach the Tally (R148, R260 to R263, R413). -/
def State.tallyStage (s : State) (a : Attempt) (j : Job) (m : ModelDef) (p : JobPlace) : State :=
  let tremolo := j.op == opTremolo
  let first := 256 * j.tile + a.idx * j.stride
  let ts := a.totals m
  let g0 := (s.gatheredOf a).getD (Gathered.fresh a m.elements)
  let g := if tremolo then g0 else g0.flags a
  if a.dbl && !a.plane && !tremolo then
    let s1 := if a.refold || g.missVoid then s else s.writeHalf j a.idx p (m.addends first ts)
    (s1.dropAttempt a.id).putGathered { g with half := ts }
  else if g.missVoid then (s.voidPlace j a.idx stVoidMiss g.multi g.overflow).endRecord a
  else
    let xs :=
      if tremolo then m.tremoloAddends first g.sums g.squares
      else if a.refold then m.addends first (List.zipWith (· + ·) g.half ts)
      else m.addends first ts
    (s.writeLast j a.idx p (a.dbl && !a.refold && !tremolo) xs g).endRecord a

/-- The sums of an attempt are complete. -/
def Attempt.summed (a : Attempt) (m : ModelDef) (tremolo : Bool) : Bool :=
  a.columnsDone && a.chordRoot.isSome && (a.tuned || !(tremolo || (List.range m.elements).any m.certified))

/-- R166, R342: while a replay rebuilds words, a record of an earlier job whose tiles the job's tiles meet still has to be scored. -/
def State.earlierTally (s : State) (j : Job) : Bool :=
  s.pwr.replayDue && s.acc.heads.any (fun h => h.places.any (fun p => p.replay && decide (p.job < j.id) &&
    (s.job p.job).any (fun x => decide (x.tile < j.tile + j.tiles) && decide (j.tile < x.tile + x.tiles))))

/-- TALLY_WRITE (R149): the sums of an attempt are added into their words, and the mark is set. -/
def execTallyWrite (attempt : Nat) (ups : List Upset) (s : State) : Host.Outcome State Fault Refusal :=
  .next (
    match s.attempt attempt with
    | none => s
    | some a =>
      match s.attemptModel a, s.openPlace a.job a.idx with
      | some m, some (j, _, p) =>
        if s.up = false ∨ a.summed m (j.op == opTremolo) = false ∨ s.earlierTally j = true then s
        else
          let s1 := s.disturbAll ups
          match (if a.size = 1 then a.badColumn m.standard [0] else none) with
          | some q => s1.failAttempt a (s1.residuePart a m q 0 0)
          | none => s1.tallyStage a j m p
      | _, _ => s)

/-! ## Tile status and drains -/

/-- SFD_TILE_STAT of a tile (R155). -/
def State.tileStat (s : State) (n : Nat) (durable : Bool) : Word :=
  let t := s.tile n
  let ring := (t.owner.bind s.job).map (·.ring)
  wordOf [(flag t.owner.isSome, 0, 1), (flag t.sat, 1, 1), (flag durable, 2, 1), (flag t.rebuilt, 3, 1), (flag t.eccLost, 4, 1),
    (flag t.lastAdd, 5, 1), (t.firstSat, 8, 8), (t.voids, 16, 16), (ring.getD 0, 32, 6), (t.eccWord, 40, 8)]

/-- One tile read for a drain: its bytes and the status at that moment. -/
def State.drainOne (s : State) (n : Nat) : List Byte × List Byte × State :=
  let (bs, s1) := (List.range 256).foldl (fun (r : List (List Byte) × State) i =>
    let (v, t) := r.2.readTally (256 * n + i)
    (leBytes 8 v.toNat :: r.1, t)) ([], s)
  (bs.reverse.flatten, leBytes 8 (s1.tileStat n (s1.live.durable.contains n)).toNat, s1)

/-- The words and the status words of a drain's tiles (R157, R158). -/
def State.drainAll (s : State) (tiles : List Nat) : List Byte × List Byte × State :=
  tiles.foldl (fun r n =>
    let (w, x, t) := r.2.2.drainOne n
    (r.1 ++ w, r.2.1 ++ x, t)) ([], [], s)

/-- DRAIN_TILE (R157, R158): the job reads its tiles and issues its writes. -/
def execDrainTile (job : Nat) (s : State) : Host.Outcome State Fault Refusal :=
  .next (
    match s.openJob job opDrain with
    | none => s
    | some j =>
      if s.memUp = false ∨ j.begun = true then s
      else
        let (w, x, s1) := s.drainAll j.tileList
        let pad := List.replicate ((64 - x.length % 64) % 64) (0 : Byte)
        (s1.write (descDest j.desc) (w ++ x ++ pad)).modJob job (fun y => { y with begun := true }))

/-- R159: the tiles from one count to another of a drain are cleared. -/
def State.zeroTiles (s : State) (j : Job) (lo hi : Nat) : State :=
  if descZeroAfter j.desc then s.clearTiles (j.tile + lo) (hi - lo) else s

/-- DRAIN_WRITES_ACKED (R150, R159): memory has acknowledged the writes of the first upTo tiles, and with the last the job ends. -/
def execDrainWritesAcked (job upTo : Nat) (s : State) : Host.Outcome State Fault Refusal :=
  .next (
    match s.openJob job opDrain with
    | none => s
    | some j =>
      let n := min upTo j.tiles
      if s.up = false ∨ j.begun = false ∨ n ≤ j.acked then s
      else
        let s1 := (s.zeroTiles j j.acked n).modJob job (fun y => { y with acked := n })
        if n = j.tiles then (s1.releaseTiles j).finishJob job stJobOk n 0 else s1)

/-! ## Spare rows and the debug window -/

/-- TILE_SPARED (R421): a tile that waits for a spare row takes it at a moment when it is not owned, or stays in service. -/
def execTileSpared (tile : Nat) (s : State) : Host.Outcome State Fault Refusal :=
  .next (
    if s.up = false ∨ s.tally.sparing.contains tile = false ∨ (s.tile tile).owner.isSome = true then s
    else
      let s1 := { s with tally := { s.tally with sparing := s.tally.sparing.filter (· != tile) } }
      if s.tally.spared.length < 8 then
        let fix (x : Nat × TallyWord) : Nat × TallyWord :=
          if x.1 / 256 = tile ∧ ones 72 x.2.flips.toNat = 1 then (x.1, ⟨x.2.value, 0⟩) else x
        let words := (s1.tally.words.map fix).filter (fun x => x.2 != TallyWord.reset)
        ({ s1 with tally := { s1.tally with words := words, spared := s1.tally.spared ++ [tile] } }).logEvent
          evTileSpared clsAction 0 Detected.nowhere tile
      else s1.logEvent evTileUnrepaired clsLasting 0 Detected.nowhere tile)

/-- SFD_DBG_TALLY (R510): a read of the selected word, and what SFD_DBG_TALLY_ECC then tells of it. -/
def execSfdDbgTally (s : State) : Host.Outcome State Fault Refusal :=
  .next (
    if s.up then
      let w := wfield s.sel.tally 0 18
      let x := s.tallyWord w
      let (v, corrected, lost) := tallyRead x
      let (_, s1) := s.readTally w
      let ecc := wordOf [((tallyStoredCheck x).toNat, 0, 8), (flag corrected, 8, 1), (flag lost, 9, 1)]
      { s1 with sel := { s1.sel with tallyValue := v, tallyEcc := ecc } }
    else s)

end Sys2Proof.Machine
end

