-- ==== Sys2Proof/Machine/Registers.lean ====
section
/-! DEFINITION. The register block (R470, R489 to R512): the value of every register as a read returns it, and the writes that
no other command makes. -/

namespace Sys2Proof.Machine

/-! ## Identity and status (R281, R495, R500) -/

abbrev idMaker : Nat := 0x2B5
abbrev idPart : Nat := 0x5F02

def Variant.code : Variant → Nat
  | .v16 => 0
  | .v32 => 1
  | .v32x => 2

/-- SFD_ID (R495). -/
def Package.idWord (p : Package) : Word :=
  wordOf [(1, 0, 1), (idMaker, 1, 11), (idPart, 12, 16), (p.version.toNat, 28, 4), (2, 32, 4)]

/-- SFD_CAP1 (R281, R497). -/
def State.cap1Word (s : State) : Word :=
  wordOf [(2, 0, 8), (0x40, 8, 8), (0x40, 16, 8), (0x400, 24, 12), (s.pkg.variant.active, 36, 6), (s.arr.spares.length, 42, 2),
    (s.pkg.variant.code, 44, 4)]

/-- SFD_CAP2 (R495). -/
abbrev cap2Word : Word := 0x0400404022200400

/-- The stream is Unseated (R194, R196). -/
def State.isUnseated (s : State) (st : Nat) : Bool :=
  (s.tables.route st).any (fun r => r.pair != 0 && (s.pair r.dataStream).unseated)

/-- MODELS of SFD_SUSPENDED (R435). -/
def State.suspendedModels (s : State) : Nat := maskOf (s.grp.groups.flatMap (fun g => if g.ended then [] else g.suspended))

def State.statusWord (s : State) : Word :=
  wordOf [(flag s.up, 0, 1), (flag s.img.live.isSome, 1, 1), (flag s.img.pend.isSome, 2, 1), (flag s.mnt.active.isSome, 3, 1),
    (flag s.pwr.replayDue, 4, 1), (flag (!s.flt.queue.isEmpty), 5, 1), (flag s.suspended, 6, 1), (flag s.pwr.accHeld, 7, 1),
    (flag s.vholdOk, 8, 1), (flag (!s.pins.faultN), 9, 1), (flag (s.tables.routes.any (fun r => s.isUnseated r.stream)), 10, 1),
    (flag s.gait.avsErr, 11, 1), (flag (s.suspendedModels != 0), 12, 1), (s.gait.shown, 16, 2)]

def State.accWord (s : State) : Word :=
  wordOf [(s.acc.heads.length, 0, 14), ((s.acc.heads.filter (·.block.isSome)).length, 16, 11), (s.ing.window.length, 32, 14),
    (s.jobs.jobs.length, 48, 9)]

/-! ## Entities, Soundboard, links, models -/

def Entities.lostEntries (e : Entities) : Nat :=
  let counts (x : EntityEntry) : Bool := x.lost && !e.lostBefore.contains x.key
  (e.index.filter (fun x => counts x.2)).length + (e.stranded.filter counts).length +
    (e.overflow.map (fun b => (b.2.entries.filter (fun x => counts x.2)).length)).sum

def State.entStatWord (s : State) : Word :=
  wordOf [(s.ent.indexUsed, 0, 18), (s.ent.count, 32, 23), (flag s.ent.job.isSome, 55, 1)]

def State.entCntWord (s : State) : Word :=
  wordOf [(min s.ent.entityVoids 65535, 0, 16), (min s.ent.lostEntries 65535, 16, 16), (min s.ent.ovfRefused 65535, 32, 16),
    (s.ent.retirements, 48, 16)]

def Channel.statWord (x : Channel) : Word := wordOf [(x.sample.toNat, 0, 32), (x.overruns, 32, 16), (x.backward, 48, 16)]

/-- SFD_LINK_STAT (R476). A module that retrains is not up. -/
def LinkModule.statWord (l : LinkModule) : Word :=
  wordOf [(if l.retraining then 0 else l.state, 0, 2), (flag l.fast, 2, 1), (l.failedLane, 8, 5), (l.retrains, 16, 16),
    (l.tagErr, 32, 16), (l.cut, 48, 16)]

/-- Word i of a digest (R280): bytes 8·i to 8·i + 7. -/
def digestWord (d : List Byte) (i : Nat) : Word := BitVec.ofNat 64 (leNat ((d.drop (8 * i)).take 8))

/-! ## Mount, load and groups -/

def State.mountStatWord (s : State) : Word :=
  let m := s.mnt
  wordOf [(flag m.active.isSome, 0, 1), (flag (m.waiting.contains .register), 1, 1), (flag m.lastOk, 2, 1),
    (flag (s.shadow != s.live), 3, 1), (m.appliedCnt, 16, 16), (m.failedCnt, 32, 16), (m.ignored, 48, 16)]

def State.loadStatWord (s : State) : Word :=
  wordOf [(flag s.loading, 0, 1), (flag s.img.pend.isSome, 1, 1), (flag s.img.live.isSome, 2, 1), (s.img.last, 16, 16),
    (min s.img.foreign 65535, 32, 16)]

/-- SFD_GROUP_STAT of a logical position (R294). -/
def State.groupStatWord (s : State) (pos : Nat) : Word :=
  let g := s.groupAt pos
  let num (f : Group → Nat) : Nat := (g.map f).getD 0
  let d := s.img.pend.bind (fun p => p.disp.find? (fun x => x.pos == pos))
  wordOf [(flag g.isSome, 0, 1), (num (·.base), 1, 5), (num (fun x => Nat.log2 x.size), 6, 3), (num (fun x => flag x.plane), 9, 1),
    (num (fun x => flag x.dbl), 10, 1), (flag (d.any (fun x => !x.planes.isEmpty)), 11, 1), (flag (d.any (·.keep)), 12, 1),
    (num (·.gen), 16, 16)]

/-! ## Rings (R305) -/

def State.ringState (s : State) (r : Nat) : Nat :=
  let x := s.ring r
  if x.restoring then 3 else if !(s.live.ring r).en then 0 else if x.halt ≠ haltNone then 2 else 1

/-- R317: the cause of lowest number that holds the ring's next job. -/
def State.ringHold (s : State) (r : Nat) : Option Nat :=
  match s.headStateFair r with
  | .held cs => cs.min?
  | _ => none

def State.ringStatWord (s : State) (r : Nat) : Word :=
  let x := s.ring r
  wordOf [(s.ringState r, 0, 2), (flag (s.ringHold r).isSome, 2, 1), ((s.ringHold r).getD 0, 3, 4), (x.halt, 8, 8),
    ((s.jobs.jobs.filter (fun j => j.ring == r)).length, 16, 9), (if x.restoring then 0 else (s.liveIndex r).toNat, 32, 32)]

/-- A register of a ring. The indices of a restoring ring are those of the save only from the Mount that enables it (R344). -/
def State.ringReg (s : State) (r reg : Nat) : Word :=
  let c := s.live.ring r
  let x := if (s.ring r).restoring then Ring.reset else s.ring r
  if reg = 0 then c.sbase
  else if reg = 8 then c.cbase
  else if reg = 16 then c.ctl
  else if reg = 40 then wordOf [(x.subHead.toNat, 0, 32), (x.subTail.toNat, 32, 32)]
  else if reg = 48 then wordOf [(x.cmpHead.toNat, 0, 32), (x.cmpTail.toNat, 32, 32)]
  else if reg = 56 then s.ringStatWord r
  else 0

/-! ## Streams (R197, R332) -/

def State.streamStatWord (s : State) (st : Nat) : Word :=
  match s.tables.route st with
  | none => wordOf [(s.inWindow st, 32, 14)]
  | some r =>
    wordOf [(if s.isUnseated st then 2 else 1, 0, 2), (flag (r.format == 1), 2, 1), (flag (r.pair == 1), 3, 1),
      (flag (r.pair == 2), 4, 1), (if r.pair = 0 then 0 else r.partner, 8, 12), (s.inWindow st, 32, 14)]

def Pair.unseatWord (p : Pair) : Word :=
  wordOf [(p.dataBlock, 0, 16), (p.scaleBlock, 16, 16), (flag p.noScale, 32, 1), (flag p.scaleBad, 33, 1)]

/-- SFD_STREAM_UNSEAT: zero for a stream that is no data stream of a pair. -/
def State.unseatReg (s : State) (st : Nat) : Word :=
  if (s.tables.route st).any (fun r => r.pair == 1) then (s.pair st).unseatWord else 0

def Stream.cntWord (x : Stream) : Word :=
  wordOf [(x.crcVoids, 0, 16), (x.formatVoids, 16, 16), (x.budgetVoids, 32, 16), (x.discards, 48, 16)]

/-- SFD_STREAM_ATTN of 64 streams. -/
def State.attnWord (s : State) (k : Nat) : Word :=
  BitVec.ofNat 64 (maskOf (((s.tables.routes.filter (fun r => r.stream / 64 == k && s.isUnseated r.stream)).map
    (fun r => r.stream % 64)).eraseDups))

/-! ## Gait, ledger, faults and supplies -/

def State.gaitWord (s : State) : Word :=
  wordOf [(s.gait.shown, 0, 2), (s.effectiveTarget, 2, 2), (flag s.gait.moving, 4, 1), (s.thermalCap, 5, 2),
    (flag s.suspended, 7, 1), (flag (s.tandemCeiling == 2), 8, 1), (flag s.gait.avsErr, 9, 1), (s.gait.changes, 16, 16),
    (s.gait.retries, 32, 16), (s.validSensors.length, 48, 4)]

def State.thermWord (s : State) (i : Nat) : Word :=
  let x := s.gait.sensors.getD i ⟨0, 0, false, false⟩
  wordOf [(x.temp, 0, 10), (flag x.bad, 10, 1), (x.peak, 16, 10)]

def State.balanceWord (s : State) : Word := (BitVec.ofInt 48 s.led.balance).setWidth 64

def State.faultStatWord (s : State) : Word :=
  wordOf [(flag (!s.flt.queue.isEmpty), 0, 1), (flag (!s.pins.faultN), 1, 1), (min (s.flt.queue.length - 1) 64, 8, 7),
    (s.flt.logHead.toNat, 32, 32)]

/-- R430, R435: the log holds the entry of an index at the index's place among 256. -/
def State.logEntry (s : State) : Option LogEntry :=
  s.flt.log.find? (fun e => e.index.toNat % 256 == wfield s.sel.faultLog 0 8)

def LogEntry.lowWord (e : LogEntry) : Word :=
  wordOf [(e.index.toNat, 0, 32), (e.event, 32, 8), (e.cls, 40, 2), (e.rung, 42, 3), (e.array, 48, 5), (e.phys, 53, 6),
    (flag e.plane, 59, 1), (e.bank, 60, 4)]

def LogEntry.highWord (e : LogEntry) : Word :=
  wordOf [(e.slot, 0, 8), (e.place, 8, 11), (e.model, 19, 6), (e.detail, 32, 32)]

/-- SFD_ARRAY_MAP of eight positions. -/
def State.mapWord (s : State) (i : Nat) : Word :=
  wordOf ((List.range 8).flatMap (fun k =>
    [(s.physOf (8 * i + k), 8 * k, 6), (flag (bitOf s.arr.out.toNat (8 * i + k)), 8 * k + 7, 1)]))

def State.codeWord (s : State) : Word :=
  wordOf [(s.flt.lineCorrected, 0, 16), (s.flt.uncorrectable, 16, 16), (s.flt.pages.length, 32, 9), (s.flt.mirrorReads, 48, 16)]

def State.storeWord (s : State) : Word :=
  wordOf [(s.flt.transients, 0, 16), (s.flt.lasting, 16, 16), (s.acc.retiredHeads.length, 32, 7), (s.acc.retiredBlocks.length, 39, 7),
    (s.tally.spared.length, 46, 4), (s.flt.logLost, 50, 14)]

/-- CYCLES of SFD_CURRY_STAT: what every array that runs Curry passes has completed. -/
def State.curryCycles (s : State) : Nat :=
  let xs := (s.flt.cycles.mapIdx (fun i c => (i, c))).filter (fun x => s.arrayLive x.1)
  ((xs.map Prod.snd).min?).getD 0

def State.holdWord (s : State) : Word :=
  wordOf [(flag s.vholdOk, 0, 1), (flag s.pwr.accHeld, 1, 1),
    (min (saveEnergyUp s.acc.bytes s.live.durable.length) 65535, 16, 16), (availEnergy s.live.holdUf, 32, 16),
    (min s.pwr.vholdMv 65535, 48, 16)]

def State.startWord (s : State) : Word :=
  wordOf [(s.pwr.cause, 0, 3), (s.pwr.sagSrc, 3, 3), (flag s.pwr.replayDue, 6, 1), (flag s.pwr.tallyKept, 7, 1),
    (s.pwr.records, 16, 14), (s.bag.saves, 32, 32)]

/-! ## Debug windows (R503 to R512) -/

/-- R504: the selected position is active and in service. -/
def State.shown (s : State) (pos : Nat) : Bool := decide (pos < s.pkg.variant.active) && !bitOf s.arr.out.toNat pos

/-- SFD_DBG_CELL, SFD_DBG_SLOT and SFD_DBG_MASK (R505). -/
def State.fretReg (s : State) (o : Nat) : Word :=
  let sel := s.sel.fret
  let pos := wfield sel 0 5
  let π := wbit sel 5
  let slot := wfield sel 6 8
  let phys := s.physOf pos
  if s.shown pos = false then 0
  else if o = 0x6008 then
    let c := s.arr.cell phys π slot (wfield sel 14 6)
    wordOf [(c.cfg.toNat, 0, 42), (flag c.parity, 42, 1)]
  else if o = 0x6010 then
    wordOf [((s.arr.desc phys π slot).toNat, 0, 10), (flag (s.arr.slotRetired phys slot), 10, 1),
      ((s.arr.imagePlace (s.primaryOf pos) π slot).2.2, 11, 8)]
  else ((s.arr.mask phys (wfield sel 20 10)) >>> (64 * ((o - 0x6020) / 8))).setWidth 64

/-- SFD_DBG_ROW_KEY, SFD_DBG_ROW_CARE and SFD_DBG_ROW_META (R506). -/
def State.rowReg (s : State) (o : Nat) : Word :=
  let sel := s.sel.row
  let pos := wfield sel 0 5
  let bank := wfield sel 8 4
  let r := wfield sel 16 11
  let phys := s.physOf pos
  let x := s.arr.row phys bank r
  if s.shown pos = false then 0
  else if o = 0x6048 then x.key
  else if o = 0x6050 then x.care
  else
    wordOf [(x.payload.toNat, 0, 32), (x.slot.toNat, 32, 4), (flag x.valid, 36, 1), (flag x.plane, 37, 1), (x.mlen.toNat, 38, 7),
      (flag x.p0, 45, 1), (flag x.p1, 46, 1), (x.rownum, 48, 11), (flag (s.arr.rowRetired phys bank r), 59, 1),
      (flag (reserveRow r), 60, 1), (flag (s.arr.reserved.contains (rowAt phys bank r)), 61, 1)]

def Capture.statWord (c : Capture) : Word :=
  wordOf [(flag c.armed, 0, 1), (flag c.done, 1, 1), (c.count, 2, 11), (c.rows.length, 16, 5)]

/-- The debug registers. -/
def State.debugReg (s : State) (o : Nat) : Word :=
  if o = 0x6000 then s.sel.fret
  else if o = 0x6008 ∨ o = 0x6010 ∨ (0x6020 ≤ o ∧ o < 0x6040) then s.fretReg o
  else if o = 0x6040 then s.sel.row
  else if 0x6048 ≤ o ∧ o < 0x6060 then s.rowReg o
  else if o = 0x6080 then s.sel.capture.ctl
  else if o = 0x6088 then s.sel.capture.statWord
  else if o = 0x6090 then s.sel.capture.recWord
  else if 0x6100 ≤ o ∧ o < 0x6180 then s.sel.capture.rows.getD ((o - 0x6100) / 8) 0
  else if o = 0x6200 then s.sel.tally
  else if o = 0x6208 then s.sel.tallyValue
  else if o = 0x6210 then s.sel.tallyEcc
  else if o = 0x6280 then s.sel.chord.sel
  else if o = 0x6288 then s.sel.chord.value
  else if o = 0x6290 then s.sel.chord.recWord
  else 0

/-! ## The block map (R494) -/

/-- Registers from 0x0000 to 0x0FFF. -/
def State.lowReg (s : State) (o : Nat) : Word :=
  let c := s.live
  let ch := c.chan (wfield s.sel.snd 0 6)
  let m := wfield s.sel.model 0 6
  let at_ (x : Sparse Nat) : Nat := sget 0 x m
  if o = 0x000 then s.pkg.idWord
  else if o = 0x008 then wordOf [(s.pkg.serial.toNat, 0, 48)]
  else if o = 0x010 then BitVec.ofNat 64 s.pkg.variant.cap0
  else if o = 0x018 then s.cap1Word
  else if o = 0x020 then cap2Word
  else if o = 0x400 then s.statusWord
  else if o = 0x408 then s.accWord
  else if o = 0x440 then c.budget
  else if o = 0x480 then c.entBase
  else if o = 0x488 then c.entCfg
  else if o = 0x490 then s.entStatWord
  else if o = 0x498 then s.entCntWord
  else if o = 0x4C0 then c.accBase
  else if o = 0x500 then s.sel.snd
  else if o = 0x508 then ch.cfg
  else if o = 0x510 then ch.band
  else if o = 0x518 then ch.key
  else if o = 0x520 then ch.ring
  else if o = 0x528 then (s.snd.channel (wfield s.sel.snd 0 6)).statWord
  else if o = 0x600 then c.notify0
  else if o = 0x608 then c.notify1
  else if o = 0x620 ∨ o = 0x628 then (s.link.getD ((o - 0x620) / 8) LinkModule.reset).statWord
  else if o = 0x700 then s.sel.model
  else if o = 0x708 then wordOf [(at_ s.grp.multi, 0, 32), (at_ s.grp.overs, 32, 32)]
  else if o = 0x710 then wordOf [(at_ s.grp.miss, 0, 32)]
  else if o = 0x808 then s.mountStatWord
  else if o = 0x810 then s.mnt.fail
  else if 0x840 ≤ o ∧ o < 0x860 then s.shadow.expect.getD ((o - 0x840) / 8) 0
  else if 0x860 ≤ o ∧ o < 0x880 then ((s.img.live.map (fun a => digestWord a.image.digest ((o - 0x860) / 8))).getD 0)
  else if o = 0x880 then s.loadStatWord
  else if o = 0x888 then c.hcopyBase
  else if o = 0x890 then c.hcopySize
  else if 0x900 ≤ o ∧ o < 0xA00 then s.groupStatWord ((o - 0x900) / 8)
  else 0

/-- Registers from 0x2000 to 0x3FFF. -/
def State.midReg (s : State) (o : Nat) : Word :=
  let c := s.live
  let st := wfield s.sel.stream 0 12
  let x := s.stream st
  if o = 0x2000 then s.sel.stream
  else if o = 0x2008 then s.streamStatWord st
  else if o = 0x2010 then wordOf [(x.next.toNat, 0, 32), (x.accept.toNat, 32, 32)]
  else if o = 0x2018 then s.unseatReg st
  else if o = 0x2020 then x.cntWord
  else if o = 0x2028 then wordOf [(x.release.toNat, 0, 32), (x.requested.toNat, 32, 32)]
  else if o = 0x2040 then wordOf [(s.ing.badGen, 0, 16), (s.ing.hdrErr, 16, 16), (s.ing.unrouted, 32, 16)]
  else if 0x2800 ≤ o ∧ o < 0x2A00 then s.attnWord ((o - 0x2800) / 8)
  else if o = 0x3008 then s.balanceWord
  else if o = 0x3010 then wordOf [(s.led.reserved, 0, 48), (s.led.spills, 48, 16)]
  else if o = 0x3018 then c.ledgerCfg
  else if o = 0x3020 then c.gait
  else if o = 0x3028 then c.gaitWm
  else if o = 0x3030 then s.gaitWord
  else if 0x3040 ≤ o ∧ o < 0x3080 then s.thermWord ((o - 0x3040) / 8)
  else if o = 0x3080 then BitVec.ofNat 64 s.led.core
  else if o = 0x3088 then BitVec.ofNat 64 s.led.sram
  else if o = 0x3090 then BitVec.ofNat 64 s.led.mram
  else if o = 0x3400 then s.faultStatWord
  else if o = 0x3408 then c.faultCfg
  else if o = 0x3418 then s.sel.faultLog
  else if o = 0x3420 then ((s.logEntry.map LogEntry.lowWord).getD 0)
  else if o = 0x3428 then ((s.logEntry.map LogEntry.highWord).getD 0)
  else if o = 0x3430 then wordOf [(c.twin, 0, 16), (s.flt.dropped.toNat, 16, 16)]
  else if 0x3440 ≤ o ∧ o < 0x3460 then s.mapWord ((o - 0x3440) / 8)
  else if o = 0x3460 then wordOf [(s.arr.retired.toNat, 0, 34)]
  else if o = 0x3468 then BitVec.ofNat 64 s.suspendedModels
  else if o = 0x3480 then c.mirror
  else if o = 0x3488 then c.spare
  else if o = 0x3490 then s.codeWord
  else if o = 0x3498 then s.storeWord
  else if o = 0x34A0 then wordOf [(s.curryCycles, 0, 32), (s.flt.mismatches, 32, 16)]
  else if o = 0x3800 then c.holdCfg
  else if o = 0x3808 then s.holdWord
  else if o = 0x3810 then s.startWord
  else if 0x3820 ≤ o ∧ o < 0x3840 then digestWord s.pwr.savedDigest ((o - 0x3820) / 8)
  else if o = 0x3840 then s.pwr.saveLast
  else 0

/-- R494: the value a read of an offset returns. A read of SFD_DBG_TALLY is the command of that name, and gives what it has
left here. An offset without a register, and a write-only register, read zero (R11, R490).
Offsets above 0x7FFF read zero (R12). -/
def State.readReg (s : State) (o : Nat) : Word :=
  if o % 8 ≠ 0 then 0
  else if o < 0x1000 then s.lowReg o
  else if o < 0x2000 then s.ringReg ((o - 0x1000) / 64) (o % 64)
  else if o < 0x4000 then s.midReg o
  else if o < 0x6000 then s.tileStat ((o - 0x4000) / 8) (s.shadow.durable.contains ((o - 0x4000) / 8))
  else if o < 0x8000 then s.debugReg o
  else 0

/-- R471: the engine's answer to a read of a register. It has none in reset, nor during a save, which ends in reset (R447). -/
def State.answer (s : State) (o : Nat) : Option Word := if s.up then some (s.readReg o) else none

/-! ## Writes -/

/-- SFD_DBG_CAP_CTL (R507): the capture is armed or disarmed. -/
def execSfdDbgCapCtl (value : Word) (s : State) : Host.Outcome State Fault Refusal :=
  .next (
    if s.up then
      let v := value &&& bitsOf [(0, 16)]
      let c := if wbit value 0 then ⟨v, true, false, 0, [], 0⟩ else { s.sel.capture with ctl := v, armed := false }
      { s with sel := { s.sel with capture := c } }
    else s)

/-- SFD_DBG_CHORD_SEL (R511): the Chord latch is armed. -/
def execSfdDbgChordSel (value : Word) (s : State) : Host.Outcome State Fault Refusal :=
  .next (
    if s.up then { s with sel := { s.sel with chord := ⟨value &&& bitsOf [(0, 21)], true, 0, 0⟩ } } else s)

/-- The select registers and their writable bits (R347, R503). -/
def selectBits (o : Nat) : Option (List (Nat × Nat)) :=
  if o = 0x500 ∨ o = 0x700 then some [(0, 6)]
  else if o = 0x2000 then some [(0, 12)]
  else if o = 0x3418 then some [(0, 32)]
  else if o = 0x6000 then some [(0, 30)]
  else if o = 0x6040 then some [(0, 5), (8, 4), (16, 11)]
  else if o = 0x6200 then some [(0, 18)]
  else none

/-- A select register written. -/
def Selects.write (x : Selects) (o : Nat) (v : Word) : Selects :=
  if o = 0x500 then { x with snd := v }
  else if o = 0x700 then { x with model := v }
  else if o = 0x2000 then { x with stream := v }
  else if o = 0x3418 then { x with faultLog := v }
  else if o = 0x6000 then { x with fret := v }
  else if o = 0x6040 then { x with row := v }
  else if o = 0x6200 then { x with tally := v }
  else x

/-- The agent number of the base die's root of trust (R470). -/
abbrev rootOfTrust : Nat := 1

/-- R278: a write of SFD_IMG_EXPECT, from the root of trust or counted in FOREIGN. -/
def State.writeExpect (s : State) (agent index : Nat) (value : Word) : State :=
  if agent = rootOfTrust then s.stageWrite (0x840 + 8 * index) value
  else { s with img := { s.img with foreign := satAdd 16 s.img.foreign 1 } }

/-- SFD_IMG_EXPECT_WRITE (R278, R470). -/
def execSfdImgExpectWrite (agent index : Nat) (value : Word) (s : State) : Host.Outcome State Fault Refusal :=
  .next (if s.up then s.writeExpect agent index value else s)

/-- The registers with behaviour of their own, each with the command it is (R347). -/
def immediateWrite (o : Nat) (v : Word) : Option (State → Host.Outcome State Fault Refusal) :=
  if o = 0x530 then some (execSfdSndDb v)
  else if 0x1000 ≤ o ∧ o < 0x2000 ∧ o % 64 = 24 then some (execSfdRingSdb ((o - 0x1000) / 64) v)
  else if 0x1000 ≤ o ∧ o < 0x2000 ∧ o % 64 = 32 then some (execSfdRingCdb ((o - 0x1000) / 64) v)
  else if o = 0x2050 then some (execSfdRelease v)
  else if o = 0x3000 then some (execSfdLedger v)
  else if o = 0x3030 then some (execAvsErrClear v)
  else if o = 0x3410 then some (execSfdFaultAck v)
  else if o = 0x800 then
    some (if wbit v 0 then execMountGo (wbit v 1) else if wbit v 1 then execMountDiscard else fun s => .next s)
  else if o = 0x6080 then some (execSfdDbgCapCtl v)
  else if o = 0x6280 then some (execSfdDbgChordSel v)
  else none

/-- REGISTER_WRITE (R346, R347, R489, R490): a staged field takes its shadow, a select its value; a write elsewhere is the command of
its register, or is ignored.
An access in reset or during a save is not answered (R471). -/
def execRegisterWrite (agent offset : Nat) (value : Word) (s : State) : Host.Outcome State Fault Refusal :=
  if s.up = false ∨ offset % 8 ≠ 0 then .next s
  else if 0x840 ≤ offset ∧ offset < 0x860 then .next (s.writeExpect agent ((offset - 0x840) / 8) value)
  else
    match immediateWrite offset value with
    | some f => f s
    | none =>
      match selectBits offset with
      | some fs => .next { s with sel := s.sel.write offset (value &&& bitsOf fs) }
      | none =>
        let ch := if 0x508 ≤ offset ∧ offset ≤ 0x520 then wfield s.sel.snd 0 6 else 0
        if isStaged offset then .next (s.stageWrite (stageTarget offset ch) value) else .next s

end Sys2Proof.Machine
end

