-- ==== Sys2Proof/Machine/Board.lean ====
section
/-! DEFINITION. Board signals: the telemetry target (R480, R481) and the TAP (R482, R496). -/

namespace Sys2Proof.Machine

/-! ## Telemetry reads (R481) -/

/-- R481: the register of a telemetry index. -/
def telemetryReg (i : Nat) : Option Nat :=
  if i = 0x00 then some 0x3030
  else if 1 ≤ i ∧ i ≤ 8 then some (0x3040 + 8 * (i - 1))
  else if i = 0x09 then some 0x3008
  else if 0x0A ≤ i ∧ i ≤ 0x0C then some (0x3080 + 8 * (i - 0x0A))
  else if i = 0x0D then some 0x3400
  else if i = 0x0E then some 0x3810
  else if i = 0x0F then some 0x3808
  else if i = 0x10 then some 0x018
  else none

/-- The value of a telemetry index: zero in reset, and for every other index. -/
def State.telemetryValue (s : State) (i : Nat) : Word :=
  if s.pwr.phase = .inReset then 0 else ((telemetryReg i).map s.readReg).getD 0

/-- R436: VPP_SFD is good: it has reached its start threshold, and has not sagged since the engine started. -/
def Power.vppGood (p : Power) : Bool := decide ((if p.phase = .inReset then 1710 else 1650) ≤ p.vppMv)

/-- R481: the target answers while VPP_SFD and VHOLD are good. -/
def State.targetUp (s : State) : Bool := s.pwr.vppGood && s.vholdOk

/-- The static address of the target, which is its I²C address (R480). -/
abbrev staticAddr : BitVec 7 := 0x5C

/-- R480: the address at which the target answers an access: its dynamic address, and without one the static address. -/
def Telemetry.address (t : Telemetry) : BitVec 7 := t.dynamic.getD staticAddr

/-- R480, R481: the target answers an access at an address. -/
def State.targetAt (s : State) (addr : BitVec 7) : Bool := s.targetUp && s.tele.address == addr

/-- TELEMETRY_SELECT (R481): a write of one byte selects an index. -/
def execTelemetrySelect (addr : BitVec 7) (bytes : List Byte) (s : State) : Host.Outcome State Fault Refusal :=
  .next (
    if s.targetAt addr = false then s
    else match bytes with
      | [b] => { s with tele := { s.tele with index := b.toNat } }
      | _ => s)

/-- TELEMETRY_READ (R481): 8 bytes of the indexed register, and the index advances. A target that does not answer gives no byte. -/
def execTelemetryRead (addr : BitVec 7) (s : State) : Host.Outcome State Fault Refusal :=
  .next (
    if s.targetAt addr = false then { s with tele := { s.tele with reply := [] } }
    else { s with tele := { s.tele with
      reply := leBytes 8 (s.telemetryValue s.tele.index).toNat
      index := (s.tele.index + 1) % 256 } })

/-! ## I3C common command codes (R480) -/

/-- A CCC that the target takes while it answers (R481). -/
def State.ccc (s : State) (t : Telemetry) : State := if s.targetUp then { s with tele := t } else s

/-- ENEC (R480): the controller enables in-band interrupts. -/
def execEnec (s : State) : Host.Outcome State Fault Refusal := .next (s.ccc { s.tele with events := true })

/-- DISEC (R480): the controller disables in-band interrupts. -/
def execDisec (s : State) : Host.Outcome State Fault Refusal := .next (s.ccc { s.tele with events := false })

/-- RSTDAA (R480): the dynamic address is given up. -/
def execRstdaa (s : State) : Host.Outcome State Fault Refusal := .next (s.ccc { s.tele with dynamic := none })

/-- A target without a dynamic address takes one. -/
def Telemetry.assign (t : Telemetry) (a : BitVec 7) : Telemetry :=
  if t.dynamic.isSome then t else { t with dynamic := some a }

/-- ENTDAA (R480). -/
def execEntdaa (addr : BitVec 7) (s : State) : Host.Outcome State Fault Refusal := .next (s.ccc (s.tele.assign addr))

/-- SETDASA (R480): the dynamic address for the static address 0x5C. -/
def execSetdasa (addr : BitVec 7) (s : State) : Host.Outcome State Fault Refusal := .next (s.ccc (s.tele.assign addr))

/-- An answer whose content R480 does not state. -/
def Telemetry.answer (t : Telemetry) (code : Nat) : Telemetry :=
  { t with reply := Config.i3cAnswer code t.answers, answers := t.answers + 1 }

/-- GETPID (R480). -/
def execGetpid (s : State) : Host.Outcome State Fault Refusal := .next (s.ccc (s.tele.answer 0))

/-- GETBCR (R480). -/
def execGetbcr (s : State) : Host.Outcome State Fault Refusal := .next (s.ccc (s.tele.answer 1))

/-- GETDCR (R480). -/
def execGetdcr (s : State) : Host.Outcome State Fault Refusal := .next (s.ccc (s.tele.answer 2))

/-- GETSTATUS (R480). -/
def execGetstatus (s : State) : Host.Outcome State Fault Refusal := .next (s.ccc (s.tele.answer 3))

/-- GETMRL (R480). -/
def execGetmrl (s : State) : Host.Outcome State Fault Refusal := .next (s.ccc (s.tele.answer 4))

/-! ## The TAP (R482, R496) -/

/-- The levels at the boundary cells: SAG_N, SFD_FAULT_N, AVS_CLK, AVS_MDATA, AVS_SDATA, I3C_SCL and I3C_SDA from bit 0. -/
def Pins.levels (p : Pins) : BitVec 7 :=
  BitVec.ofNat 7 (place (flag p.sagN) 0 1 + place (flag p.faultN) 1 1 + place (flag p.avsClk) 2 1 + place (flag p.avsMdata) 3 1 +
    place (flag p.avsSdata) 4 1 + place (flag p.i3cScl) 5 1 + place (flag p.i3cSda) 6 1)

/-- The output pins driven from the boundary cells. -/
def Pins.drive (p : Pins) (c : BitVec 7) : Pins :=
  { p with
    faultN := bitOf c.toNat 1, avsClk := bitOf c.toNat 2, avsMdata := bitOf c.toNat 3, i3cScl := bitOf c.toNat 5
    i3cSda := bitOf c.toNat 6 }

/-- The TAP takes another instruction. One that follows EXTEST gives the pins back (R438, R483). -/
def State.selectTap (s : State) (t : Tap) : State :=
  if s.tap.selected = tapExtest then ({ s with tap := t, pins := s.pins.idle }).refreshFault else { s with tap := t }

/-- BYPASS (R482). -/
def execBypass (s : State) : Host.Outcome State Fault Refusal := .next (s.selectTap s.tap.bypassed)

/-- IDCODE (R496): bits [31:0] of SFD_ID. -/
def execIdcode (s : State) : Host.Outcome State Fault Refusal :=
  .next (s.selectTap { s.tap with selected := tapIdcode, out := s.pkg.idWord.setWidth 32 })

/-- SAMPLE/PRELOAD (R482): the pins are sampled and the cells loaded. -/
def execSamplePreload (cells : BitVec 7) (s : State) : Host.Outcome State Fault Refusal :=
  .next (s.selectTap { s.tap with selected := tapSample, sampled := s.pins.levels, cells := cells })

/-- EXTEST (R482): the cells drive the output pins; while the engine is not in reset it acts as BYPASS. -/
def execExtest (s : State) : Host.Outcome State Fault Refusal :=
  .next (
    if s.pwr.phase = .inReset then
      { s with
        tap := { s.tap with selected := tapExtest, sampled := s.pins.levels }
        pins := s.pins.drive s.tap.cells }
    else s.selectTap s.tap.bypassed)

end Sys2Proof.Machine
end

