-- ==== Sys2Proof/Machine/Link.lean ====
section
/-! DEFINITION. The modules of the package link: a failed lane (R467) and the end of a training (R468). -/

namespace Sys2Proof.Machine

def State.module (s : State) (m : Nat) : LinkModule := s.link.getD m LinkModule.reset

def State.modModule (s : State) (m : Nat) (f : LinkModule → LinkModule) : State := { s with link := s.link.modify m f }

/-- The FAILED_LANE value of a module without a failed lane (R476). -/
abbrev noLane : Nat := 0x1F

/-- LINK_LANE (R467): the module degrades to ×8, which is a retrain, and the event names module and lane. A frame that the retrain
cuts ends under R466. -/
def execLinkLane (module lane : Nat) (cut : List Byte) (s : State) : Host.Outcome State Fault Refusal :=
  .next (
    if s.up = false ∨ (s.module module).state = 0 then s
    else
      let s1 := (s.modModule module (fun l => { l with failedLane := lane, degrade := true })).startRetrain module
      let s2 := s1.cutFrame module cut
      (s2.logEvent evLinkLane clsAction 0 Detected.nowhere (16 * module + lane)).pump)

/-- R468: the reads in flight on a module, and the writes of completion entries that it carried, are issued again on the same or another
module, the reads and the writes of each ring in their order. -/
def State.reissue (s : State) (source target : Nat) : State :=
  let rs := (s.module source).requests
  let ws := s.rings.flatMap (fun x => (x.unacked.filter (fun w => w.1 == source)).map Prod.snd)
  let s1 := s.modModule source (fun l => { l with requests := [] })
  let s2 := s1.modModule target (fun l => { l with requests := l.requests ++ rs })
  let moved (w : Nat × Nat) : Nat × Nat := if w.1 = source then (target, w.2) else w
  let s3 := { s2 with rings := s2.rings.map (fun x => { x with unacked := x.unacked.map moved }) }
  ws.foldl (fun t a => t.send (.memWrite target a)) (rs.foldl (fun t a => t.send (.memRead target a)) s3)

/-- R467, R476: a module after a training. The retrain after a failed lane is at ×8 at most, and a later one may reach ×16 again. The
training that first brings a module up is no retrain. -/
def LinkModule.trained (l : LinkModule) (width : Nat) (fast : Bool) : LinkModule :=
  let reached := if l.degrade && width == 1 then 2 else width
  { l with
    state := reached
    fast := fast
    retraining := false
    degrade := false
    retrains := if l.retraining || l.state != 0 then satAdd 16 l.retrains 1 else l.retrains
    failedLane := if reached = 1 then noLane else l.failedLane }

/-- LINK_RETRAIN_DONE (R466 to R468): the module is up at a width, or stays down. cut: the frame that the retrain cut, when no command
before it began the retrain. -/
def execLinkRetrainDone (module width : Nat) (fast : Bool) (cut : List Byte) (s : State) : Host.Outcome State Fault Refusal :=
  .next (
    if s.up = false then s
    else
      let other := 1 - module
      let s0 := if (s.module module).open then s.cutFrame module cut else s
      let s1 := s0.modModule module (fun l => l.trained width fast)
      let down := (s1.module other).state = 0 ∧ (s1.module other).retraining = false
      let s2 :=
        if width ≠ 0 then
          let t := s1.reissue module module
          if down then t.reissue other module else t
        else if (s1.module other).open then s1.reissue module other
        else s1
      s2.pump)

end Sys2Proof.Machine
end

