-- ==== Sys2Proof/Machine/MemPort.lean ====
section
/-! DEFINITION. The memory port: returns of memory reads and the outer code (R397 to R406). -/

namespace Sys2Proof.Machine

/-! ## Protected regions (R398, R399) -/

/-- The region that a line lies in. off is the offset within it. -/
inductive Region where
  | entity (off : Nat)
  | harness (off : Nat)
  | mirror (off : Nat)
  | spare (off : Nat)
  | plain
deriving DecidableEq, Repr

def State.regionOf (s : State) (a : Nat) : Region :=
  let c := s.live
  let within (base size : Nat) : Bool := decide (base ≤ a) && decide (a < base + size)
  if c.entRows ≠ 0 ∧ within c.entAddr c.entSize = true then .entity (a - c.entAddr)
  else if within c.hcopyAddr c.copySize then .harness (a - c.hcopyAddr)
  else if c.mirrorEn && within c.mirrorAddr c.copySize then .mirror (a - c.mirrorAddr)
  else if within c.spareAddr (4096 * c.spareCount) then .spare (a - c.spareAddr)
  else .plain

/-- The protected region of an address: its first address and its size (R398). -/
def State.regionBase (s : State) (a : Nat) : Option (Nat × Nat) :=
  let c := s.live
  match s.regionOf a with
  | .entity _ => some (c.entAddr, c.entSize)
  | .harness _ => some (c.hcopyAddr, c.copySize)
  | .mirror _ => some (c.mirrorAddr, c.copySize)
  | .spare _ => none
  | .plain => none

/-- A line written back with fresh checks (R402, R403). A spare page that stands for no page has no line to write back. -/
def State.writeBack (s : State) (a : Nat) (data : List Byte) : State :=
  match s.regionBase a with
  | none => s
  | some (base, size) => s.shelterWrite base size a data

/-- The line whose content a returned line carries: a spare page stands for the page last directed to it (R406). -/
def State.carried (s : State) (a : Nat) : Nat :=
  match s.regionOf a with
  | .spare off =>
    match s.flt.pages.reverse.find? (fun p => p.2 == off / 4096) with
    | some p => 4096 * p.1 + off % 4096
    | none => a
  | _ => a

/-! ## Pages (R402 to R404) -/

/-- DETAIL of a memory event: address bits [43:12]. -/
def pageDetail (a : Nat) : Nat := a / 4096 % 2 ^ 32

/-- The part of a memory error, for the count of transient errors (R385, R390). -/
def memPart (a : Nat) : Detected := { Detected.nowhere with check := evMemLine, place := a / 4096 }

/-- R404: the 32 lines of a page and their check bytes copied from where the page stood to where it is directed. Memory holds what was last
written or corrected, so that the copies are the lines as far as they can be corrected (log entry 59). -/
def State.copyPage (t s : State) (page : Nat) : State :=
  match s.regionBase (4096 * page) with
  | none => t
  | some (base, size) =>
    let (home, check) := s.pageHome base size page
    let (home', check') := t.pageHome base size page
    (t.write home' (memRead s.mem home 4096)).write check' (memRead s.mem check 256)

/-- R404: the page of a line is directed to the lowest free spare page, or stays in use. -/
def State.retirePage (s : State) (a : Nat) : State :=
  let page := a / 4096
  match lowestFree s.live.spareCount (s.flt.pages.map Prod.snd) with
  | some i =>
    let other (l : Nat) : Bool := l / 4096 != page
    let flt := { s.flt with pages := s.flt.pages ++ [(page, i)], correctedLines := s.flt.correctedLines.filter other }
    (({ s with flt := flt }).copyPage s page).logEvent evPageRetired clsAction 0 Detected.nowhere (pageDetail a)
  | none => s.logEvent evPageUnrepaired clsLasting 0 Detected.nowhere (pageDetail a)

/-! ## Lost lines (R405, R406) -/

/-- The line of the other copy of the harness copy, when a mirror is kept (R405). -/
def State.otherCopy (s : State) (a : Nat) : Option Nat :=
  if s.live.mirrorEn = false then none
  else
    match s.regionOf a with
    | .harness off => some (s.live.mirrorAddr + off)
    | .mirror off => some (s.live.hcopyAddr + off)
    | _ => none

/-- The items of an image that lie in bytes lo to hi − 1: half, array, slot and item (R406). -/
def Image.itemsIn (i : Image) (lo hi : Nat) : List (Nat × Nat × Nat × Nat) :=
  let touch (a b : Nat) : Bool := decide (a < hi) && decide (lo < b)
  i.extents.flatMap (fun e =>
    match e.rows with
    | some slots => (slots.mapIdx (fun k sl => (k, sl))).filterMap (fun p =>
        if touch (e.off + 24 * p.1) (e.off + 24 * p.1 + 24) then some (e.half, e.array, p.2, 65) else none)
    | none =>
      if touch e.off (e.off + part2Bytes) = false then []
      else
        let first := (max lo e.off - e.off) / 8
        let last := (min hi (e.off + part2Bytes) - e.off + 7) / 8
        (List.range' first (last - first)).map (fun w =>
          if w < 256 then (e.half, e.array, w, 64) else (e.half, e.array, (w - 256) / 64, (w - 256) % 64)))

/-- R406: an item cannot be rebuilt from the live planes: the check of its part on the die fails. -/
def State.cannotRebuild (s : State) (x : Nat × Nat × Nat × Nat) : Bool :=
  let (half, pos, slot, k) := x
  (s.liveGroups.filter (fun g => decide (g.base ≤ pos) && decide (pos < g.base + g.size))).any (fun g =>
    (g.imagePlanes.filter (fun π => g.halfOf π == half)).any (fun π =>
      let (q, ρ, t) := s.arr.present pos π slot
      let phys := s.physOf q
      let lo := rowAt phys 0 0
      if k < 64 then !(s.arr.cell phys ρ t k).ok
      else if k = 64 then false
      else (sparseRange s.arr.rows lo (lo + 18432)).any (fun r => r.2.own == some ⟨pos, π, slot⟩ && r.2.failedCheck.isSome)))

/-- R406 for a line of the live area without a good copy: it is rebuilt, and what cannot be rebuilt is marked lost. What is rebuilt is
what the engine last wrote there. -/
def State.loseHarness (s0 : State) (a off : Nat) : State :=
  let s := s0.writeBack a (s0.shelterRead a 128)
  match s.img.live with
  | none => s
  | some x =>
    let lost := (x.image.itemsIn off (off + 128)).filter s.cannotRebuild
    if lost.isEmpty then s
    else
      let items := lost.foldl (fun m y => insertNat m (harnessItem y.1 y.2.1 y.2.2.1 y.2.2.2)) s.flt.lostItems
      ({ s with flt := { s.flt with lostItems := items } }).logEvent evLineLost clsLasting 0 Detected.nowhere (pageDetail a)

/-- R406 for a line of the harness copy or its mirror without a good copy. -/
def State.loseBoth (s : State) (a off : Nat) : State :=
  let half := s.live.copySize / 2
  if decide (half ≤ off) == s.img.second then s.loseHarness a (off % half)
  else if s.img.pend.isSome then s.breakPending.logEvent evLineLost clsLasting 0 Detected.nowhere (pageDetail a)
  else s

/-- R405, R406 for a line of the harness copy or its mirror: the line of the other copy is read, unless that one is lost too. -/
def State.loseCopy (s : State) (a off : Nat) : State :=
  match s.otherCopy a with
  | none => s.loseBoth a off
  | some b =>
    if s.flt.mirrorWaits.contains b then
      ({ s with flt := { s.flt with mirrorWaits := s.flt.mirrorWaits.filter (· != b) } }).loseBoth a off
    else ({ s with flt := { s.flt with mirrorWaits := insertNat s.flt.mirrorWaits a } }).issueRead b

/-- R405: a good line of one copy of the harness copy rewrites the line of the other that waits for it. -/
def State.mendCopy (s : State) (a : Nat) (data : List Byte) : State :=
  match (s.otherCopy a).filter s.flt.mirrorWaits.contains with
  | none => s
  | some b =>
    ({ s with flt := { s.flt with
      mirrorWaits := s.flt.mirrorWaits.filter (· != b)
      mirrorReads := satAdd 16 s.flt.mirrorReads 1 } }).writeBack b data

/-- The free-row map's byte for 8 row places. -/
def Entities.freeByte (e : Entities) (i : Nat) : Byte :=
  BitVec.ofNat 8 ((List.range 8).foldl (fun n b => n + (flag (e.usedRows.contains (8 * i + b)) <<< b)) 0)

/-- A line marked lost, with its event. -/
def State.markLost (s : State) (a : Nat) : State :=
  ({ s with flt := { s.flt with lostLines := insertNat s.flt.lostLines a } }).logEvent
    evLineLost clsLasting 0 Detected.nowhere (pageDetail a)

/-- R406 for a line of the entity region. -/
def State.loseEntity (s : State) (a off : Nat) : State :=
  let rows := 0x400000 + ovfSize s.live.ovfBits
  if off < 0x200000 then (List.range 8).foldl (fun (t : State) i => t.writeMirror (off / 16 + i)) s
  else if off < 0x400000 then s.entWrite a ((List.range 128).map (fun i => s.ent.freeByte (off - 0x200000 + i)))
  else if off < rows then
    let j := (off - 0x400000) / 128
    let e := { s.ent with overflow := smod Bucket.empty s.ent.overflow j (fun b => { b with lost := true }) }
    ({ s with ent := e }).logEvent evLineLost clsLasting 0 Detected.nowhere (pageDetail a)
  else s.markLost a

/-- R403, R406: a line that stays uncorrectable. -/
def State.loseLine (s : State) (a : Nat) : State :=
  match s.regionOf a with
  | .entity off => s.loseEntity a off
  | .harness off => s.loseCopy a off
  | .mirror off => s.loseCopy a off
  | _ => s

/-! ## Returns of reads -/

/-- R216, R401: a line of a row place whose bytes differ from those last written: the fields are those returned. -/
def State.rereadRow (s : State) (a : Nat) (data : List Byte) : State :=
  match s.regionOf a with
  | .entity off =>
    let rows := 0x400000 + ovfSize s.live.ovfBits
    let r := (off - rows) / 640
    if off < rows ∨ s.ent.usedRows.contains r = false ∨ s.shelterRead a 128 = data then s
    else
      let s1 := s.write (s.redirect a) data
      let n := leNat (s1.shelterRead (s.live.rowAddr r) 640)
      { s1 with ent := { s1.ent with rows := sset EntityRow.missing s1.ent.rows r (rowOfBits n (n >>> 4096)) } }
  | _ => s

/-- A line's data accepted: memory holds them, the marks of the line are over, and they mend the other copy of a harness line. -/
def State.acceptLine (s : State) (a : Nat) (data : List Byte) : State :=
  let s1 := (s.rereadRow a data).write (s.redirect a) data
  let s2 := { s1 with flt := { s1.flt with
    retryLines := s1.flt.retryLines.filter (· != a)
    lostLines := s1.flt.lostLines.filter (· != a) } }
  s2.mendCopy a data

/-- A transient error of a line. -/
def State.transientLine (s : State) (a : Nat) : State :=
  ({ s with flt := s.flt.addTrans (memPart a) }).logEvent evMemLine clsTransient 0 Detected.nowhere (pageDetail a)

/-- A lasting fault of a line's page. -/
def State.lastingLine (s : State) (a : Nat) : State :=
  (s.logEvent evMemLine clsLasting 0 Detected.nowhere (pageDetail a)).retirePage a

/-- R401, R403: a line without an error. A second read that decodes made the first error transient, and the line is written back. -/
def State.cleanLine (s : State) (a : Nat) (data : List Byte) : State :=
  let s1 := if s.flt.retryLines.contains a then (s.transientLine a).writeBack a data else s
  let s2 := s1.acceptLine a data
  { s2 with flt := { s2.flt with correctedLines := s2.flt.correctedLines.filter (· != a) } }

/-- R402: a corrected line is used and written back. One that needs correction again at its next read has a lasting fault. -/
def State.correctLine (s : State) (a : Nat) (data : List Byte) : State :=
  let s1 := { s with flt := { s.flt with lineCorrected := satAdd 16 s.flt.lineCorrected 1 } }
  let s2 := (s1.acceptLine a data).writeBack a data
  if s.flt.correctedLines.contains a ∨ s.worn (memPart a) = true then
    ({ s2 with flt := { s2.flt with correctedLines := s2.flt.correctedLines.filter (· != a) } }).lastingLine a
  else ({ s2 with flt := { s2.flt with correctedLines := insertNat s2.flt.correctedLines a } }).transientLine a

/-- R403: an uncorrectable line is read once more, and is lost when that fails. -/
def State.failLine (s : State) (a : Nat) : State :=
  let s1 := { s with flt := { s.flt with uncorrectable := satAdd 16 s.flt.uncorrectable 1 } }
  if s.flt.retryLines.contains a ∨ s.worn (memPart a) = true then
    let s2 := { s1 with flt := { s1.flt with retryLines := s1.flt.retryLines.filter (· != a) } }
    (s2.lastingLine a).loseLine a
  else ({ s1 with flt := { s1.flt with retryLines := insertNat s1.flt.retryLines a } }).issueRead a

/-- R468: the module that a read returns on: the one that carried its request. A read that a command makes whole in its own step goes by the
module that its address has now (log entry 19). -/
def State.carrier (s : State) (addr : Nat) : Nat :=
  (s.link.findIdx? (fun l => l.requests.contains addr)).getD (s.readModule addr)

/-- MEMORY_READ_RETURN (R401 to R406): a line returns, on the module that carried its request (R468). Plain memory is taken as it is. -/
def execMemoryReadReturn (addr : Nat) (line check : List Byte) (s : State) : Host.Outcome State Fault Refusal :=
  .next (
    let m := s.carrier addr
    if s.up = false ∨ (s.link.getD m LinkModule.reset).open = false then s
    else
      let s1 := { s with link := s.link.modify m (fun l => { l with requests := l.requests.erase addr }) }
      let a := s1.carried addr
      if s1.regionOf a = .plain then s1.write a line
      else
        match rsDecode s1.live.correct line check with
        | .clean => s1.cleanLine a line
        | .corrected data => s1.correctLine a data
        | .uncorrectable => s1.failLine a)

end Sys2Proof.Machine
end

