-- ==== Sys2Proof/Machine/Dispatch.lean ====
section
/-! DEFINITION. The meaning of each command: one arm for each constructor of Instr. -/

namespace Sys2Proof.Machine

def exec (i : Instr) (s : State) : Host.Outcome State Fault Refusal :=
  match i with
  | .frameArrival module bytes => Sys2Proof.Machine.execFrameArrival module bytes s
  | .decodeDone lane wait => Sys2Proof.Machine.execDecodeDone lane wait s
  | .decodeBudget lane wait => Sys2Proof.Machine.execDecodeBudget lane wait s
  | .entityJoin stream seq again ups => Sys2Proof.Machine.execEntityJoin stream seq again ups s
  | .outriderFetch stream seq decodes => Sys2Proof.Machine.execOutriderFetch stream seq decodes s
  | .acceptance stream => Sys2Proof.Machine.execAcceptance stream s
  | .jobDispatch => Sys2Proof.Machine.execJobDispatch s
  | .jobRefusal ring => Sys2Proof.Machine.execJobRefusal ring s
  | .score job => Sys2Proof.Machine.execScore job s
  | .scoreTremolo job => Sys2Proof.Machine.execScoreTremolo job s
  | .entityUpdate job again => Sys2Proof.Machine.execEntityUpdate job again s
  | .entityEvict job again => Sys2Proof.Machine.execEntityEvict job again s
  | .entityInvalidate job again => Sys2Proof.Machine.execEntityInvalidate job again s
  | .leafPatch job => Sys2Proof.Machine.execLeafPatch job s
  | .patchBoundary job base => Sys2Proof.Machine.execPatchBoundary job base s
  | .loadHarness job => Sys2Proof.Machine.execLoadHarness job s
  | .loadFirstPass job => Sys2Proof.Machine.execLoadFirstPass job s
  | .loadSecondPass job badCell => Sys2Proof.Machine.execLoadSecondPass job badCell s
  | .mount job => Sys2Proof.Machine.execMount job s
  | .mountGo discard => Sys2Proof.Machine.execMountGo discard s
  | .mountDiscard => Sys2Proof.Machine.execMountDiscard s
  | .mountApply => Sys2Proof.Machine.execMountApply s
  | .groupPlaneSwitch base badCopies => Sys2Proof.Machine.execGroupPlaneSwitch base badCopies s
  | .planeEndInvalidate ended => Sys2Proof.Machine.execPlaneEndInvalidate ended s
  | .drainTile job => Sys2Proof.Machine.execDrainTile job s
  | .drainWritesAcked job upTo => Sys2Proof.Machine.execDrainWritesAcked job upTo s
  | .fence job => Sys2Proof.Machine.execFence job s
  | .fenceComplete job => Sys2Proof.Machine.execFenceComplete job s
  | .release job => Sys2Proof.Machine.execRelease job s
  | .sfdRelease value => Sys2Proof.Machine.execSfdRelease value s
  | .recordDispatch base again ups => Sys2Proof.Machine.execRecordDispatch base again ups s
  | .bridgeSearch attempt pos bank ups => Sys2Proof.Machine.execBridgeSearch attempt pos bank ups s
  | .accumulationColumn attempt pos ups => Sys2Proof.Machine.execAccumulationColumn attempt pos ups s
  | .chordNode attempt level node ups => Sys2Proof.Machine.execChordNode attempt level node ups s
  | .tunerAdd attempt ups => Sys2Proof.Machine.execTunerAdd attempt ups s
  | .tallyWrite attempt ups => Sys2Proof.Machine.execTallyWrite attempt ups s
  | .recordCommit job => Sys2Proof.Machine.execRecordCommit job s
  | .doubleRunSwitch base => Sys2Proof.Machine.execDoubleRunSwitch base s
  | .faultRecovery ups badSpares twinWrong => Sys2Proof.Machine.execFaultRecovery ups badSpares twinWrong s
  | .curryItem phys ups => Sys2Proof.Machine.execCurryItem phys ups s
  | .tileSpared tile => Sys2Proof.Machine.execTileSpared tile s
  | .memoryReadReturn addr line check => Sys2Proof.Machine.execMemoryReadReturn addr line check s
  | .linkLane module lane cut => Sys2Proof.Machine.execLinkLane module lane cut s
  | .linkRetrainDone module width fast cut => Sys2Proof.Machine.execLinkRetrainDone module width fast cut s
  | .sfdRingSdb ring value => Sys2Proof.Machine.execSfdRingSdb ring value s
  | .sfdRingCdb ring value => Sys2Proof.Machine.execSfdRingCdb ring value s
  | .sfdSndDb value => Sys2Proof.Machine.execSfdSndDb value s
  | .sndFrameStart => Sys2Proof.Machine.execSndFrameStart s
  | .sndFrameDone => Sys2Proof.Machine.execSndFrameDone s
  | .sfdLedger value => Sys2Proof.Machine.execSfdLedger value s
  | .ledgerDebit rail => Sys2Proof.Machine.execLedgerDebit rail s
  | .avsPoll wrote ok vdone => Sys2Proof.Machine.execAvsPoll wrote ok vdone s
  | .gaitReached mv => Sys2Proof.Machine.execGaitReached mv s
  | .avsErr timeout => Sys2Proof.Machine.execAvsErr timeout s
  | .avsErrClear value => Sys2Proof.Machine.execAvsErrClear value s
  | .sensorConversion sensor code ok => Sys2Proof.Machine.execSensorConversion sensor code ok s
  | .sfdFaultAck value => Sys2Proof.Machine.execSfdFaultAck value s
  | .sfdDbgCapCtl value => Sys2Proof.Machine.execSfdDbgCapCtl value s
  | .sfdDbgChordSel value => Sys2Proof.Machine.execSfdDbgChordSel value s
  | .sfdDbgTally => Sys2Proof.Machine.execSfdDbgTally s
  | .registerWrite agent offset value => Sys2Proof.Machine.execRegisterWrite agent offset value s
  | .sfdImgExpectWrite agent index value => Sys2Proof.Machine.execSfdImgExpectWrite agent index value s
  | .powerOn vdd vddm vpp vhold regionsOk => Sys2Proof.Machine.execPowerOn vdd vddm vpp vhold regionsOk s
  | .engineReset => Sys2Proof.Machine.execEngineReset s
  | .warmRequest => Sys2Proof.Machine.execWarmRequest s
  | .packageWarmReset vddmKept => Sys2Proof.Machine.execPackageWarmReset vddmKept s
  | .sag source mv => Sys2Proof.Machine.execSag source mv s
  | .saveSealed vhold => Sys2Proof.Machine.execSaveSealed vhold s
  | .saveIncomplete => Sys2Proof.Machine.execSaveIncomplete s
  | .vholdLow mv => Sys2Proof.Machine.execVholdLow mv s
  | .replay again => Sys2Proof.Machine.execReplay again s
  | .telemetrySelect addr bytes => Sys2Proof.Machine.execTelemetrySelect addr bytes s
  | .telemetryRead addr => Sys2Proof.Machine.execTelemetryRead addr s
  | .enec => Sys2Proof.Machine.execEnec s
  | .disec => Sys2Proof.Machine.execDisec s
  | .rstdaa => Sys2Proof.Machine.execRstdaa s
  | .entdaa addr => Sys2Proof.Machine.execEntdaa addr s
  | .setdasa addr => Sys2Proof.Machine.execSetdasa addr s
  | .getpid => Sys2Proof.Machine.execGetpid s
  | .getbcr => Sys2Proof.Machine.execGetbcr s
  | .getdcr => Sys2Proof.Machine.execGetdcr s
  | .getstatus => Sys2Proof.Machine.execGetstatus s
  | .getmrl => Sys2Proof.Machine.execGetmrl s
  | .bypass => Sys2Proof.Machine.execBypass s
  | .idcode => Sys2Proof.Machine.execIdcode s
  | .samplePreload cells => Sys2Proof.Machine.execSamplePreload cells s
  | .extest => Sys2Proof.Machine.execExtest s
  | .memoryWriteAcknowledged ring => Sys2Proof.Machine.execMemoryWriteAcknowledged ring s

end Sys2Proof.Machine
end

