-- ==== Sys2Proof/Safety.lean ====
section
/-! DEFINITION. What counts as a safe run, and the terms that the statements use: the parts of the state, what a command may
change, and properties of states. -/

namespace Sys2Proof.Safety
open Sys2Proof.Machine

/-- A step answers a next state. -/
def Goes (s : State) : Prop := ∃ t, step s = .next t

/-- n steps each answer a next state, and t is the last. -/
inductive Reaches : State → Nat → State → Prop where
  | zero (s : State) : Reaches s 0 s
  | succ {s t u : State} {n : Nat} : step s = .next t → Reaches t n u → Reaches s (n + 1) u

/-! ## Frames -/

/-- The parts of the state, one for each field. -/
inductive Part where
  | pkg
  | live
  | shadow
  | sel
  | img
  | ing
  | ent
  | snd
  | acc
  | rings
  | jobs
  | arr
  | grp
  | tally
  | mnt
  | led
  | gait
  | flt
  | pwr
  | bag
  | link
  | tele
  | tap
  | pins
  | mem
  | out
  | pending
deriving DecidableEq, Repr

/-- A state with the parts of a list blanked, so that two states can be compared outside them. -/
def mask (fs : List Part) (s : State) : State where
  pkg := if Part.pkg ∈ fs then State.reset.pkg else s.pkg
  live := if Part.live ∈ fs then State.reset.live else s.live
  shadow := if Part.shadow ∈ fs then State.reset.shadow else s.shadow
  sel := if Part.sel ∈ fs then State.reset.sel else s.sel
  img := if Part.img ∈ fs then State.reset.img else s.img
  ing := if Part.ing ∈ fs then State.reset.ing else s.ing
  ent := if Part.ent ∈ fs then State.reset.ent else s.ent
  snd := if Part.snd ∈ fs then State.reset.snd else s.snd
  acc := if Part.acc ∈ fs then State.reset.acc else s.acc
  rings := if Part.rings ∈ fs then State.reset.rings else s.rings
  jobs := if Part.jobs ∈ fs then State.reset.jobs else s.jobs
  arr := if Part.arr ∈ fs then State.reset.arr else s.arr
  grp := if Part.grp ∈ fs then State.reset.grp else s.grp
  tally := if Part.tally ∈ fs then State.reset.tally else s.tally
  mnt := if Part.mnt ∈ fs then State.reset.mnt else s.mnt
  led := if Part.led ∈ fs then State.reset.led else s.led
  gait := if Part.gait ∈ fs then State.reset.gait else s.gait
  flt := if Part.flt ∈ fs then State.reset.flt else s.flt
  pwr := if Part.pwr ∈ fs then State.reset.pwr else s.pwr
  bag := if Part.bag ∈ fs then State.reset.bag else s.bag
  link := if Part.link ∈ fs then State.reset.link else s.link
  tele := if Part.tele ∈ fs then State.reset.tele else s.tele
  tap := if Part.tap ∈ fs then State.reset.tap else s.tap
  pins := if Part.pins ∈ fs then State.reset.pins else s.pins
  mem := if Part.mem ∈ fs then State.reset.mem else s.mem
  out := if Part.out ∈ fs then State.reset.out else s.out
  pending := if Part.pending ∈ fs then State.reset.pending else s.pending

/-- Two states agree on every part outside a list. -/
def OnlyChanges (fs : List Part) (s t : State) : Prop := mask fs t = mask fs s

/-- The families of commands. -/
inductive Family where
  | records
  | jobs
  | images
  | scoring
  | registers
  | supplies
  | board
deriving DecidableEq, Repr

/-- The family of a command. -/
def family : Instr → Family
  | .frameArrival _ _ | .decodeDone _ _ | .decodeBudget _ _ | .acceptance _ | .sfdSndDb _ | .sndFrameStart
    | .sndFrameDone | .entityJoin _ _ _ _ | .outriderFetch _ _ _ | .entityUpdate _ _ | .entityEvict _ _
    | .entityInvalidate _ _ | .memoryReadReturn _ _ _ | .memoryWriteAcknowledged _ | .linkLane _ _ _
    | .linkRetrainDone _ _ _ _ => .records
  | .jobDispatch | .jobRefusal _ | .score _ | .scoreTremolo _ | .fence _ | .fenceComplete _ | .release _
    | .sfdRelease _ | .sfdRingSdb _ _ | .sfdRingCdb _ _ | .recordCommit _ | .drainTile _
    | .drainWritesAcked _ _ => .jobs
  | .leafPatch _ | .patchBoundary _ _ | .loadHarness _ | .loadFirstPass _ | .loadSecondPass _ _ | .mount _
    | .mountGo _ | .mountDiscard | .mountApply | .groupPlaneSwitch _ _ | .planeEndInvalidate _ => .images
  | .recordDispatch _ _ _ | .bridgeSearch _ _ _ _ | .accumulationColumn _ _ _ | .chordNode _ _ _ _
    | .tunerAdd _ _ | .tallyWrite _ _ | .doubleRunSwitch _ | .faultRecovery _ _ _ | .curryItem _ _
    | .tileSpared _ | .sfdFaultAck _ => .scoring
  | .sfdLedger _ | .ledgerDebit _ | .avsPoll _ _ _ | .gaitReached _ | .avsErr _ | .avsErrClear _
    | .sensorConversion _ _ _ | .sfdDbgCapCtl _ | .sfdDbgChordSel _ | .sfdDbgTally | .registerWrite _ _ _
    | .sfdImgExpectWrite _ _ _ => .registers
  | .powerOn _ _ _ _ _ | .engineReset | .warmRequest | .packageWarmReset _ | .sag _ _ | .saveSealed _ | .saveIncomplete
    | .vholdLow _ | .replay _ => .supplies
  | .telemetrySelect _ _ | .telemetryRead _ | .enec | .disec | .rstdaa | .entdaa _ | .setdasa _ | .getpid | .getbcr
    | .getdcr | .getstatus | .getmrl | .bypass | .idcode | .samplePreload _ | .extest => .board

/-- The parts of the state that a command may change. -/
def partsOf : Instr → List Part
  | .frameArrival _ _ => [.ing, .pwr, .link, .out]
  | .linkRetrainDone _ _ _ _ => [.ing, .rings, .pwr, .link, .out]
  | .decodeDone _ _ | .decodeBudget _ _ => [.ing, .pwr, .out]
  | .entityJoin _ _ _ _ => [.ing, .ent, .flt, .pwr, .pins, .mem, .out]
  | .outriderFetch _ _ _ => [.ing, .ent]
  | .acceptance _ => [.ing, .acc, .pwr, .mem, .out]
  | .jobDispatch => [.ing, .ent, .acc, .rings, .jobs, .tally, .led, .gait, .pwr, .mem, .out]
  | .jobRefusal _ => [.rings, .mem]
  | .score _ | .scoreTremolo _ => [.acc, .rings, .jobs, .grp, .tally, .led, .gait, .mem, .out]
  | .entityUpdate _ _ | .entityEvict _ _ => [.ent, .rings, .jobs, .led, .gait, .flt, .pins, .mem, .out]
  | .entityInvalidate _ _ => [.ent, .rings, .jobs, .led, .gait, .flt, .pwr, .pins, .mem, .out]
  | .leafPatch _ => [.rings, .jobs, .arr, .led, .gait, .mem, .out]
  | .patchBoundary _ _ => [.img, .rings, .jobs, .arr, .grp, .led, .gait, .mem, .out]
  | .loadHarness _ | .loadFirstPass _ => [.img, .rings, .jobs, .led, .gait, .mem, .out]
  | .loadSecondPass _ _ => [.img, .rings, .jobs, .arr, .led, .gait, .mem, .out]
  | .mount _ => [.jobs, .mnt]
  | .mountGo _ => [.shadow, .mnt, .gait, .out]
  | .mountDiscard => [.shadow, .gait, .out]
  | .mountApply =>
      [.live, .shadow, .img, .ing, .snd, .acc, .rings, .jobs, .grp, .tally, .mnt, .led, .gait, .flt, .pwr, .pins, .mem, .out]
  | .groupPlaneSwitch _ _ => [.img, .acc, .rings, .jobs, .arr, .grp, .tally, .mnt, .led, .gait, .flt, .pins, .mem, .out]
  | .planeEndInvalidate _ => [.img, .arr, .grp, .flt]
  | .drainTile _ => [.jobs, .tally, .flt, .pins, .mem, .out]
  | .drainWritesAcked _ _ => [.rings, .jobs, .tally, .led, .gait, .mem, .out]
  | .fence _ => [.jobs]
  | .fenceComplete _ => [.rings, .jobs, .led, .gait, .mem, .out]
  | .release _ => [.ing, .acc, .rings, .jobs, .led, .gait, .pwr, .mem, .out]
  | .sfdRelease _ => [.ing, .acc, .pwr, .out]
  | .recordDispatch _ _ _ => [.acc, .rings, .jobs, .arr, .grp, .tally, .led, .gait, .flt, .pins, .mem, .out]
  | .bridgeSearch _ _ _ _ | .chordNode _ _ _ _ => [.sel, .acc, .arr, .grp, .tally, .flt]
  | .accumulationColumn _ _ _ | .tunerAdd _ _ | .curryItem _ _ => [.acc, .arr, .grp, .tally, .flt]
  | .tallyWrite _ _ => [.acc, .rings, .jobs, .arr, .grp, .tally, .led, .gait, .flt, .pins, .mem, .out]
  | .recordCommit _ => [.ing, .acc, .rings, .jobs, .tally, .led, .gait, .pwr, .mem, .out]
  | .doubleRunSwitch _ => [.grp]
  | .faultRecovery _ _ _ => [.sel, .img, .acc, .rings, .jobs, .arr, .grp, .tally, .led, .gait, .flt, .pins, .mem, .out]
  | .tileSpared _ => [.tally, .flt, .pins, .out]
  | .memoryReadReturn _ _ _ => [.img, .ent, .arr, .gait, .flt, .link, .pins, .mem, .out]
  | .linkLane _ _ _ => [.ing, .flt, .pwr, .link, .pins, .out]
  | .sfdRingSdb _ _ => [.rings, .jobs]
  | .sfdRingCdb _ _ => [.rings, .jobs, .out]
  | .sfdSndDb _ | .sndFrameStart => [.snd]
  | .sndFrameDone => [.ing, .snd, .pwr, .out]
  | .sfdLedger _ | .ledgerDebit _ => [.led, .gait, .out]
  | .avsPoll _ _ _ | .avsErrClear _ => [.gait, .out]
  | .gaitReached _ => [.gait]
  | .avsErr _ => [.gait, .flt, .pins, .out]
  | .sensorConversion _ _ _ => [.grp, .gait, .flt, .pins, .out]
  | .sfdFaultAck _ => [.flt, .pins]
  | .sfdDbgCapCtl _ | .sfdDbgChordSel _ => [.sel]
  | .sfdDbgTally => [.sel, .tally, .flt, .pins, .out]
  | .registerWrite _ _ _ =>
      [.shadow, .sel, .img, .ing, .snd, .acc, .rings, .jobs, .mnt, .led, .gait, .flt, .pwr, .pins, .out]
  | .sfdImgExpectWrite _ _ _ => [.shadow, .img, .mnt, .gait, .out]
  | .powerOn _ _ _ _ _ =>
      [.live, .shadow, .sel, .img, .ing, .ent, .snd, .acc, .rings, .jobs, .arr, .grp, .tally, .mnt, .led, .gait, .flt, .pwr, .bag, .link, .tele, .tap, .pins, .mem, .out]
  | .engineReset =>
      [.live, .shadow, .sel, .img, .ing, .ent, .snd, .acc, .rings, .jobs, .arr, .grp, .tally, .mnt, .led, .gait, .flt, .pwr, .link, .pins, .mem, .out]
  | .warmRequest | .sag _ _ => [.pwr, .bag, .pins]
  | .packageWarmReset _ => [.pwr]
  | .saveSealed _ => [.pwr, .bag, .link, .pins, .out]
  | .saveIncomplete => [.pwr, .link, .pins]
  | .vholdLow _ => [.pwr, .out]
  | .replay _ => [.acc, .rings, .jobs, .arr, .grp, .tally, .led, .gait, .flt, .pwr, .pins, .mem, .out]
  | .telemetrySelect _ _ | .telemetryRead _ | .enec | .disec | .rstdaa | .entdaa _ | .setdasa _ | .getpid | .getbcr
    | .getdcr | .getstatus | .getmrl => [.tele]
  | .bypass | .idcode | .samplePreload _ => [.tap, .pins]
  | .extest => [.tap, .pins]
  | .memoryWriteAcknowledged _ => [.rings, .out]

/-! ## Terms of the statements -/

/-- A byte of memory that n bytes from an address do not take in. -/
def Apart (a n c : Nat) : Prop := ∀ i, i < n → portAddr c ≠ portAddr (a + i)

/-- A completion entry stands in its slot, with the PHASE due (R325). -/
def EntryStands (c : RingCfg) (m : List Host.Cell) (j : Word32) (body : Nat) : Prop :=
  memRead m (c.slotAddr j) 16 = leBytes 16 (body + phaseDue j c.cSize)

/-- Every byte of memory outside the named completion slots of a ring reads as before. -/
def OnlySlots (c : RingCfg) (js : List Word32) (m m' : List Host.Cell) : Prop :=
  ∀ a, (∀ j ∈ js, Apart (c.slotAddr j) 16 a) → memByte m' a = memByte m a

/-- A byte of memory outside the completion slots of the jobs in flight whose rings are up. -/
def OffSlots (s : State) (a : Nat) : Prop :=
  ∀ j ∈ s.jobs.jobs, (s.live.ring j.ring).en = true → ∀ i, i < j.slots →
    Apart ((s.live.ring j.ring).slotAddr (j.slot + BitVec.ofNat 32 i)) 16 a

/-- A byte of memory outside the completion rings that are up. -/
def OffRings (c : Staged) (a : Nat) : Prop :=
  ∀ r, (c.ring r).en = true → ∀ j : Word32, Apart ((c.ring r).slotAddr j) 16 a

/-- A byte of memory outside the accept cursors of the streams (R331). -/
def OffAccepts (c : Staged) (streams : Sparse Stream) (a : Nat) : Prop := ∀ x ∈ streams, Apart (c.accAddr + 4 * x.1) 4 a

/-- A byte of memory outside where n bytes of a protected region from an address on stand, and outside the check bytes of their
lines (R399, R404). -/
def OffShelter (s : State) (base size lo n a : Nat) : Prop :=
  ∀ b, lo ≤ b → b < lo + n →
    Apart ((s.pageHome base size (b / 4096)).1 + b % 4096) 1 a ∧
    Apart ((s.pageHome base size (b / 4096)).2 + 8 * (b % 4096 / 128)) 8 a

/-- A byte of memory outside the entity region, its spare pages and their check bytes. -/
def OffEntities (s : State) (a : Nat) : Prop := OffShelter s s.live.entAddr s.live.entSize s.live.entAddr s.live.entSize a

/-- A byte of memory outside n bytes of the harness copy from an offset on, and of its mirror (R405). -/
def OffCopy (s : State) (off n a : Nat) : Prop :=
  OffShelter s s.live.hcopyAddr s.live.copySize (s.live.hcopyAddr + off) n a ∧
  (s.live.mirrorEn = true → OffShelter s s.live.mirrorAddr s.live.copySize (s.live.mirrorAddr + off) n a)

/-- A byte of memory outside the journal entries of the live and the former area (R292). -/
def OffJournals (s : State) (a : Nat) : Prop :=
  ∀ second x, (second, some x) ∈ [(s.img.second, s.img.live), (!s.img.second, s.img.former)] →
    OffCopy s (s.live.areaOff second + journalOff x.image.length) (48 * x.journal.length) a

/-- A byte of memory outside the page of an address, where the page stood in one state and where it stands in another. -/
def OffPage (s t : State) (q a : Nat) : Prop :=
  ∀ base size, s.regionBase q = some (base, size) →
    OffShelter s base size (4096 * (q / 4096)) 4096 a ∧ OffShelter t base size (4096 * (q / 4096)) 4096 a

/-- Commands that write no byte of memory but the completion slots of jobs in flight. -/
def slotsOnly : Instr → Bool
  | .score _ | .scoreTremolo _ | .fenceComplete _ | .release _ | .recordCommit _ | .drainWritesAcked _ _ | .leafPatch _
    | .recordDispatch _ _ _ | .tallyWrite _ _ | .faultRecovery _ _ _ | .groupPlaneSwitch _ _ | .replay _ => true
  | _ => false

/-- Commands that write no byte of memory but the entity region and the completion slots of jobs in flight. -/
def entitiesOnly : Instr → Bool
  | .entityJoin _ _ _ _ | .entityUpdate _ _ | .entityEvict _ _ | .entityInvalidate _ _ => true
  | _ => false

/-- A job has ended: its job entry stands in its slot, unless its ring still waits for the Mount that enables it (R344), and its
context, where it is still held, says so. -/
def JobEnds (s t : State) (j : Job) (status done detail : Nat) : Prop :=
  ((s.live.ring j.ring).en = true → EntryStands (s.live.ring j.ring) t.mem j.entrySlot (jobBody status j.op j.tag done detail)) ∧
  ∀ x ∈ t.jobs.jobs, x.id = j.id → x.written = true ∧ x.status = status ∧ x.done = done ∧ x.detail = detail

/-- The words and tiles of the Tally, those of a save, the rows of the entity table and the feature buffers stand in canonical form: one item an index,
none that an unlisted index reads as. Bridge rows stand in rising order. Index entries and row places lie in their tables (R200). -/
def StoresOk (s : State) : Prop :=
  sparseOk TallyWord.reset s.tally.words = true ∧ sparseOk Tile.reset s.tally.tiles = true ∧
  sparseOk EntityRow.missing s.ent.rows = true ∧ sparseOk FeaturePlace.empty s.arr.buffers = true ∧ (s.ent.index.map Prod.fst).Pairwise (· < ·) ∧ (∀ x ∈ s.ent.index, x.1 < 131072) ∧
  (∀ r ∈ s.ent.usedRows, r < s.live.entRows + 256) ∧ (s.arr.rows.map Prod.fst).Pairwise (· < ·) ∧
  ∀ sv, s.bag.save = some sv → sparseOk TallyWord.reset sv.words = true ∧ sparseOk Tile.reset sv.tiles = true

/-- An attempt has failed a check (R391): it is gone, its record is marked, and its group has stopped taking records. -/
def Failed (t : State) (a : Attempt) : Prop :=
  t.attempt a.id = none ∧ ∀ g ∈ t.grp.groups, g.gid = a.grp → g.paused = true ∧ g.hasMark a.job a.idx = true

/-- A true result within ±(2^47 − 1), as R135 stores it. -/
def clamp48 (v : Int) : Int := if 2 ^ 47 - 1 < v then 2 ^ 47 - 1 else if v < -(2 ^ 47 - 1) then -(2 ^ 47 - 1) else v

/-- The words of some addends read without an error. -/
def CleanWords (s : State) (xs : List Addend) : Prop :=
  ∀ x ∈ xs, (s.tallyWord x.word).flips = 0 ∧ (x.wide = true → (s.tallyWord (x.word + 1)).flips = 0)

/-- The 128-bit value of two words of the Tally (R141). -/
def wideWord (s : State) (w : Nat) : BitVec 128 := (s.tallyWord (w + 1)).value ++ (s.tallyWord w).value

/-- A true result within ±(2^127 − 1), as R141 stores it. -/
def clamp128 (v : Int) : Int := max (-(2 ^ 127 - 1)) (min v (2 ^ 127 - 1))

/-- Addends have gone into their words, each saturating (R135, R141). Where the mark of their write stood already, only words of owed
tiles take their part (R162, R165). Where only the higher word of two does, the lower one has its part. No other word has changed. -/
def Added (s t : State) (mark : Bool) (owe : List Nat) (xs : List Addend) : Prop :=
  let due (w : Nat) : Prop := mark = false ∨ w / 256 ∈ owe
  (∀ x ∈ xs, x.wide = false → due x.word →
    t.tallyWord x.word = ⟨BitVec.ofInt 64 (clamp48 (((s.tallyWord x.word).value.setWidth 48).toInt + x.value)), 0⟩) ∧
  (∀ x ∈ xs, x.wide = true → due x.word → due (x.word + 1) →
    wideWord t x.word = BitVec.ofInt 128 (clamp128 ((wideWord s x.word).toInt + x.value))) ∧
  (∀ x ∈ xs, x.wide = true → due (x.word + 1) → ¬due x.word →
    let before : BitVec 128 := (s.tallyWord (x.word + 1)).value ++ ((s.tallyWord x.word).value - BitVec.ofInt 64 x.value)
    (wideWord t x.word) >>> 64 = BitVec.ofInt 128 (clamp128 (before.toInt + x.value)) >>> 64) ∧
  (∀ x ∈ xs, x.wide = true → due x.word → ¬due (x.word + 1) →
    (t.tallyWord x.word).value = (BitVec.ofInt 128 (clamp128 ((wideWord s x.word).toInt + x.value))).setWidth 64) ∧
  ∀ w, ¬due w ∨ (∀ x ∈ xs, w ≠ x.word ∧ (x.wide = true → w ≠ x.word + 1)) → t.tallyWord w = s.tallyWord w

/-- The bytes of the entity region and of its check bytes (R398). -/
def entityBytes (c : Staged) : Nat := c.entSize + c.entSize / 16

/-- No frame waits in a receive buffer, and none for a decode lane. -/
def Quiet (s : State) : Prop := s.ing.rx = [] ∧ s.laneWaiters = []

/-- The fault log holds at most 256 entries, and their log indices run up to LOG_HEAD (R430). -/
def LogOk (f : Faults) : Prop :=
  f.log.length ≤ 256 ∧ ∀ i e, f.log[i]? = some e → e.index = f.logHead - BitVec.ofNat 32 (f.log.length - i)

/-- Gaits are gaits: NOW and the ledger gait at most Gallop, and so is the gait requested while a change is under way. -/
def GaitOk (g : GaitState) : Prop :=
  g.now ≤ 3 ∧ g.requested ≤ 4 ∧ g.ledgerGait ≤ 3 ∧ g.thermal ≤ 4 ∧ (g.moving = true → g.requested ≤ 3)

/-- Every list that stands for a fixed number of like things has its length: rings, channels, lanes, sensors, modules, positions
and physical arrays. -/
def ShapeOk (s : State) : Prop :=
  (s.live.rings.length = 64 ∧ s.live.snd.length = 64 ∧ s.live.expect.length = 4) ∧
  (s.shadow.rings.length = 64 ∧ s.shadow.snd.length = 64 ∧ s.shadow.expect.length = 4) ∧
  s.rings.length = 64 ∧ s.snd.channels.length = 64 ∧ s.ing.lanes.length = 8 ∧ s.gait.sensors.length = 8 ∧ s.link.length = 2 ∧
  s.arr.map.length = 32 ∧ s.flt.curry.length = 34 ∧ s.flt.cycles.length = 34 ∧
  (∀ sv, s.bag.save = some sv → sv.rings.length = 64)

/-- The staged word of a register (R489), at its offset with 65536 times the channel for a channel register; DURABLE of a tile is
bit 2 of its status register. -/
def stagedWord (c : Staged) (target : Nat) : Word :=
  let o := target % 65536
  let ch := c.chan (target / 65536)
  if o = 0x440 then c.budget
  else if o = 0x480 then c.entBase
  else if o = 0x488 then c.entCfg
  else if o = 0x4C0 then c.accBase
  else if o = 0x508 then ch.cfg
  else if o = 0x510 then ch.band
  else if o = 0x518 then ch.key
  else if o = 0x520 then ch.ring
  else if o = 0x600 then c.notify0
  else if o = 0x608 then c.notify1
  else if o = 0x888 then c.hcopyBase
  else if o = 0x890 then c.hcopySize
  else if o = 0x3018 then c.ledgerCfg
  else if o = 0x3020 then c.gait
  else if o = 0x3028 then c.gaitWm
  else if o = 0x3408 then c.faultCfg
  else if o = 0x3430 then c.tandem
  else if o = 0x3480 then c.mirror
  else if o = 0x3488 then c.spare
  else if o = 0x3800 then c.holdCfg
  else if 0x1000 ≤ o ∧ o < 0x2000 then
    (let r := c.ring ((o - 0x1000) / 64)
     if o % 64 = 0 then r.sbase else if o % 64 = 8 then r.cbase else if o % 64 = 16 then r.ctl else 0)
  else if 0x4000 ≤ o ∧ o < 0x6000 then (if (o - 0x4000) / 8 ∈ c.durable then 4 else 0)
  else 0

/-- SFD_FAULT_N as R432 has it, released where R438 says so, unless EXTEST drives it (R482). -/
def PinOk (s : State) : Prop := s.tap.selected = tapExtest ∨ s.pins.faultN = (s.pwr.released || !s.faultAsserted)

end Sys2Proof.Safety
end

