-- ==== Sys2Proof/Certificates/Slice0/Obligations.lean ====
section
/-! DEFINITION. The statements for the provers. Each docstring names the rules of the spec, or the log entry, that it formalises. -/

open Sys2Proof Sys2Proof.Machine Sys2Proof.Safety

/-- O1. A step with a command at the front of the queue is the command's meaning on the state with the queue's rest. On
an empty queue the block idles, which is the model's choice (log entry 8). -/
def Obligations.StepRunsFrontCommand : Prop :=
  (∀ (c : Instr) (rest : List Instr) (s : State), step { s with pending := c :: rest } = exec c { s with pending := rest }) ∧
    ∀ s : State, s.pending = [] → step s = .next s

/-- O2. Every command answers a next state in every state, with the queue as it was: the spec gives each row of its
table an effect, and a command that is not enabled leaves the state as it is (log entry 1). -/
def Obligations.EveryCommandAnswers : Prop :=
  ∀ (c : Instr) (s : State), ∃ t, exec c s = .next t ∧ t.pending = s.pending

/-- O3. A command of the records family (frames, decode lanes, entity steps, acceptance, Soundboard, memory returns,
links) or of the jobs family (doorbells, dispatch, offers, drains, fences, releases, commits) changes no part of the
state but those that partsOf lists for it. Offers, commits, fences, releases and acknowledged drains store to
nothing but completion slots of jobs in flight; the commands of entities to those, and to the entity region with its
check bytes, where its pages stand (R399, R404). A line that memory returns changes no byte but those of its page
and of its page in the other copy, with their check bytes. -/
def Obligations.FramesOfRecordsAndJobs : Prop :=
  (∀ (c : Instr) (s t : State), family c = .records ∨ family c = .jobs → exec c s = .next t → OnlyChanges (partsOf c) s t) ∧
  (∀ (c : Instr) (s t : State) (a : Nat), family c = .records ∨ family c = .jobs → slotsOnly c = true → Memory.wf s.mem = true →
    exec c s = .next t → OffSlots s a → memByte t.mem a = memByte s.mem a) ∧
  (∀ (c : Instr) (s t : State) (a : Nat), entitiesOnly c = true → Memory.wf s.mem = true → StoresOk s →
    exec c s = .next t → OffSlots s a → OffEntities s a → memByte t.mem a = memByte s.mem a) ∧
  (∀ (addr a : Nat) (line check : List Byte) (s t : State), Memory.wf s.mem = true → addr % 128 = 0 → line.length = 128 →
    exec (.memoryReadReturn addr line check) s = .next t →
    let p := s.carried addr
    Apart addr 128 a → Apart (s.redirect p) 128 a → OffPage s t p a → (∀ q, s.otherCopy p = some q → OffPage s t q a) →
    memByte t.mem a = memByte s.mem a)

/-- O4. A command of the images family (patches, loads, Mounts, plane switches) or of the scoring family (dispatch,
Bridge, columns, Chord, Tuner, Tally, faults) changes no part of the state but those that partsOf lists for it.
Those among them that write memory store to completion slots of jobs in flight; a Mount at its apply point also to
the completion rings that it leaves up, to the accept cursors and to the journal of the harness copy (R292, R308,
R331, R344), and a patch at its boundary to that journal (R119). -/
def Obligations.FramesOfImagesAndScoring : Prop :=
  (∀ (c : Instr) (s t : State), family c = .images ∨ family c = .scoring → exec c s = .next t → OnlyChanges (partsOf c) s t) ∧
  (∀ (c : Instr) (s t : State) (a : Nat), family c = .images ∨ family c = .scoring → slotsOnly c = true → Memory.wf s.mem = true →
    exec c s = .next t → OffSlots s a → memByte t.mem a = memByte s.mem a) ∧
  (∀ (s t : State) (a : Nat), Memory.wf s.mem = true → exec .mountApply s = .next t →
    OffRings t.live a → OffAccepts t.live t.ing.streams a → OffJournals t a → memByte t.mem a = memByte s.mem a) ∧
  (∀ (id base a : Nat) (s t : State), Memory.wf s.mem = true → exec (.patchBoundary id base) s = .next t →
    OffSlots s a → OffJournals t a → memByte t.mem a = memByte s.mem a)

/-- O5. A command of the registers family (ledger, gait, sensors, debug windows, register writes), of the supplies
family (starts, resets, saves, replay) or of the board family (telemetry, bus codes, TAP) changes no part of the
state but those that partsOf lists for it: telemetry changes nothing but its own target. A replay stores to
completion slots of jobs in flight, and an engine reset to those, to the accept cursors and to the journal of the
harness copy. -/
def Obligations.FramesOfRegistersSuppliesAndBoard : Prop :=
  (∀ (c : Instr) (s t : State), family c = .registers ∨ family c = .supplies ∨ family c = .board → exec c s = .next t →
    OnlyChanges (partsOf c) s t) ∧
  (∀ (c : Instr) (s t : State) (a : Nat), family c = .supplies → slotsOnly c = true → Memory.wf s.mem = true →
    exec c s = .next t → OffSlots s a → memByte t.mem a = memByte s.mem a) ∧
  (∀ (s t : State) (a : Nat), Memory.wf s.mem = true → exec .engineReset s = .next t →
    OffSlots s a → OffAccepts s.live s.ing.streams a → OffJournals t a → memByte t.mem a = memByte s.mem a)

/-- O6. After reset memory is in its canonical form, the fault log is in order, every gait is a gait, every list has its
length and SFD_FAULT_N is released. The queue is empty, no rail has been applied, and the gait is Walk. -/
def Obligations.ResetMeetsInvariants : Prop :=
  Memory.wf State.reset.mem = true ∧ LogOk State.reset.flt ∧ GaitOk State.reset.gait ∧ PinOk State.reset ∧
    ShapeOk State.reset ∧ StoresOk State.reset ∧ State.reset.pins.faultN = true ∧ State.reset.pending = [] ∧ State.reset.pwr.phase = .inReset ∧ State.reset.gait.now = 0

/-- O7. Whatever command is at the front of the queue, a step from a state whose memory is in canonical form leaves it
so: addresses strictly rising, no byte listed that an unlisted address reads as (log entry 4). -/
def Obligations.StepKeepsMemoryForm : Prop :=
  ∀ s t : State, Memory.wf s.mem = true → step s = .next t → Memory.wf t.mem = true

/-- O8. The fault log holds at most 256 entries, the newest at LOG_HEAD − 1 and each older one an index lower, whatever
command is taken. -/
def Obligations.StepKeepsFaultLog : Prop :=
  ∀ s t : State, LogOk s.flt → step s = .next t → LogOk t.flt

/-- O9. The gait in effect, the ledger gait and, while a change is under way, the gait requested stay gaits, Walk to
Gallop; the thermal thresholds in force stay 0 to 4. -/
def Obligations.StepKeepsGaits : Prop :=
  ∀ s t : State, GaitOk s.gait → step s = .next t → GaitOk t.gait

/-- O10. After every step SFD_FAULT_N is asserted exactly when R432 asserts it, an entry of an enabled kind that is not
acknowledged or an overwrite that is not, and R438 does not release it; only while EXTEST is selected does the pin
stand as its boundary cell has it (R482), and the instruction or the start that ends EXTEST gives the pin back. -/
def Obligations.StepKeepsFaultPin : Prop :=
  (∀ s t : State, PinOk s → step s = .next t → PinOk t) ∧
    ∀ (s t : State) (c : Instr), PinOk s → s.tap.selected = tapExtest → exec c s = .next t → t.tap.selected ≠ tapExtest →
      t.pins.faultN = (t.pwr.released || !t.faultAsserted)

/-- O11. Once a save has begun, no command takes the engine out of it but its seal, with VHOLD at 2.70 V or more, and
the loss of VHOLD below that: sags, restored rails and requests leave it saving. The seal, with the save in the
Saddlebag, and the loss, with none, end in reset, where only a start goes on. -/
def Obligations.SaveRunsToItsEnd : Prop :=
  (∀ (c : Instr) (s t : State), s.pwr.phase = .saving → exec c s = .next t →
    t.pwr.phase = .saving ∨ (∃ v, c = .saveSealed v ∧ 2700 ≤ v) ∨ c = .saveIncomplete) ∧
  (∀ (v : Nat) (s : State), s.pwr.phase = .saving → 2700 ≤ v →
    ∃ t, exec (.saveSealed v) s = .next t ∧ t.pwr.phase = .inReset ∧ t.bag.save.isSome = true ∧ t.bag.sealed = true) ∧
  (∀ (v : Nat) (s : State), s.pwr.phase = .saving → v < 2700 → exec (.saveSealed v) s = .next s) ∧
  (∀ s : State, s.pwr.phase = .saving →
    ∃ t, exec .saveIncomplete s = .next t ∧ t.pwr.phase = .inReset ∧ t.bag = s.bag) ∧
  (∀ (c : Instr) (s t : State), s.pwr.phase = .inReset → exec c s = .next t → t.pwr.phase ≠ .inReset →
    ∃ vdd vddm vpp v ok, c = .powerOn vdd vddm vpp v ok)

/-- O12. From reset no command leads anywhere else but POWER_ON with every rail at its start threshold, VDD_SFD 0.50 V,
VDDM_SFD 0.77 V, VPP_SFD 1.71 V and VHOLD 3.20 V (R436, R437): it starts the engine from every state of reset. With
a rail below its threshold the engine stays in reset, and only the levels are known. A running engine saves at a
sag: SAG_N, VDD_SFD 50 mV below the voltage of the gait, VDDM_SFD below 0.74 V or VPP_SFD below 1.65 V, and at
nothing above those. While the engine is in reset or writes a save, no command of records, jobs, images, scoring or
registers, no replay and no engine reset has any effect (R437, R447). -/
def Obligations.OnlyTheStartLeavesReset : Prop :=
  (∀ (c : Instr) (s t : State), s.pwr.phase = .inReset → exec c s = .next t → t.pwr.phase ≠ .inReset →
    t.pwr.phase = .running ∧
      ∃ vdd vddm vpp v ok, c = .powerOn vdd vddm vpp v ok ∧ 500 ≤ vdd ∧ 770 ≤ vddm ∧ 1710 ≤ vpp ∧ 3200 ≤ v) ∧
  (∀ (vdd vddm vpp v : Nat) (ok : Bool) (s : State), s.pwr.phase = .inReset →
    (500 ≤ vdd → 770 ≤ vddm → 1710 ≤ vpp → 3200 ≤ v → ∃ t, exec (.powerOn vdd vddm vpp v ok) s = .next t ∧
      t.pwr.phase = .running ∧ t.pwr.vddMv = vdd ∧ t.pwr.vddmMv = vddm ∧ t.pwr.vppMv = vpp ∧ t.pwr.vholdMv = v) ∧
    (vdd < 500 ∨ vddm < 770 ∨ vpp < 1710 ∨ v < 3200 → exec (.powerOn vdd vddm vpp v ok) s =
      .next { s with pwr := { s.pwr with vddMv := vdd, vddmMv := vddm, vppMv := vpp, vholdMv := v } })) ∧
  (∀ (vdd vddm vpp v : Nat) (ok : Bool) (s : State), s.pwr.phase ≠ .inReset → exec (.powerOn vdd vddm vpp v ok) s = .next s) ∧
  (∀ (source : SagSource) (mv : Nat) (s : State), s.pwr.phase = .running → ∃ t, exec (.sag source mv) s = .next t ∧
    (t.pwr.phase = .saving ↔ source = .sagN ∨ (source = .vddSfd ∧ mv + 50 < gaitMv s.gait.shown) ∨
      (source = .vddmSfd ∧ mv < 740) ∨ (source = .vppSfd ∧ mv < 1650)) ∧
    (t.pwr.phase ≠ .saving → t.pwr.phase = .running ∧ OnlyChanges [.pwr] s t)) ∧
  (∀ (c : Instr) (s : State), s.up = false →
    (family c = .records ∨ family c = .jobs ∨ family c = .images ∨ family c = .scoring ∨ family c = .registers ∨
      c = .engineReset ∨ (∃ again, c = .replay again) ∨ c = .warmRequest) → exec c s = .next s)

/-- O13. A telemetry write of one byte selects an index. A read returns the 8 bytes, little-endian, of the register of
the index and advances the index by one. Every other index reads zero, as every index does in reset, and a write of
more than one byte is ignored. The target answers while VPP_SFD and VHOLD are good, in reset too, at its dynamic
address and, without one, at 0x5C (R480); an access that it does not answer changes nothing but the reply, which is
empty. That a rail is good at or above its start threshold in reset and at or above its sag threshold later is the
model's reading (log 63). -/
def Obligations.TelemetryReads : Prop :=
  (∀ (addr : BitVec 7) (b : Byte) (s : State), s.targetAt addr = true →
    exec (.telemetrySelect addr [b]) s = .next { s with tele := { s.tele with index := b.toNat } }) ∧
  (∀ (addr : BitVec 7) (bs : List Byte) (s : State), 1 < bs.length → exec (.telemetrySelect addr bs) s = .next s) ∧
  (∀ (addr : BitVec 7) (bs : List Byte) (s : State), s.targetAt addr = false →
    exec (.telemetrySelect addr bs) s = .next s ∧
    exec (.telemetryRead addr) s = .next { s with tele := { s.tele with reply := [] } }) ∧
  (∀ (addr : BitVec 7) (s : State), s.targetAt addr = true ↔
    (if s.pwr.phase = .inReset then 1710 else 1650) ≤ s.pwr.vppMv ∧ s.vholdOk = true ∧
      addr = (match s.tele.dynamic with | some a => a | none => 0x5C)) ∧
  (∀ (addr : BitVec 7) (s : State), s.targetAt addr = true → ∃ t, exec (.telemetryRead addr) s = .next t ∧ OnlyChanges [.tele] s t ∧
    t.tele = { s.tele with reply := t.tele.reply, index := (s.tele.index + 1) % 256 } ∧
    (∀ r, s.pwr.phase ≠ .inReset →
      (s.tele.index, r) ∈ [(0x00, 0x3030), (0x01, 0x3040), (0x02, 0x3048), (0x03, 0x3050), (0x04, 0x3058), (0x05, 0x3060),
        (0x06, 0x3068), (0x07, 0x3070), (0x08, 0x3078), (0x09, 0x3008), (0x0A, 0x3080), (0x0B, 0x3088), (0x0C, 0x3090),
        (0x0D, 0x3400), (0x0E, 0x3810), (0x0F, 0x3808), (0x10, 0x018)] →
      t.tele.reply = leBytes 8 (s.readReg r).toNat) ∧
    (0x10 < s.tele.index ∨ s.pwr.phase = .inReset → t.tele.reply = leBytes 8 0))

/-- O14. While the target answers (R481), ENEC and DISEC enable and disable in-band interrupts, RSTDAA gives up the
dynamic address, and ENTDAA and SETDASA give the target one when it has none (R480). The five GET codes answer; what
they answer is a free value, the model's own (log entry 6). A target that does not answer takes no code. -/
def Obligations.BusCommandCodes : Prop :=
  (∀ s : State, s.targetUp = true → exec .enec s = .next { s with tele := { s.tele with events := true } }) ∧
  (∀ s : State, s.targetUp = true → exec .disec s = .next { s with tele := { s.tele with events := false } }) ∧
  (∀ s : State, s.targetUp = true → exec .rstdaa s = .next { s with tele := { s.tele with dynamic := none } }) ∧
  (∀ (a : BitVec 7) (s : State) (c : Instr), s.targetUp = true → c ∈ [.entdaa a, .setdasa a] →
    ∃ t, exec c s = .next t ∧ OnlyChanges [.tele] s t ∧
      t.tele = { s.tele with dynamic := some (s.tele.dynamic.getD a) }) ∧
  (∀ (s : State) (c : Instr) (n : Nat), s.targetUp = true →
    (c, n) ∈ [(.getpid, 0), (.getbcr, 1), (.getdcr, 2), (.getstatus, 3), (.getmrl, 4)] →
    exec c s = .next { s with tele := { s.tele with
      reply := Config.i3cAnswer n s.tele.answers, answers := s.tele.answers + 1 } }) ∧
  (∀ (s : State) (c : Instr) (a : BitVec 7), s.targetUp = false →
    c ∈ [.enec, .disec, .rstdaa, .entdaa a, .setdasa a, .getpid, .getbcr, .getdcr, .getstatus, .getmrl] → exec c s = .next s)

/-- O15. IDCODE shifts out bits [31:0] of SFD_ID. BYPASS selects the one-bit register. SAMPLE/PRELOAD captures the pins
and loads the cells. EXTEST drives the output pins from the cells in reset, and acts as BYPASS while the engine is
not in reset. An instruction that follows EXTEST gives the pins back: the AVSBus idle, the I3C bus high impedance,
SFD_FAULT_N as the fault log has it (R438, R483). Which cell stands for which pin is the model's choice. -/
def Obligations.TapInstructions : Prop :=
  (∀ (s : State) (v : BitVec 7) (c : Instr) (x : Tap),
    (c, x) ∈ [(.idcode, { s.tap with selected := 1, out := (s.readReg 0).setWidth 32 }),
      (.bypass, { s.tap with selected := 0, out := 0 }),
      (.samplePreload v, { s.tap with selected := 2, sampled := s.pins.levels, cells := v })] →
    (s.tap.selected ≠ 3 → exec c s = .next { s with tap := x }) ∧
    (s.tap.selected = 3 → exec c s = .next { s with
      tap := x
      pins := { s.pins with
        faultN := s.pwr.released || !s.faultAsserted, avsClk := false, avsMdata := false, i3cScl := true, i3cSda := true } })) ∧
  (∀ s : State, s.pwr.phase ≠ .inReset → exec .extest s = exec .bypass s) ∧
  (∀ s : State, s.pwr.phase = .inReset → ∃ t, exec .extest s = .next t ∧ OnlyChanges [.tap, .pins] s t ∧
    t.tap = { s.tap with selected := 3, sampled := s.pins.levels } ∧
    t.pins = { s.pins with
      faultN := s.tap.cells.getLsbD 1, avsClk := s.tap.cells.getLsbD 2, avsMdata := s.tap.cells.getLsbD 3,
      i3cScl := s.tap.cells.getLsbD 5, i3cSda := s.tap.cells.getLsbD 6 })

/-- O16. There are always 64 rings and 64 Soundboard channels, staged and in effect, 8 decode lanes, 8 sensors, 2 link
modules, 32 logical positions and 34 physical arrays, whatever command is taken. -/
def Obligations.StepKeepsShape : Prop :=
  ∀ s t : State, ShapeOk s → step s = .next t → ShapeOk t

/-- O17. A write of GRANT to SFD_LEDGER adds 1,000·GRANT nJ to BALANCE. If the sum would exceed 1,000·CAP, BALANCE
becomes 1,000·CAP, or stays when it already exceeds it, and SPILLS counts the write, saturating at 65,535 as its
field does. A debit takes 1 nJ from BALANCE, below zero too, and counts it for its rail (R366, R368). -/
def Obligations.LedgerGrantAndDebit : Prop :=
  (∀ (v : Word) (s : State), s.up = true →
    let top : Int := 1000 * (s.live.cap : Int)
    let sum : Int := s.led.balance + 1000 * ((v.toNat % 2 ^ 32 : Nat) : Int)
    ∃ t, exec (.sfdLedger v) s = .next t ∧ OnlyChanges [.led, .gait, .out] s t ∧
      t.led = { s.led with balance := t.led.balance, spills := t.led.spills, derivedAt := t.led.derivedAt } ∧
      (sum ≤ top → t.led.balance = sum ∧ t.led.spills = s.led.spills) ∧
      (top < sum → t.led.balance = (if top < s.led.balance then s.led.balance else top) ∧
        t.led.spills = min (s.led.spills + 1) 65535)) ∧
  (∀ (r : Rail) (s : State), s.up = true → ∃ t, exec (.ledgerDebit r) s = .next t ∧ OnlyChanges [.led, .gait, .out] s t ∧
    t.led = { s.led with
      balance := s.led.balance - 1
      core := if r = .core then (s.led.core + 1) % 2 ^ 64 else s.led.core
      sram := if r = .sram then (s.led.sram + 1) % 2 ^ 64 else s.led.sram
      mram := if r = .mram then (s.led.mram + 1) % 2 ^ 64 else s.led.mram
      derivedAt := t.led.derivedAt })

/-- O18. Under the ledger policy a grant, and a debit that has moved the credit by 1 µJ or more since the last
derivation, derive the ledger target from the credit A = BALANCE − RESERVED (R379). Below the watermark of the
current target G it becomes the highest gait below with A at its watermark or above, Walk at least. Else it becomes
the highest gait above, within MAX_GAIT, with A at its watermark plus HYST or above, and stays where there is none. -/
def Obligations.LedgerTarget : Prop :=
  ∀ (c : Instr) (s t : State), s.up = true → s.live.policy = 1 →
    ((∃ v, c = .sfdLedger v) ∨ (∃ r, c = .ledgerDebit r ∧ 1000 ≤ (s.credit - 1 - s.led.derivedAt).natAbs)) →
    exec c s = .next t →
    let a := t.credit
    let wm (g : Nat) : Int := 1000 * (s.live.watermark g : Int)
    let g := s.gait.ledgerGait
    let g' := t.gait.ledgerGait
    t.led.derivedAt = a ∧
    (g ≠ 0 ∧ a < wm g → g' < g ∧ (g' = 0 ∨ wm g' ≤ a) ∧ ∀ x, g' < x → x < g → a < wm x) ∧
    (¬(g ≠ 0 ∧ a < wm g) →
      (g' = g ∨ (g < g' ∧ g' ≤ s.live.maxGait ∧ wm g' + 1000 * (s.live.hyst : Int) ≤ a)) ∧
      ∀ x, g' < x → g < x → x ≤ s.live.maxGait → a < wm x + 1000 * (s.live.hyst : Int))

/-- O19. During a change the write of the voltage comes first: AVS_POLL says whether it succeeded, and one that failed
is counted and, before the third attempt, sent again. Then AVS_POLL reads the regulator; a read that succeeds brings
its VDone, one that fails is counted and, before the third, repeated (R364, R479). With VDone and the monitor within
15 mV of the voltage requested the gait requested is in effect (R363). After the third failure, or the bound of
65,536 tok, AVS_ERR is set, Walk is the gait in effect, the event is logged, and nothing is requested until AVS_ERR
is cleared, when the target is requested again. That the failure of a log entry carries the number of attempts, and
that a repeated poll counts in RETRIES, are the model's choices. -/
def Obligations.GaitChanges : Prop :=
  (∀ (ok vdone : Bool) (s : State), s.up = true → s.gait.moving = true → s.gait.attempts < 3 → s.gait.written = false →
    (exec (.avsPoll true ok vdone) s =
      exec (.avsPoll true ok vdone) { s with gait := { s.gait with written := true, attempts := 0 } }) ∧
    ∃ t, exec (.avsPoll false ok vdone) s = .next t ∧ OnlyChanges [.gait, .out] s t ∧
      t.out = s.out ++ (if s.gait.attempts < 2 then [.avsWrite (550 + 100 * s.gait.requested)] else []) ∧
      t.gait = { s.gait with
        attempts := s.gait.attempts + 1
        retries := if s.gait.attempts < 2 then min (s.gait.retries + 1) 65535 else s.gait.retries }) ∧
  (∀ (wrote vdone : Bool) (s : State), s.up = true → s.gait.moving = true → s.gait.attempts < 3 → s.gait.written = true →
    (exec (.avsPoll wrote true vdone) s =
      .next { s with gait := { s.gait with attempts := 0, vdone := vdone }, out := s.out ++ [.avsStatus] }) ∧
    ∃ t, exec (.avsPoll wrote false vdone) s = .next t ∧ OnlyChanges [.gait, .out] s t ∧ t.out = s.out ++ [.avsStatus] ∧
      t.gait = { s.gait with
        attempts := s.gait.attempts + 1
        retries := if s.gait.attempts < 2 then min (s.gait.retries + 1) 65535 else s.gait.retries }) ∧
  (∀ (mv : Nat) (s : State), s.up = true → s.gait.moving = true → s.gait.vdone = true →
    550 + 100 * s.gait.requested ≤ mv + 15 → mv ≤ 550 + 100 * s.gait.requested + 15 →
    exec (.gaitReached mv) s = .next { s with gait := { s.gait with
      now := s.gait.requested, moving := false, vdone := false, changes := min (s.gait.changes + 1) 65535 } }) ∧
  (∀ (mv : Nat) (s : State), s.gait.moving = false ∨ s.gait.vdone = false ∨ mv + 15 < 550 + 100 * s.gait.requested ∨
    550 + 100 * s.gait.requested + 15 < mv → exec (.gaitReached mv) s = .next s) ∧
  (∀ (timeout : Bool) (s : State), s.up = true → s.gait.moving = true → timeout = true ∨ s.gait.attempts = 3 →
    ∃ t, exec (.avsErr timeout) s = .next t ∧ OnlyChanges [.gait, .flt, .pins, .out] s t ∧
      t.gait = { s.gait with
        avsErr := true, now := 0, requested := 4, moving := false, written := false, vdone := false, attempts := 0 } ∧
      t.flt.logHead = s.flt.logHead + 1 ∧ t.flt.lasting = min (s.flt.lasting + 1) 65535 ∧
      ∃ e, t.flt.log.getLast? = some e ∧ e.index = s.flt.logHead ∧ e.event = 0x23 ∧ e.detail = s.gait.attempts) ∧
  (∀ s : State, s.gait.avsErr = true → s.retarget = s) ∧
  (∀ (v : Word) (s : State), s.up = true → s.gait.avsErr = true → v.getLsbD 9 = true →
    ∃ t, exec (.avsErrClear v) s = .next t ∧ OnlyChanges [.gait, .out] s t ∧ t.gait.avsErr = false ∧
      t.gait.requested = s.effectiveTarget ∧
      (s.gait.requested ≠ s.effectiveTarget → t.gait.moving = true ∧ t.out = s.out ++ [.avsWrite (550 + 100 * s.effectiveTarget)])) ∧
  (∀ (v : Word) (s : State), s.gait.avsErr = false ∨ v.getLsbD 9 = false → exec (.avsErrClear v) s = .next s)

/-- O20. A conversion whose self-check passes gives its sensor's code and peak; one that fails marks the sensor bad,
which leaves it out of T_max (R382). T_max is the hottest valid reading. The cap is Canter from 95.0 °C, Trot from
100.0 °C, Walk from 105.0 °C, and dispatch is suspended from 110.0 °C; a threshold that holds is lifted when T_max
falls 3.0 °C below it, six codes. With fewer than four valid sensors the cap is Walk. The code of T °C is 2·(T +
40). A failed conversion that keeps the last TEMP, and no valid sensor at all leaving the thresholds as they are,
are the model's readings. -/
def Obligations.ThermalCaps : Prop :=
  (∀ (n : Nat) (code : BitVec 10) (ok : Bool) (s : State), s.up = true → n < 8 → s.gait.sensors.length = 8 →
    ∃ t, exec (.sensorConversion n code ok) s = .next t ∧ OnlyChanges [.grp, .gait, .flt, .pins, .out] s t ∧
      (s.suspended = true ∨ t.suspended = false → t.grp = s.grp) ∧
      (∃ x, s.gait.sensors[n]? = some x ∧ t.gait.sensors = s.gait.sensors.set n
        (if ok then ⟨code.toNat, max x.peak code.toNat, false, true⟩ else { x with bad := true, converted := true })) ∧
      (∀ m, 1 ≤ m → m ≤ 4 → (∃ x ∈ t.gait.sensors, x.converted = true ∧ x.bad = false) →
        (m ≤ t.gait.thermal ↔ 2 * (90 + 5 * m + 40) ≤ t.tMax ∨
          (m ≤ s.gait.thermal ∧ 2 * (90 + 5 * m + 40) < t.tMax + 6)))) ∧
  (∀ s : State, (∀ x ∈ s.gait.sensors, x.converted = true → x.bad = false → x.temp ≤ s.tMax) ∧
    (s.tMax = 0 ∨ ∃ x ∈ s.gait.sensors, x.converted = true ∧ x.bad = false ∧ x.temp = s.tMax)) ∧
  (∀ s : State, (s.gait.sensors.filter (fun x => x.converted && !x.bad)).length < 4 → s.thermalCap = 0) ∧
  (∀ s : State, 4 ≤ (s.gait.sensors.filter (fun x => x.converted && !x.bad)).length →
    s.thermalCap = 3 - min s.gait.thermal 3) ∧
  (∀ s : State, s.suspended = true ↔ 4 ≤ s.gait.thermal) ∧
  (∀ s : State, s.effectiveTarget ≤ s.thermalCap)

/-- O21. A write to a register with staged fields changes that register's staged fields in the shadow, to the bits
written, and no other staged word; the values in effect stay. While a Mount freezes the staged fields the write is
held instead (R352). No command changes the values in effect but a Mount at its apply point, which makes them the
shadows, with ABANDON cleared where it has acted (R460), a start, and an engine reset. -/
def Obligations.StagedWrites : Prop :=
  (∀ (agent o : Nat) (v : Word) (s : State), s.up = true → o % 8 = 0 → isStaged o = true → ShapeOk s →
    let ch := if 0x508 ≤ o ∧ o ≤ 0x520 then s.sel.snd.toNat % 64 else 0
    let w := o + 65536 * ch
    (s.mnt.freezing = false → ∃ t, exec (.registerWrite agent o v) s = .next t ∧ OnlyChanges [.shadow, .gait, .out] s t ∧
      stagedWord t.shadow w = v &&& bitsOf (stagedFields o) ∧ t.shadow.expect = s.shadow.expect ∧
      ∀ x, x ≠ w → (x < 65536 ∨ (0x508 ≤ x % 65536 ∧ x % 65536 ≤ 0x520)) → x % 8 = 0 → stagedWord t.shadow x = stagedWord s.shadow x) ∧
    (s.mnt.freezing = true → exec (.registerWrite agent o v) s =
      .next { s with mnt := { s.mnt with frozen := s.mnt.frozen ++ [(w, v)] } })) ∧
  (∀ (c : Instr) (s t : State), exec c s = .next t →
    t.live = s.live ∨ c = .engineReset ∨ (∃ vdd vddm vpp v ok, c = .powerOn vdd vddm vpp v ok) ∨ (c = .mountApply ∧ (t.live = s.shadow ∨ t.live = { s.shadow with holdCfg := s.shadow.holdCfg &&& 0xFFFF })))

/-- O22. A write to a select register takes effect at once, in its writable bits. A write with ARM 1 to SFD_DBG_CAP_CTL
arms the capture and clears DONE and every latched field; with ARM 0 it disarms the capture and leaves them; a start
and an engine reset disarm and clear it. A write to SFD_DBG_CHORD_SEL arms the Chord latch and clears what it held
(R511). A REGISTER_WRITE of a register with a row of its own is that command, and a write anywhere else is ignored
(R489, R490). That one command stands for the other is the model's choice. -/
def Obligations.ImmediateWrites : Prop :=
  (∀ (a : Nat) (v : Word) (s : State), s.up = true →
    exec (.registerWrite a 0x500 v) s = .next { s with sel := { s.sel with snd := v &&& 0x3F } } ∧
    exec (.registerWrite a 0x700 v) s = .next { s with sel := { s.sel with model := v &&& 0x3F } } ∧
    exec (.registerWrite a 0x2000 v) s = .next { s with sel := { s.sel with stream := v &&& 0xFFF } } ∧
    exec (.registerWrite a 0x3418 v) s = .next { s with sel := { s.sel with faultLog := v &&& 0xFFFFFFFF } } ∧
    exec (.registerWrite a 0x6000 v) s = .next { s with sel := { s.sel with fret := v &&& 0x3FFFFFFF } } ∧
    exec (.registerWrite a 0x6040 v) s = .next { s with sel := { s.sel with row := v &&& 0x7FF0F1F } } ∧
    exec (.registerWrite a 0x6200 v) s = .next { s with sel := { s.sel with tally := v &&& 0x3FFFF } } ∧
    exec (.registerWrite a 0x6080 v) s = exec (.sfdDbgCapCtl v) s ∧
    exec (.registerWrite a 0x6280 v) s = exec (.sfdDbgChordSel v) s ∧
    exec (.registerWrite a 0x530 v) s = exec (.sfdSndDb v) s ∧
    exec (.registerWrite a 0x2050 v) s = exec (.sfdRelease v) s ∧
    exec (.registerWrite a 0x3000 v) s = exec (.sfdLedger v) s ∧
    exec (.registerWrite a 0x3030 v) s = exec (.avsErrClear v) s ∧
    exec (.registerWrite a 0x3410 v) s = exec (.sfdFaultAck v) s ∧
    (v.getLsbD 0 = true → exec (.registerWrite a 0x800 v) s = exec (.mountGo (v.getLsbD 1)) s) ∧
    (v.getLsbD 0 = false → v.getLsbD 1 = true → exec (.registerWrite a 0x800 v) s = exec .mountDiscard s) ∧
    (∀ r, r < 64 → exec (.registerWrite a (0x1018 + 64 * r) v) s = exec (.sfdRingSdb r v) s ∧
      exec (.registerWrite a (0x1020 + 64 * r) v) s = exec (.sfdRingCdb r v) s)) ∧
  (∀ (a o : Nat) (v : Word) (s : State), o % 8 ≠ 0 ∨
    (isStaged o = false ∧ ¬(0x840 ≤ o ∧ o < 0x860) ∧ ¬(0x1000 ≤ o ∧ o < 0x2000 ∧ (o % 64 = 24 ∨ o % 64 = 32)) ∧
      o ∉ [0x500, 0x700, 0x2000, 0x3418, 0x6000, 0x6040, 0x6200, 0x6080, 0x6280, 0x530, 0x2050, 0x3000, 0x3030, 0x3410, 0x800]) →
    exec (.registerWrite a o v) s = .next s) ∧
  (∀ (v : Word) (s : State), s.up = true → v.getLsbD 0 = true →
    exec (.sfdDbgCapCtl v) s = .next { s with sel := { s.sel with
      capture := { ctl := v &&& 0xFFFF, armed := true, done := false, count := 0, rows := [], recWord := 0 } } }) ∧
  (∀ (v : Word) (s : State), s.up = true → v.getLsbD 0 = false →
    exec (.sfdDbgCapCtl v) s = .next { s with sel := { s.sel with
      capture := { s.sel.capture with ctl := v &&& 0xFFFF, armed := false } } }) ∧
  (∀ (c : Instr) (s t : State), exec c s = .next t →
    (c = .engineReset ∧ s.up = true) ∨ (∃ vdd vddm vpp v ok, c = .powerOn vdd vddm vpp v ok ∧ s.pwr.phase = .inReset ∧ railsGood vdd vddm vpp v = true) →
    t.sel.capture.armed = false ∧ t.sel.capture.done = false ∧ t.sel.capture.count = 0 ∧ t.sel.capture.rows = []) ∧
  (∀ (v : Word) (s : State), s.up = true →
    exec (.sfdDbgChordSel v) s = .next { s with sel := { s.sel with
      chord := { sel := v &&& 0x1FFFFF, armed := true, value := 0, recWord := 0 } } })

/-- O23. A write of SFD_IMG_EXPECT by agent 1, the root of trust (R470), is staged; the engine ignores a write from any
other agent and counts it in FOREIGN, whichever command brings it. -/
def Obligations.ImageExpectWrites : Prop :=
  ∀ (i : Nat) (v : Word) (s : State), s.up = true → i < 4 →
    (∀ agent, exec (.registerWrite agent (0x840 + 8 * i) v) s = exec (.sfdImgExpectWrite agent i v) s) ∧
    (∀ agent, agent ≠ 1 → exec (.sfdImgExpectWrite agent i v) s =
      .next { s with img := { s.img with foreign := min (s.img.foreign + 1) 65535 } }) ∧
    (s.mnt.freezing = true → exec (.sfdImgExpectWrite 1 i v) s =
      .next { s with mnt := { s.mnt with frozen := s.mnt.frozen ++ [(0x840 + 8 * i, v)] } }) ∧
    (s.mnt.freezing = false → ∃ t, exec (.sfdImgExpectWrite 1 i v) s = .next t ∧ OnlyChanges [.shadow, .gait, .out] s t ∧
      t.shadow = { s.shadow with expect := s.shadow.expect.set i v })

/-- O24. The stores of the Tally's words and tiles, on the die and in a save, and of the entity rows keep one item an
index whatever command is taken, so that equal stores are equal data. -/
def Obligations.StepKeepsStores : Prop :=
  ∀ s t : State, StoresOk s → step s = .next t → StoresOk t

/-- O25. On an enabled ring, with d = TAIL − SUB_TAIL modulo 2^32: when d is 0 nothing happens, but a halted ring
resumes. When d is at most the room, TAIL becomes SUB_TAIL, and a halted ring resumes. Otherwise the ring halts with
TAIL_RANGE and SUB_TAIL stays. A ring that resumes has HALT 0, or HALT DGEN when the descriptor at SUB_HEAD breaks
R311. A ring that is not enabled, or is restoring, takes no doorbell (R306). An empty ring has no descriptor to
read, which is the model's reading. -/
def Obligations.SubmissionDoorbell : Prop :=
  (∀ (r : Nat) (v : Word) (s : State), s.up = true → r < s.rings.length → s.ringOn r = true →
    let x := s.ring r
    let tail : Word32 := v.setWidth 32
    let d := (tail - x.subTail).toNat
    let bad (end_ : Word32) : Bool := x.subHead != end_ &&
      descGen (s.descriptor r x.subHead) != ((x.subHead.toNat >>> (s.live.ring r).sSize) + 1) % 4
    ∃ t, exec (.sfdRingSdb r v) s = .next t ∧ OnlyChanges [.rings, .jobs] s t ∧
      t.jobs = { s.jobs with doorbells := t.jobs.doorbells } ∧ (∀ q, q ≠ r → t.ring q = s.ring q) ∧
      t.ring r = { x with subTail := (t.ring r).subTail, halt := (t.ring r).halt, tails := (t.ring r).tails } ∧
      (d = 0 → (t.ring r).subTail = x.subTail ∧
        (t.ring r).halt = if x.halt = 0 then 0 else if bad x.subTail then 1 else 0) ∧
      (d ≠ 0 → d + (x.subTail - x.subHead).toNat ≤ 2 ^ (s.live.ring r).sSize → (t.ring r).subTail = tail ∧
        (t.ring r).halt = if x.halt = 0 then 0 else if bad tail then 1 else 0) ∧
      (d ≠ 0 → 2 ^ (s.live.ring r).sSize < d + (x.subTail - x.subHead).toNat →
        (t.ring r).subTail = x.subTail ∧ (t.ring r).halt = 2)) ∧
  (∀ (r : Nat) (v : Word) (s : State), s.ringOn r = false → exec (.sfdRingSdb r v) s = .next s)

/-- O26. A write of HEAD at or behind CMP_HEAD leaves it; otherwise CMP_HEAD becomes the lesser in ring order of HEAD
and LIVE (R310). The job contexts whose entry the head has passed are freed, and no other (R319). The ring's
notification is armed; when the entry at HEAD is visible, its vector is enabled and memory has acknowledged every
entry write, it is sent at once, which disarms it (R474, R475). An acknowledgement is that of the oldest entry write
of the ring (log entry 24); with the last one a notification that waited is sent. That a vector not enabled
announces nothing later is the model's choice. -/
def Obligations.CompletionDoorbell : Prop :=
  (∀ (r : Nat) (v : Word) (s : State), s.up = true → r < s.rings.length → s.ringOn r = true →
    let x := s.ring r
    let head : Word32 := v.setWidth 32
    let d := (head - x.cmpHead).toNat
    let live := (s.liveIndex r - x.cmpHead).toNat
    let now := s.entryVisible r head && x.unacked.isEmpty && s.live.notify0.toNat.testBit r
    ∃ t, exec (.sfdRingCdb r v) s = .next t ∧ OnlyChanges [.rings, .jobs, .out] s t ∧
      (∀ q, q ≠ r → t.ring q = s.ring q) ∧
      (t.ring r).cmpHead = (if d = 0 ∨ 2 ^ 31 ≤ d then x.cmpHead else if d ≤ live then head else s.liveIndex r) ∧
      t.ring r = { x with
        cmpHead := (t.ring r).cmpHead, armed := !now, announce := if now then false else s.entryVisible r head } ∧
      t.out = (if now then s.out ++ [.notify r] else s.out) ∧
      t.jobs = { s.jobs with jobs := t.jobs.jobs } ∧
      ∀ j, j ∈ t.jobs.jobs ↔ j ∈ s.jobs.jobs ∧ ¬(j.written = true ∧
        0 < ((t.ring j.ring).cmpHead - j.entrySlot).toNat ∧ ((t.ring j.ring).cmpHead - j.entrySlot).toNat < 2 ^ 31)) ∧
  (∀ (r : Nat) (v : Word) (s : State), s.ringOn r = false → exec (.sfdRingCdb r v) s = .next s) ∧
  (∀ (r : Nat) (s : State), s.up = true → r < s.rings.length →
    let x := s.ring r
    let now := x.unacked.tail.isEmpty && x.armed && x.announce && s.live.notify0.toNat.testBit r
    ∃ t, exec (.memoryWriteAcknowledged r) s = .next t ∧ OnlyChanges [.rings, .out] s t ∧ (∀ q, q ≠ r → t.ring q = s.ring q) ∧
      t.ring r = { x with
        unacked := x.unacked.tail, announce := x.announce && !x.unacked.tail.isEmpty, armed := x.armed && !now } ∧
      t.out = if now then s.out ++ [.notify r] else s.out)

/-- O27. The job that the Rein chooses is ready on its ring; no ready ring has a higher PRIO, and none of equal PRIO an
older head (R375). The job leaves its ring and takes a context; a scoring job reserves N + 1 completion slots at
CMP_TAIL, slot P + i for record index i and P + N for its job entry, every other job one. It owns its tiles. A
RELEASE job completes with its dispatch (R327). Where no ring has a ready job nothing but the halt of rings whose
descriptor breaks R311 happens, and while no module is up the Rein, which reads memory, waits (R468). -/
def Obligations.JobDispatch : Prop :=
  (∀ (r : Nat) (s : State), s.memUp = true → s.rings.length = 64 → s.haltBad.reinChoice = some r →
    let u := s.haltBad
    ∃ d t j, u.headDesc r = some d ∧ exec .jobDispatch s = (if descOp d = 10 then exec (.release j.id) t else .next t) ∧
      OnlyChanges [.ent, .rings, .jobs, .tally, .led, .gait, .out] s t ∧
      t.jobs.jobs = s.jobs.jobs ++ [j] ∧ j.id = s.jobs.nextId ∧ j.ring = r ∧ j.op = descOp d ∧ j.desc = d ∧ j.tag = descTag d ∧
      j.slot = (u.ring r).cmpTail ∧
      (isScoring j.op = true → j.n = descCount d ∧ j.entrySlot = j.slot + BitVec.ofNat 32 j.n) ∧
      (isScoring j.op = false → j.entrySlot = j.slot) ∧
      t.ring r = { u.ring r with
        subHead := (u.ring r).subHead + 1
        cmpTail := (u.ring r).cmpTail + (if isScoring j.op then BitVec.ofNat 32 (j.n + 1) else 1)
        tails := (t.ring r).tails } ∧
      (∀ q, q ≠ r → t.ring q = u.ring q) ∧
      (j.owns = true → ∀ n ∈ j.tileList, (t.tile n).owner = some j.id)) ∧
  (∀ (r : Nat) (s : State), s.reinChoice = some r → r < 64 ∧ s.headStateFair r = .ready ∧
    ∀ q, q < 64 → s.headStateFair q = .ready →
      (s.live.ring q).prio < (s.live.ring r).prio ∨
        ((s.live.ring q).prio = (s.live.ring r).prio ∧ (s.ring r).age ≤ (s.ring q).age)) ∧
  (∀ s : State, s.memUp = true → s.haltBad.reinChoice = none → exec .jobDispatch s = .next s.haltBad) ∧
  (∀ s : State, s.memUp = false → exec .jobDispatch s = .next s)

/-- O28. A job that fails a check of R315 reserves one completion slot at CMP_TAIL, its job entry with the status of the
check is written there, the ring's next job comes up, and no context is taken; no other byte of memory changes. When
the completion ring has no free slot the refusal waits, held with cause 0b0010. -/
def Obligations.JobRefusal : Prop :=
  (∀ (r st : Nat) (d : BitVec 512) (s : State), s.up = true → r < s.rings.length → Memory.wf s.mem = true →
    s.headDesc r = some d → s.headState r = .refused st →
    let x := s.ring r
    let c := s.live.ring r
    ∃ t done detail, exec (.jobRefusal r) s = .next t ∧ OnlyChanges [.rings, .mem] s t ∧
      t.ring r = { x with
        subHead := x.subHead + 1, cmpTail := x.cmpTail + 1, tails := (t.ring r).tails
        unacked := x.unacked ++ [(s.readModule (c.slotAddr x.cmpTail), c.slotAddr x.cmpTail)], announce := x.announce || x.armed } ∧
      (∀ q, q ≠ r → t.ring q = s.ring q) ∧
      EntryStands c t.mem x.cmpTail (jobBody st (descOp d) (descTag d) done detail) ∧
      (descOp d ≠ 10 → done = 0 ∧ detail = 0) ∧
      OnlySlots c [x.cmpTail] s.mem t.mem) ∧
  (∀ (r : Nat) (d : BitVec 512) (s : State), s.headDesc r = some d → s.gateCauses r d = [] → (s.jobCheck r d).isSome = true →
    s.freeSlots r = 0 → s.headState r = .held [2] ∧ exec (.jobRefusal r) s = .next s)

/-- O29. A dispatched FENCE begins to wait. It completes, with JOB_OK, when every earlier job of its ring has written
its job entry, and with GLOBAL 1 when every earlier job of every ring has; until then it does not. While it is open
no later job of its ring comes to its checks or its dispatch. -/
def Obligations.Fences : Prop :=
  (∀ (id : Nat) (j : Job) (s : State), s.up = true → s.openJob id 9 = some j →
    exec (.fence id) s = .next (s.modJob id (fun x => { x with begun := true }))) ∧
  (∀ (id : Nat) (j : Job) (s : State), s.up = true → Memory.wf s.mem = true → s.openJob id 9 = some j → j.begun = true →
    (∀ x ∈ s.jobs.jobs, x.id < j.id → x.ring = j.ring ∨ descGlobal j.desc = true → x.written = true) →
    ∃ t, exec (.fenceComplete id) s = .next t ∧ OnlyChanges [.rings, .jobs, .led, .gait, .mem, .out] s t ∧
      JobEnds s t j 0x100 0 0 ∧ OnlySlots (s.live.ring j.ring) [j.entrySlot] s.mem t.mem) ∧
  (∀ (id : Nat) (j x : Job) (s : State), s.openJob id 9 = some j → x ∈ s.jobs.jobs → x.id < j.id →
    x.ring = j.ring ∨ descGlobal j.desc = true → x.written = false → exec (.fenceComplete id) s = .next s) ∧
  (∀ (j : Job) (d : BitVec 512) (s : State), j ∈ s.jobs.jobs → j.op = 9 → j.written = false → s.headDesc j.ring = some d →
    ∃ cs, s.headState j.ring = .held cs ∧ 7 ∈ cs)

/-- O30. A request of cursor C for a stream with effective cursor R and accept cursor A is ignored when C − R is 0 or at
least 2^31, and when it exceeds A − R it is ignored by SFD_RELEASE and refused with REL_RANGE as a job. Otherwise C
becomes REQUESTED when it lies beyond it, and a RELEASE job completes with JOB_OK in any case. The effective cursor
then moves record by record towards REQUESTED, past no record that a dispatched job names and has not committed, and
frees the head and block of each record it passes (R333). A stream that has not started has nothing to release. That
a RELEASE job whose request is ignored completes with JOB_OK is the model's reading. -/
def Obligations.ReleaseRequests : Prop :=
  (∀ (v : Word) (s : State), s.up = true →
    let st := (v.toNat >>> 32) % 4096
    let c : Word32 := v.setWidth 32
    let x := s.stream st
    let d := (c - x.release).toNat
    (d = 0 ∨ 2 ^ 31 ≤ d ∨ (x.accept - x.release).toNat < d → exec (.sfdRelease v) s = .next s) ∧
    (x.started = true → d ≠ 0 → d < 2 ^ 31 → d ≤ (x.accept - x.release).toNat →
      ∃ t k, exec (.sfdRelease v) s = .next t ∧ OnlyChanges [.ing, .acc, .pwr, .out] s t ∧
        (t.stream st).requested = (if (x.requested - x.release).toNat < d then c else x.requested) ∧
        (t.stream st).release = x.release + BitVec.ofNat 32 k ∧ (t.stream st).accept = x.accept ∧
        (∀ q, q ≠ st → t.stream q = s.stream q) ∧
        (∀ i, i < k → s.namedUncommitted st (x.release + BitVec.ofNat 32 i) = false) ∧
        (∀ h, h ∈ t.acc.heads ↔ h ∈ s.acc.heads ∧ ¬∃ i, i < k ∧ h.stream = st ∧ h.seq = x.release + BitVec.ofNat 32 i) ∧
        k ≤ ((t.stream st).requested - x.release).toNat ∧
        (((t.stream st).requested - x.release).toNat ≤ s.acc.heads.length + 1 →
          (t.stream st).release = (t.stream st).requested ∨ s.namedUncommitted st (t.stream st).release = true))) ∧
  (∀ (r : Nat) (d : BitVec 512) (s : State), descOk d = true → descOp d = 10 →
    let x := s.stream (descRelStream d)
    let n := (descCursor d - x.release).toNat
    (s.jobCheck r d = some 0x109 ↔ n ≠ 0 ∧ n < 2 ^ 31 ∧ (x.accept - x.release).toNat < n) ∧
    (s.jobCheck r d = some 0x109 ∨ s.jobCheck r d = none)) ∧
  (∀ (id : Nat) (j : Job) (s : State), s.up = true → Memory.wf s.mem = true → s.openJob id 10 = some j →
    let st := descRelStream j.desc
    let x := s.stream st
    let d := (descCursor j.desc - x.release).toNat
    ∃ t, exec (.release id) s = .next t ∧ OnlyChanges [.ing, .acc, .rings, .jobs, .led, .gait, .pwr, .mem, .out] s t ∧
      JobEnds s t j 0x100 (t.stream st).release.toNat (descCursor j.desc).toNat ∧
      OnlySlots (s.live.ring j.ring) [j.entrySlot] s.mem t.mem ∧
      (d = 0 ∨ 2 ^ 31 ≤ d ∨ (x.accept - x.release).toNat < d → t.ing = s.ing ∧ t.acc = s.acc) ∧
      (x.started = true → d ≠ 0 → d < 2 ^ 31 → d ≤ (x.accept - x.release).toNat →
        (t.stream st).requested = if (x.requested - x.release).toNat < d then descCursor j.desc else x.requested))

/-- O31. SCORE and SCORE_TREMOLO offer the job's next record index (R320). An index beyond the stream's route is
VOID_ROUTE (R324). A record that eight earlier jobs name is VOID_PLACES for this one (R321). A record not yet
accepted is waited for. An accepted record goes to the group that scores its key and takes a job place, or, where it
is voided or the group is gone or suspends the model, has that status at once. A record that is already released has
no status (R458). That one step offers one index, and none while a replay is due, is the model's choice. -/
def Obligations.ScoreOffers : Prop :=
  ∀ (id op : Nat) (c : Instr) (j : Job) (s : State), (c, op) ∈ [(.score id, 1), (.scoreTremolo id, 2)] →
    s.up = true → s.openJob id op = some j → s.pwr.replayDue = false → j.next < j.n →
    let offered (x : Job) : Prop := x.next = j.next + 1 ∧ x.begun = true ∧ x.committed = j.committed
    (j.next < s.releasedOf j → exec c s = .next (s.modJob id (fun x => { x with begun := true, next := j.next + 1 }))) ∧
    (s.releasedOf j ≤ j.next → j.routed ≤ j.next → ∃ t x, exec c s = .next t ∧ t.job id = some x ∧ offered x ∧ sget 0 x.special j.next = 0xB) ∧
    (s.releasedOf j ≤ j.next → j.next < j.routed → s.head j.stream (j.seqOf j.next) = none → ∃ t, exec c s = .next t ∧ OnlyChanges [.jobs] s t ∧
      t.job id = some { j with begun := true }) ∧
    (∀ h, s.releasedOf j ≤ j.next → j.next < j.routed → s.head j.stream (j.seqOf j.next) = some h → 8 ≤ s.namesBefore j h →
      ∃ t x, exec c s = .next t ∧ OnlyChanges [.jobs, .led, .gait, .out] s t ∧ t.job id = some x ∧ offered x ∧ sget 0 x.special j.next = 0x9) ∧
    (∀ h g, s.releasedOf j ≤ j.next → j.next < j.routed → s.head j.stream (j.seqOf j.next) = some h → s.namesBefore j h < 8 → s.destination j h = .inr g →
      ∃ t x, exec c s = .next t ∧ OnlyChanges [.acc, .jobs, .grp] s t ∧ t.job id = some x ∧ offered x ∧ x.special = j.special ∧
        (∃ y, t.head j.stream (j.seqOf j.next) = some y ∧ (y.placeOf id).isSome = true) ∧
        t.grp.groups = s.grp.groups.map (fun y =>
          if y.gid = g.gid then { y with ready := y.ready ++ [(id, j.next)] } else y)) ∧
    (∀ h st, s.releasedOf j ≤ j.next → j.next < j.routed → s.head j.stream (j.seqOf j.next) = some h → s.namesBefore j h < 8 → s.destination j h = .inl st →
      ∃ t x y p, exec c s = .next t ∧ t.job id = some x ∧ offered x ∧ t.head j.stream (j.seqOf j.next) = some y ∧
        y.placeOf id = some p ∧ p.settled = true ∧ p.replay = false ∧ p.status = st)

/-- O32. The next record of a scoring job, once it has its status, is committed: its result entry stands in slot P + i
with status, flags, stream, sequence number, index and generation. A record that has its status without a place is
committed with it as a voided one. The last commit releases the tiles and writes the job entry, with JOB_OK, N and
the number of voided records (R326, R327). No other byte of memory changes. A record without its status waits. A
record that ABANDON has released is counted and has no result entry (R458). While no module is up commits wait
(R468). -/
def Obligations.RecordCommit : Prop :=
  ∀ (id : Nat) (j : Job) (s : State), s.memUp = true → Memory.wf s.mem = true → s.job id = some j → j.scoring = true →
    j.written = false → j.committed < j.n → (s.live.ring j.ring).en = true → j.n + 1 ≤ 2 ^ (s.live.ring j.ring).cSize →
    s.rewritten j j.committed = true →
    let i := j.committed
    let slot := j.slot + BitVec.ofNat 32 i
    let done (t : State) (body : Nat) (void : Bool) : Prop :=
      EntryStands (s.live.ring j.ring) t.mem slot body ∧
      OnlySlots (s.live.ring j.ring) (if i + 1 = j.n then [slot, j.entrySlot] else [slot]) s.mem t.mem ∧
      (∀ x ∈ t.jobs.jobs, x.id = id → x.committed = i + 1 ∧ x.voided = j.voided + (if void then 1 else 0)) ∧
      (i + 1 = j.n → JobEnds s t j 0x100 j.n (j.voided + (if void then 1 else 0)))
    (sget 0 j.special i = 0 → i < s.releasedOf j → ∃ t, exec (.recordCommit id) s = .next t ∧
      OnlySlots (s.live.ring j.ring) (if i + 1 = j.n then [j.entrySlot] else []) s.mem t.mem ∧
      (∀ x ∈ t.jobs.jobs, x.id = id → x.committed = i + 1 ∧ x.voided = j.voided) ∧
      (i + 1 = j.n → JobEnds s t j 0x100 j.n j.voided)) ∧
    (∀ h p, sget 0 j.special i = 0 → s.releasedOf j ≤ i → s.placeAt j i = some (h, p) → p.settled = true → p.replay = false → p.commit = false →
      ∃ t, exec (.recordCommit id) s = .next t ∧ done t
        (resultBody p.multi p.overflow p.miss p.status j.stream j.tag (j.seqOf p.idx).toNat p.idx p.gen) (p.status != 0)) ∧
    (∀ st, sget 0 j.special i = st → st ≠ 0 →
      ∃ t, exec (.recordCommit id) s = .next t ∧
        done t (resultBody false false false st j.stream j.tag (j.seqOf i).toNat i 0) true) ∧
    (∀ h p, sget 0 j.special i = 0 → s.releasedOf j ≤ i → s.placeAt j i = some (h, p) → p.settled = false →
      exec (.recordCommit id) s = .next s)

/-- O33. DRAIN_TILE writes to its destination each word of its tiles as the Tally holds it: the word, corrected where
one stored bit is wrong (R160), the stored bits where two are. No other byte changes but those of the status words
behind the tiles (R157). When memory has acknowledged the writes of a tile, and ZERO_AFTER is 1, the tile's words
and status are cleared, DURABLE left as it is; with 0 they stay. With the last acknowledgement the job ends and its
tiles are free (R150). While no module is up the drain waits (R468). -/
def Obligations.DrainTiles : Prop :=
  (∀ (id : Nat) (s : State), s.memUp = false → exec (.drainTile id) s = .next s) ∧
  (∀ (id : Nat) (j : Job) (s : State), s.memUp = true → Memory.wf s.mem = true → s.openJob id 8 = some j → j.begun = false →
    j.tile + j.tiles ≤ 1024 → (∀ w, 256 * j.tile ≤ w → w < 256 * (j.tile + j.tiles) → ones 72 (s.tallyWord w).flips.toNat ≤ 2) →
    let words := 2048 * j.tiles
    let all := words + (8 * j.tiles + 63) / 64 * 64
    ∃ t, exec (.drainTile id) s = .next t ∧ OnlyChanges [.jobs, .tally, .flt, .pins, .mem, .out] s t ∧
      (∀ i, i < 256 * j.tiles →
        let w := s.tallyWord (256 * j.tile + i)
        memRead t.mem (descDest j.desc + 8 * i) 8 =
          leBytes 8 (if ones 72 w.flips.toNat = 2 then w.value ^^^ w.flips.setWidth 64 else w.value).toNat) ∧
      (∀ a, Apart (descDest j.desc) all a → memByte t.mem a = memByte s.mem a) ∧
      t.jobs = (s.modJob id (fun x => { x with begun := true })).jobs) ∧
  (∀ (id upTo : Nat) (j : Job) (s : State), s.up = true → Memory.wf s.mem = true → StoresOk s → s.openJob id 8 = some j → j.begun = true →
    let n := min upTo j.tiles
    j.acked < n →
    ∃ t, exec (.drainWritesAcked id upTo) s = .next t ∧ OnlyChanges [.rings, .jobs, .tally, .led, .gait, .mem, .out] s t ∧
      (∀ w, (descZeroAfter j.desc = true ∧ 256 * (j.tile + j.acked) ≤ w ∧ w < 256 * (j.tile + n) → t.tallyWord w = ⟨0, 0⟩) ∧
        (descZeroAfter j.desc = false ∨ w < 256 * (j.tile + j.acked) ∨ 256 * (j.tile + n) ≤ w → t.tallyWord w = s.tallyWord w)) ∧
      (∀ k, j.tile + j.acked ≤ k → k < j.tile + n → descZeroAfter j.desc = true →
        t.tile k = { Tile.reset with owner := (t.tile k).owner }) ∧
      (∀ k, descZeroAfter j.desc = false → t.tile k = { s.tile k with owner := (t.tile k).owner }) ∧
      (n < j.tiles → t.mem = s.mem ∧ ∀ x ∈ t.jobs.jobs, x.id = id → x.acked = n) ∧
      (n = j.tiles → JobEnds s t j 0x100 n 0 ∧ OnlySlots (s.live.ring j.ring) [j.entrySlot] s.mem t.mem ∧
        (j.owns = true → ∀ k, j.tile ≤ k → k < j.tile + j.tiles → (t.tile k).owner = none)))

/-- O34. A tag that breaks R464 is counted and retrains its module. Behind a good tag, with nothing else buffered or
waiting for a lane, a frame whose GEN is neither form is counted in BAD_GEN and an RSP2 frame whose HCHK fails in
HDR_ERR. A stream without a route counts its frame in UNROUTED, but an RSP1 frame of bad CRC in HDR_ERR, where it
also counts when its stream takes no RSP1 frame or it is out of place (R178, log entry 11). A frame of a Soundboard
stream is discarded (R231). Outside pairs, and for the data stream of a pair that is not Unseated, a frame out of
place counts in DISCARDS; one in place waits in the receive buffer while the window is full (R189), else takes a
place, its stream's cursor moves on, and it takes a lane, or is voided where check 5 fails: VOID_FORMAT, or VOID_CRC
for an RSP1 frame of bad CRC. The first record of a block is paired with the oldest waiting scale frame, and unseats
the pair where there is none or it is of another block (R193 to R195). A scale frame waits while the two entries of
the holding are taken (log entry 12), else goes to a lane, and unseats the pair where check 5 fails. An Unseated
pair takes only SYNC frames, a data stream only at a block's first record (R196). -/
def Obligations.FrameChecks : Prop :=
  (∀ (m : Nat) (bytes : List Byte) (s : State), s.up = true → m < s.link.length →
    (s.link.getD m LinkModule.reset).open = true → tagLength bytes = none →
    exec (.frameArrival m bytes) s = .next { s with link := s.link.modify m (fun l =>
      { l with tagErr := min (l.tagErr + 1) 65535, retraining := true }) }) ∧
  (∀ (m len : Nat) (bytes : List Byte) (s : State), s.up = true → m < 2 → (s.link.getD m LinkModule.reset).open = true → Quiet s →
    tagLength bytes = some len → 8 + len ≤ bytes.length →
    let frame := (bytes.drop 8).take len
    let gen := frameGen frame
    let h := frameHeader frame
    let crcBad := gen == 1 && !frameCrcOk frame
    let x := s.stream h.stream
    let inPlace : Prop := x.started = false ∨ (x.resync = false ∧ h.seq = x.next) ∨ (x.resync = true ∧ (h.seq - x.accept).toNat < 2 ^ 31)
    let old : Prop := x.resync = true ∧ ∃ w ∈ s.ing.window, w.stream = h.stream
    let held := { s.ing with rx := [⟨m, false, bytes⟩] }
    let placed (r : Route) (t : State) (block : Option BlockRef) : Prop :=
      (t.stream h.stream).next = h.seq + 1 ∧ (t.stream h.stream).started = true ∧
      (t.stream h.stream).accept = (if x.started ∧ x.resync = false then x.accept else h.seq) ∧
      ∃ w, t.ing.window = s.ing.window ++ [w] ∧ w.stream = h.stream ∧ w.seq = h.seq ∧ w.key = h.key ∧ w.frame = frame ∧ w.block = block ∧
        (headerOk h r frame.length = false → w.void = (if crcBad then 1 else 2) ∧ w.phase = .ready ∧ t.ing.lanes = s.ing.lanes ∧
          (crcBad = false → (t.stream h.stream).formatVoids = min (x.formatVoids + 1) 65535)) ∧
        (headerOk h r frame.length = true → w.void = 0 ∧
          (w.phase = .needLane ∧ none ∉ s.ing.lanes ∨
            w.phase = .inLane ∧ ∃ i l, s.ing.lanes[i]? = some none ∧ l.stream = h.stream ∧ l.seq = h.seq ∧
              t.ing.lanes = s.ing.lanes.set i (some l)))
    let unseated (t : State) (data scale : Nat) (db sb : Option Nat) (noScale bad : Bool) : Prop :=
      let p := s.pair data
      t.pair data = { p with
        unseated := true, coming := [], holding := p.holding.filter (fun f => f.pairedTo.isSome), noScale := noScale, scaleBad := bad
        dataBlock := db.getD p.dataBlock, scaleBlock := sb.getD p.scaleBlock } ∧
      (t.stream data).next = (t.stream data).accept ∧ (t.stream scale).next = (t.stream scale).accept ∧
      t.ing.window = s.ing.window ∧ t.ing.lanes = s.ing.lanes ∧
      (p.unseated = false → s.live.notify1.getLsbD 1 = true → .notify 65 ∈ t.out.drop s.out.length)
    ∃ t, exec (.frameArrival m bytes) s = .next t ∧ OnlyChanges [.ing, .pwr, .out] s t ∧
      (gen ≠ 1 ∧ gen ≠ 2 → t.ing = { s.ing with badGen := min (s.ing.badGen + 1) 65535 }) ∧
      (gen = 2 ∧ hchkOk frame = false → t.ing = { s.ing with hdrErr := min (s.ing.hdrErr + 1) 65535 }) ∧
      ((gen = 1 ∨ gen = 2 ∧ hchkOk frame = true) → s.tables.route h.stream = none →
        t.ing = if crcBad then { s.ing with hdrErr := min (s.ing.hdrErr + 1) 65535 }
          else { s.ing with unrouted := min (s.ing.unrouted + 1) 65535 }) ∧
      (∀ r, s.tables.route h.stream = some r → r.format ≠ 1 → crcBad = true →
        t.ing = { s.ing with hdrErr := min (s.ing.hdrErr + 1) 65535 }) ∧
      (∀ r, s.tables.route h.stream = some r → (gen = 1 ∨ gen = 2 ∧ hchkOk frame = true) → (crcBad = true → r.format = 1) →
        (r.format = 2 → t.ing = (s.addDiscard h.stream).ing) ∧
        (r.format ≠ 2 → r.pair = 0 → x.resync = false →
          (¬inPlace → t.ing = if crcBad then s.addHdrErr.ing else (s.addDiscard h.stream).ing) ∧
          (inPlace → 8192 ≤ s.ing.window.length → t.ing = held) ∧
          (inPlace → s.ing.window.length < 8192 → s.window h.stream h.seq = none → placed r t none)) ∧
        (r.format ≠ 2 → r.pair = 1 → r.partner ≠ h.stream →
          let p := s.pair h.stream
          let b := h.seq.toNat / 64
          (h.sync = true ∧ h.seq.toNat % 64 ≠ 0 ∨ p.unseated = true ∧ h.sync = false → t.ing = (s.addDiscard h.stream).ing) ∧
          ((h.sync = true → h.seq.toNat % 64 = 0) → (p.unseated = true → h.sync = true) →
            (¬inPlace → t.ing = if crcBad then s.addHdrErr.ing else (s.addDiscard h.stream).ing) ∧
            (inPlace → (s.window h.stream h.seq).isSome = true → t.ing = (s.addDiscard h.stream).ing) ∧
            (inPlace → s.window h.stream h.seq = none →
              (8192 ≤ s.ing.window.length ∨ old → t.ing = held) ∧
              (s.ing.window.length < 8192 → ¬old →
                (h.seq.toNat % 64 = 0 → p.holding.find? (fun f => f.pairedTo.isNone) = none →
                  unseated t h.stream r.partner (some h.block) none true false) ∧
                (∀ f, h.seq.toNat % 64 = 0 → p.holding.find? (fun f => f.pairedTo.isNone) = some f → f.block ≠ h.block →
                  unseated t h.stream r.partner (some h.block) (some f.block) false false) ∧
                (∀ f, h.seq.toNat % 64 = 0 → p.holding.find? (fun f => f.pairedTo.isNone) = some f → f.block = h.block →
                  (∀ g ∈ p.holding, g.pairedTo ≠ some b ∧ (g.order = f.order → g = f)) →
                  placed r t (some ⟨f.order, f.block, f.scales⟩) ∧ (t.pair h.stream).unseated = false) ∧
                (∀ f, h.seq.toNat % 64 ≠ 0 → p.holding.find? (fun f => f.pairedTo == some b) = some f →
                  placed r t (some ⟨f.order, f.block, f.scales⟩)))))) ∧
        (r.format ≠ 2 → r.pair = 2 → r.partner ≠ h.stream →
          let p := s.pair r.partner
          (p.unseated = true ∧ h.sync = false ∨ ¬inPlace → t.ing = (s.addDiscard h.stream).ing) ∧
          ((p.unseated = true → h.sync = true) → inPlace →
            (2 ≤ p.holding.length + p.coming.length ∨ old → t.ing = held) ∧
            (p.holding.length + p.coming.length < 2 → ¬old →
              (headerOk h r frame.length = false → unseated t r.partner h.stream none (some h.block)
                (p.holding.find? (fun f => f.pairedTo.isNone)).isNone true) ∧
              (headerOk h r frame.length = true → (t.stream h.stream).next = h.seq + 1 ∧ t.ing.window = s.ing.window ∧
                ∃ f, (t.pair r.partner).coming = p.coming ++ [f] ∧ f.seq = h.seq ∧ f.block = h.block ∧ f.frame = frame ∧
                  (f.inLane = true ↔ none ∈ s.ing.lanes)))))))

/-- O35. A lane whose work and wait steps stay within the decode budget frees itself and hands its record over: VOID_CRC
where the frame's CRC fails, VOID_FORMAT where its block is not that of its scale frame (R190) or its payload breaks
its encoding, else with the features its payload supplies. A Soundboard record has no wait steps (R237). A lane
whose steps exceed the budget stops, and the record is voided with DECODE_BUDGET. A record that is not voided goes
on to its entity join when its stream has a map and its key is not zero; every other is ready for acceptance (R179,
R184, R185). Neither command acts in the other's case. -/
def Obligations.DecodeEnds : Prop :=
  ∀ (lane wait : Nat) (l : Lane) (w : WindowRecord) (s : State), s.up = true → Quiet s → s.ing.lanes[lane]? = some (some l) →
    l.scale = false → s.window l.stream l.seq = some w →
    let steps := if w.frame = [] then l.work else l.work + wait
    let after (t : State) (void : Nat) (x : Supplied) : Prop :=
      OnlyChanges [.ing, .pwr, .out] s t ∧ t.ing.lanes = s.ing.lanes.set lane none ∧
      t.window l.stream l.seq = some { w with
        void := void, narrow := x.narrow, wide := x.wide
        phase := if void = 0 ∧ w.key ≠ 0 ∧ ((s.tablesAt w.tgen).route w.stream).any (fun r => r.emapEn) = true then
          .joining else .ready }
    let result := s.decodeRecord w
    (steps ≤ l.budget →
      (∃ t, exec (.decodeDone lane wait) s = .next t ∧ after t result.1 result.2) ∧ exec (.decodeBudget lane wait) s = .next s) ∧
    (l.budget < steps →
      (∃ t, exec (.decodeBudget lane wait) s = .next t ∧ after t 3 ⟨[], []⟩ ∧
        (t.stream l.stream).budgetVoids = min ((s.stream l.stream).budgetVoids + 1) 65535) ∧
      exec (.decodeDone lane wait) s = .next s) ∧
    (w.void = 0 → w.frame ≠ [] → frameCrcOk w.frame = false → result = (1, ⟨[], []⟩)) ∧
    (∀ r, w.void = 0 → w.frame ≠ [] → frameCrcOk w.frame = true → (s.tablesAt w.tgen).route w.stream = some r →
      result = if ∃ b, w.block = some b ∧ b.number ≠ (frameHeader w.frame).block then (2, ⟨[], []⟩)
        else match decodePayload (frameHeader w.frame) ((s.tablesAt w.tgen).qtable r.qtable) r.missing
            ((w.block.map (fun b => b.scales)).getD []) (frameBody w.frame) with
          | none => (2, ⟨[], []⟩)
          | some x => (0, x)) ∧
    (w.void = 0 → w.frame = [] → result = (0, ⟨w.sndCodes.mapIdx (fun i c => (w.sndFirst + i, c)), []⟩)) ∧
    (w.void ≠ 0 → result = (w.void, ⟨[], []⟩))

/-- O36. The record at a stream's accept cursor, once it is ready, with VHOLD good, the save energy allowing it and a
place free, leaves the window, stands in the acceptance buffer with its key and its void status, and the cursor
moves on by one. No other record of the stream is accepted, whatever the other streams hold. When accept cursors are
written to memory, and 64 records have been accepted since the last write or none of the stream is left in the
window, the exact cursor stands at ADDR + 4·stream (R331); no other byte changes. -/
def Obligations.AcceptanceInOrder : Prop :=
  (∀ (st : Nat) (s t : State), exec (.acceptance st) s = .next t → t ≠ s →
    ∃ w, s.window st (s.stream st).accept = some w ∧ w.phase = .ready) ∧
  (∀ (st p : Nat) (w : WindowRecord) (s : State), s.up = true → Quiet s → Memory.wf s.mem = true → (s.stream st).started = true →
    3200 ≤ s.pwr.vholdMv → s.window st (s.stream st).accept = some w → w.phase = .ready → s.energyAllows (w.void == 0) = true →
    s.acc.freeHead = some p → (w.void = 0 → s.acc.freeBlock.isSome = true) →
    let left := s.ing.window.filter (fun x => !(x.stream == st && x.seq == w.seq))
    let due := s.live.accEn = true ∧ (64 ≤ (s.stream st).unwritten + 1 ∨ ∀ x ∈ left, x.stream ≠ st)
    ∃ t h, exec (.acceptance st) s = .next t ∧ OnlyChanges [.ing, .acc, .pwr, .mem, .out] s t ∧
      t.acc = { s.acc with heads := s.acc.heads ++ [h] } ∧ h.stream = st ∧ h.seq = (s.stream st).accept ∧ h.key = w.key ∧
      h.void = w.void ∧ h.place = p ∧ h.places = [] ∧ (h.block.isSome = true ↔ w.void = 0) ∧
      t.ing.window = left ∧ (t.stream st).accept = (s.stream st).accept + 1 ∧ (∀ q, q ≠ st → t.stream q = s.stream q) ∧
      (due → memRead t.mem (s.live.accAddr + 4 * st) 4 = leBytes 4 (t.stream st).accept.toNat ∧ (t.stream st).unwritten = 0 ∧
        ∀ a, Apart (s.live.accAddr + 4 * st) 4 a → memByte t.mem a = memByte s.mem a) ∧
      (¬due → t.mem = s.mem ∧ (t.stream st).unwritten = (s.stream st).unwritten + 1))

/-- O37. For d = WRITE − previous WRITE modulo 2^32, a write to SFD_SND_DB with d at least 2^31 is ignored and counted
in BACKWARD; otherwise WRITE becomes the channel's write cursor. No other channel changes. At the Mount that enables
a channel its samples count from 0. -/
def Obligations.SoundDoorbell : Prop :=
  (∀ (v : Word) (s : State), s.up = true →
    let i := (v.toNat >>> 32) % 64
    let write : Word32 := v.setWidth 32
    let x := s.snd.channel i
    i < s.snd.channels.length →
    ∃ t, exec (.sfdSndDb v) s = .next t ∧ OnlyChanges [.snd] s t ∧ t.snd.frame = s.snd.frame ∧
      (∀ k, k ≠ i → t.snd.channel k = s.snd.channel k) ∧
      (2 ^ 31 ≤ (write - x.write).toNat → t.snd.channel i = { x with backward := min (x.backward + 1) 65535 }) ∧
      ((write - x.write).toNat < 2 ^ 31 → t.snd.channel i = { x with write := write, doors := x.doors ++ [(write, s.snd.doorbells)] })) ∧
  (∀ (i : Nat) (s : State), i < s.snd.channels.length → ((s.enableChannel i).snd.channel i).sample = 0 ∧
    ((s.enableChannel i).snd.channel i).write = 0)

/-- O38. Of the channels whose next frame a doorbell has made ready, the Soundboard takes the one whose doorbell came
first, and the lowest of those that one doorbell made ready (R238). Its frame is read and computed while a module of
the package link is up (R468): its record has the channel's stream and key and the sequence number of its running
number, its codes are those of R240 to R245, the channel moves on by its hop, and a frame whose samples the ring has
lost is marked an overrun (R235). While no reorder-window place is free the finished frame is held and nothing more
is computed. With a place free it takes it and then a lane, and no frame is discarded (R237). -/
def Obligations.SoundFrames : Prop :=
  (∀ s : State,
    let since (k : Nat) : Option Nat :=
      if (s.live.chan k).en then (s.snd.channel k).readySince (s.live.chan k) else none
    (∀ i, s.nextSound = some i → i < 64 ∧ ∃ d, since i = some d ∧ ∀ k e, k < 64 → since k = some e → d < e ∨ (d = e ∧ i ≤ k)) ∧
    (s.nextSound = none → ∀ k, k < 64 → since k = none)) ∧
  (∀ (x : Channel) (c : SndCfg) (n : Nat), x.readySince c = some n → ∃ d ∈ x.doors, d.2 = n ∧
    (d.1 - (x.sample + BitVec.ofNat 32 c.frameLen)).toNat < 2 ^ 31) ∧
  (∀ s : State, s.memUp = false ∨ s.nextSound = none → exec .sndFrameStart s = .next s) ∧
  (∀ (i : Nat) (s : State), s.memUp = true → s.snd.frame = none → s.nextSound = some i → i < s.snd.channels.length →
    let c := s.live.chan i
    let x := s.snd.channel i
    let lost := 2 ^ c.ringBits < (x.write - x.sample).toNat
    ∃ t f, exec .sndFrameStart s = .next t ∧ OnlyChanges [.snd] s t ∧ t.snd.frame = some f ∧
      f.channel = i ∧ f.stream = c.stream ∧ f.seq = x.q0 + BitVec.ofNat 32 x.frame ∧ f.key = c.key ∧ f.first = c.first ∧
      f.codes = frameCodes c (Array.ofFn (fun k : Fin c.frameLen => s.soundSample c (x.sample + BitVec.ofNat 32 k.val))) ∧
      (f.overrun = true ↔ lost) ∧ (∀ k, k ≠ i → t.snd.channel k = s.snd.channel k) ∧
      t.snd.channel i = { x with
        sample := x.sample + BitVec.ofNat 32 c.hop, frame := x.frame + 1
        overruns := if lost then min (x.overruns + 1) 65535 else x.overruns, doors := (t.snd.channel i).doors }) ∧
  (∀ (s : State), 8192 ≤ s.ing.window.length → exec .sndFrameDone s = .next s) ∧
  (∀ (s : State), s.snd.frame.isSome = true → exec .sndFrameStart s = .next s) ∧
  (∀ (f : SoundFrame) (s : State), s.up = true → Quiet s → s.snd.frame = some f → s.ing.window.length < 8192 →
    s.window f.stream f.seq = none →
    ∃ t w, exec .sndFrameDone s = .next t ∧ OnlyChanges [.ing, .snd, .pwr, .out] s t ∧ t.snd = { s.snd with frame := none } ∧
      t.ing.window = s.ing.window ++ [w] ∧ w.stream = f.stream ∧ w.seq = f.seq ∧ w.key = f.key ∧
      w.void = (if f.overrun then 4 else 0) ∧ w.sndFirst = f.first ∧ w.sndCodes = f.codes ∧
      w.phase = (if none ∈ s.ing.lanes then .inLane else .needLane) ∧ (t.stream f.stream).next = f.seq + 1)

/-- O39. When a lane of a module that is up fails, the module retrains, FAILED_LANE names the lane, and LINK_LANE is
logged with module and lane in DETAIL (R467); how DETAIL holds the two is the model's choice. The training after it
brings the module up at ×8 at most, and FAILED_LANE stands until a training at ×16. A frame that the retrain cuts
before its header is whole counts in DISCARDS of the stream that its first word names (R466). When a training ends
at a width, the module has that width, and the reads in flight on it and the writes of completion entries that
memory has not acknowledged go out again in their order; when it stays down and the other module is up, they go out
there (R468). That a stream is named once the first four bytes of the header have come is the model's reading (log
entry 92). -/
def Obligations.LinkEvents : Prop :=
  (∀ (m lane : Nat) (s : State), s.up = true → m < s.link.length → Quiet s → (s.module m).state ≠ 0 →
    ∃ t e, exec (.linkLane m lane []) s = .next t ∧ OnlyChanges [.ing, .flt, .pwr, .link, .pins, .out] s t ∧ t.ing = s.ing ∧
      t.module m = { s.module m with failedLane := lane, degrade := true, retraining := true } ∧ (∀ k, k ≠ m → t.module k = s.module k) ∧
      t.flt.log.getLast? = some e ∧ e.index = s.flt.logHead ∧ e.event = 0x24 ∧ e.detail = 16 * m + lane) ∧
  (∀ (m lane len st : Nat) (r : Route) (cut : List Byte) (s : State), s.up = true → m < s.link.length → Quiet s → (s.module m).state ≠ 0 →
    tagLength cut = some len → 12 ≤ cut.length → cut.length < 8 + (if frameGen (cut.drop 8) = 1 then 16 else 24) →
    (frameHeader (cut.drop 8)).stream = st → s.tables.route st = some r →
    ∃ t, exec (.linkLane m lane cut) s = .next t ∧ t.ing = (s.addDiscard st).ing ∧
      t.module m = { s.module m with failedLane := lane, degrade := true, retraining := true, cut := min ((s.module m).cut + 1) 65535 }) ∧
  (∀ (m width : Nat) (fast : Bool) (s : State), s.up = true → s.link.length = 2 → m < 2 → Quiet s →
    let l := s.module m
    let o := s.module (1 - m)
    let writes (n : Nat) : List Nat := s.rings.flatMap (fun x => (x.unacked.filter (fun w => w.1 == n)).map Prod.snd)
    let sent (target source : Nat) : List Message := ((s.module source).requests.map (fun a => .memRead target a)) ++
      (writes source).map (fun a => .memWrite target a)
    let moved (target source : Nat) : List Ring := s.rings.map (fun x => { x with
      unacked := x.unacked.map (fun w => if w.1 = source then (target, w.2) else w) })
    let reached := if l.degrade = true ∧ width = 1 then 2 else width
    ∃ t rest, exec (.linkRetrainDone m width fast []) s = .next t ∧ OnlyChanges [.ing, .rings, .pwr, .link, .out] s t ∧ t.ing = s.ing ∧
      (t.module m).state = reached ∧ (t.module m).fast = fast ∧ (t.module m).retraining = false ∧ (t.module m).degrade = false ∧
      (t.module m).failedLane = (if reached = 1 then 0x1F else l.failedLane) ∧
      (l.retraining = true ∨ l.state ≠ 0 → (t.module m).retrains = min (l.retrains + 1) 65535) ∧
      (width ≠ 0 → o.state ≠ 0 ∨ o.retraining = true →
        (t.module m).requests = l.requests ∧ t.module (1 - m) = o ∧ t.rings = s.rings ∧ t.out = s.out ++ sent m m ++ rest) ∧
      (width ≠ 0 → o.state = 0 → o.retraining = false →
        (t.module m).requests = l.requests ++ o.requests ∧ (t.module (1 - m)).requests = [] ∧ t.rings = moved m (1 - m) ∧
        t.out = s.out ++ sent m m ++ sent m (1 - m) ++ rest) ∧
      (width = 0 → o.open = true →
        (t.module m).requests = [] ∧ (t.module (1 - m)).requests = o.requests ++ l.requests ∧ t.rings = moved (1 - m) m ∧
        t.out = s.out ++ sent (1 - m) m ++ rest) ∧
      (width = 0 → o.open = false → (t.module m).requests = l.requests ∧ t.module (1 - m) = o ∧ t.rings = s.rings))

/-- O40. While OPEN is 1 and no boundary holds it, a decoded record takes its join: a cached row, else the row its key's
entry names, else every mapped field missing. Each joined field goes into its target feature unless the payload
supplies that feature; an absent entity joins every mapped field as missing. A key marked LOST, a key that a lost
overflow bucket may hold (R406), and a key whose row cannot be read, which is then marked LOST on its entry, void
the record with VOID_ENTITY (R226). A lookup that finds an index entry of bad parity repeats: an entry that then
agrees is used and counted as a transient error; any other is retired, and its key goes elsewhere (R225). A join
that reads memory waits while no module is up (R468). A run-ahead fetch whose lines are read brings the row of a
record's key into the cache, and supplies no join; one whose lines are not brings and marks nothing (R215, R216). -/
def Obligations.EntityJoins : Prop :=
  (∀ (map : List Code) (row : EntityRow) (kind : Nat → Nat) (w : WindowRecord) (i : Nat),
    (∀ c : Code, (i, c) ∈ (joinFields map row kind w).narrow ↔ (i, c) ∈ w.narrow ∨
      ((∀ p ∈ w.narrow, p.1 ≠ i) ∧ ∃ f, f < 256 ∧ (map.getD f 0xFFFF).toNat = i ∧ i ≠ 0xFFFF ∧ c = sget 0xFFFF row.narrow f)) ∧
    (∀ x : Word32, (i, x) ∈ (joinFields map row kind w).wide ↔ (i, x) ∈ w.wide ∨
      ((∀ p ∈ w.wide, p.1 ≠ i) ∧ ∃ f, f < 8 ∧ (map.getD (256 + f) 0xFFFF).toNat = i ∧ i ≠ 0xFFFF ∧
        x = (row.wide.getD f none).getD (wideDefault (kind i))))) ∧
  (∀ f, f < 256 → sget 0xFFFF EntityRow.missing.narrow f = (0xFFFF : Code)) ∧ (∀ f, f < 8 → EntityRow.missing.wide.getD f none = none) ∧
  (∀ (st : Nat) (sq : Word32) (again : Bool) (ups : List Upset) (w : WindowRecord) (s : State), s.window st sq = some w →
    s.up = false ∨ s.live.entOpen = false ∨ s.heldByBoundary st sq = true ∨ w.phase ≠ .joining ∨ (s.memUp = false ∧ s.joinReads w.key = true) →
    exec (.entityJoin st sq again ups) s = .next s) ∧
  (∀ (st : Nat) (sq : Word32) (again : Bool) (ups : List Upset) (w : WindowRecord) (s : State), s.up = true → s.live.entOpen = true →
    s.heldByBoundary st sq = false → s.window st sq = some w → w.phase = .joining → s.memUp = true ∨ s.joinReads w.key = false →
    let u := s.upsetIndex ups
    let joined (row : EntityRow) : WindowRecord := { joinFields ((s.mapOf w).getD []) row (s.wideKind w) w with phase := .ready }
    let voided : WindowRecord := { w with void := 5, narrow := [], wide := [], phase := .ready }
    let cached := s.ent.cache.find? (fun c => c.key == w.key)
    let found := u.ent.lookup u.live.ovfBits w.key
    let lost : EntityEntry → EntityEntry := fun x => { x with lost := true }
    ∃ t v, exec (.entityJoin st sq again ups) s = .next t ∧ OnlyChanges [.ing, .ent, .flt, .pwr, .pins, .mem, .out] s t ∧
      t.window st sq = some v ∧ v.phase = .ready ∧
      (∀ c, cached = some c → v = joined c.row) ∧
      (cached = none → found = .absent → v = joined EntityRow.missing ∧ t.ent = u.ent) ∧
      (cached = none → found = .lostBucket → v = voided ∧ t.ent = { u.ent with entityVoids := min (s.ent.entityVoids + 1) 65535 }) ∧
      (∀ p x, cached = none → found = .found p x → (∀ i, p = .index i → x.bad = false) → x.lost = false → s.rowReadable x.row = true →
        v = joined (sget EntityRow.missing s.ent.rows x.row)) ∧
      (∀ p x, cached = none → found = .found p x → (∀ i, p = .index i → x.bad = false) → x.lost = true →
        v = voided ∧ t.ent = { u.ent with entityVoids := min (s.ent.entityVoids + 1) 65535 }) ∧
      (∀ p x, cached = none → found = .found p x → (∀ i, p = .index i → x.bad = false) → x.lost = false → s.rowReadable x.row = false →
        v = voided ∧ t.ent.entityVoids = min (s.ent.entityVoids + 1) 65535 ∧
        (∀ i, p = .index i → t.ent.index = sput u.ent.index i (lost x)) ∧
        (∀ j i, p = .overflow j i → t.ent.overflow =
          smod Bucket.empty u.ent.overflow j (fun b => { b with entries := sput b.entries i (lost x) })) ∧
        (p = .stranded → t.ent.stranded = u.ent.stranded.map (fun y => if y.key = w.key then lost y else y))) ∧
      (∀ i x, cached = none → found = .found (.index i) x → x.bad = true → x.lost = false → s.rowReadable x.row = true →
        (again = true → s.worn (indexPart i) = false →
          v = joined (sget EntityRow.missing s.ent.rows x.row) ∧ t.ent.index = sput u.ent.index i { x with bad := false } ∧
          ∃ e, t.flt.log.getLast? = some e ∧ e.index = s.flt.logHead ∧ e.event = 0x08 ∧ e.cls = 1 ∧ e.detail = i) ∧
        (again = false ∨ s.worn (indexPart i) = true → StoresOk s →
          i ∈ t.ent.retired ∧ (∀ y ∈ t.ent.index, y.1 ≠ i) ∧ t.ent.retirements = min (s.ent.retirements + 1) 65535 ∧
          ∃ e, t.flt.log.getLast? = some e ∧ e.index = s.flt.logHead ∧ e.event = 0x08 ∧ e.cls = 2 ∧ e.detail = i))) ∧
  (∀ (st : Nat) (sq : Word32) (decodes : Bool) (w : WindowRecord) (s : State), s.memUp = true → s.live.entOpen = true →
    s.window st sq = some w → w.fetched = false → s.waitsJoin w = true → s.inRunAhead w = true →
    ∃ t, exec (.outriderFetch st sq decodes) s = .next t ∧ OnlyChanges [.ing, .ent] s t ∧
      t.window st sq = some { w with fetched := true } ∧ t.ing = (s.modWindow st sq (fun y => { y with fetched := true })).ing ∧
      (decodes = false ∨ (∃ c ∈ s.ent.cache, c.key = w.key) → t.ent = s.ent) ∧
      (∀ p x, decodes = true → (∀ c ∈ s.ent.cache, c.key ≠ w.key) → s.ent.lookup s.live.ovfBits w.key = .found p x →
        (x.bad = true ∨ x.lost = true ∨ s.rowReadable x.row = false → t.ent = s.ent) ∧
        (x.bad = false → x.lost = false → s.rowReadable x.row = true → s.ent.cache.length < 7680 →
          t.ent = { s.ent with cache := s.ent.cache ++ [⟨w.key, sget EntityRow.missing s.ent.rows x.row⟩] })) ∧
      (decodes = true → s.ent.lookup s.live.ovfBits w.key = .absent →
        t.ent = { s.ent with buckets := t.ent.buckets } ∧ ∀ b ∈ s.absentBuckets w.key, b ∈ t.ent.buckets)) ∧
  (∀ (st : Nat) (sq : Word32) (decodes : Bool) (w : WindowRecord) (s : State), s.window st sq = some w →
    s.memUp = false ∨ s.live.entOpen = false ∨ w.fetched = true ∨ s.waitsJoin w = false ∨ s.inRunAhead w = false →
    exec (.outriderFetch st sq decodes) s = .next s)

/-- O41. The keys of the job are looked up, with the parity checks of their entries (R225). An entity job that breaks a
condition of R219 ends with that status and entry and changes no entry. An eviction that passes waits for its
invalidate step. An update that passes writes each new row, a MASKED one merged with the old row (R218), into a row
place that no entity uses, and touches no index entry, bucket or cached row while it does so (R221). No byte of
memory outside the entity region, its spare pages and their check bytes changes but a refused job's entry. While no
module is up it waits (R468). That the lowest free place is taken is the model's choice (log entry 10). -/
def Obligations.EntityJobStart : Prop :=
  ∀ (id : Nat) (again : Bool) (c : Instr) (op : Nat) (j : Job) (s : State), (c, op) ∈ [(.entityUpdate id again, 3), (.entityEvict id again, 4)] →
    (s.memUp = false → exec c s = .next s) ∧
    (s.memUp = true → Memory.wf s.mem = true → StoresOk s → s.waitingJob id op = some j →
    let es := s.entityEntries j
    let u := s.checkKeys es again
    OnlyChanges [.ent, .flt, .pins, .mem, .out] s u ∧
    ((∀ e ∈ es, ∀ i x, s.ent.lookup s.live.ovfBits e.key = .found (.index i) x → x.bad = false) → u = s) ∧
    (∀ r, u.entityRefusal j es = some r → ∃ t, exec c s = .next t ∧ JobEnds u t j r.1 0 r.2.1 ∧
      OnlySlots (s.live.ring j.ring) [j.entrySlot] u.mem t.mem ∧
      t.ent = { u.ent with job := none, ovfRefused := if r.2.2 then min (u.ent.ovfRefused + 1) 65535 else u.ent.ovfRefused }) ∧
    (u.entityRefusal j es = none → op = 4 → ∃ t, exec c s = .next t ∧ t.mem = u.mem ∧
      t.ent = { u.ent with job := some ⟨id, true, es, [], 1⟩ }) ∧
    (u.entityRefusal j es = none → op = 3 →
      ({ u.ent with job := none } : Entities).usedRows.length + es.length ≤ s.live.entRows + 256 →
      ∃ t rows, exec c s = .next t ∧ t.ent = { u.ent with job := some ⟨id, false, es, rows, 1⟩, rows := t.ent.rows } ∧
        rows.length = es.length ∧ rows.Nodup ∧
        (∀ r ∈ rows, r ∉ ({ u.ent with job := none } : Entities).usedRows ∧ r < s.live.entRows + 256) ∧
        (∀ (i : Nat) (e : UpdateEntry) (r : Nat), es[i]? = some e → rows[i]? = some r →
          sget EntityRow.missing t.ent.rows r = mergeRow e (u.oldRow e.key)) ∧
        (∀ r, r ∉ rows → sget EntityRow.missing t.ent.rows r = sget EntityRow.missing u.ent.rows r) ∧
        ∀ a, OffEntities s a → memByte t.mem a = memByte s.mem a))

/-- O42. When its boundary is reached, an entity job whose rows are written ends with JOB_OK: an update reports its
entries, an eviction the keys it found and, in DETAIL, those it did not (R218, R326). With one entry and no stranded
key: an update of a key in the index points its entry at the new row place and frees the old one, an update of a new
key takes the lowest free index entry (R206), and the new row is cached; an eviction of a key in the index takes out
its entry, its row and its cached copy, and of an absent key changes nothing. A key that a merge leaves LOST is not
cached (R226). Until its boundary is reached, and while no module is up, the job waits (R224, R468). -/
def Obligations.EntityInvalidate : Prop :=
  (∀ (id : Nat) (again : Bool) (e : EntityJob) (j : Job) (s : State), s.memUp = true → Memory.wf s.mem = true →
    s.ent.job = some e → s.job id = some j → e.job = id → e.phase = 1 → s.boundaryReached j = true →
    let u := s.checkKeys e.entries again
    let found := (e.entries.filter (fun x => !u.newKey x)).length
    ∃ t, exec (.entityInvalidate id again) s = .next t ∧ OnlyChanges [.ent, .rings, .jobs, .led, .gait, .flt, .pwr, .pins, .mem, .out] s t ∧
      t.ent.job = none ∧
      JobEnds s t j 0x100 (if e.evict then found else e.entries.length) (if e.evict then e.entries.length - found else 0)) ∧
  (∀ (id : Nat) (again : Bool) (e : EntityJob) (j : Job) (s : State), s.ent.job = some e → s.job id = some j →
    s.memUp = false ∨ e.job ≠ id ∨ e.phase = 0 ∨ s.boundaryReached j = false → exec (.entityInvalidate id again) s = .next s) ∧
  (∀ (id r : Nat) (again : Bool) (u : UpdateEntry) (j : Job) (s t : State), s.memUp = true → StoresOk s →
    s.ent.job = some ⟨id, false, [u], [r], 1⟩ → s.job id = some j → s.boundaryReached j = true → s.ent.stranded = [] →
    (∀ i x, s.ent.lookup s.live.ovfBits u.key = .found (.index i) x → x.bad = false) →
    exec (.entityInvalidate id again) s = .next t →
    (∀ i x, s.ent.lookup s.live.ovfBits u.key = .found (.index i) x →
      t.ent.index = sput s.ent.index i { x with row := r, lost := if u.masked then x.lost else false } ∧
      t.ent.overflow = s.ent.overflow ∧ (x.row ≠ r → sget EntityRow.missing t.ent.rows x.row = EntityRow.missing ∧
        ∀ k, k ≠ x.row → sget EntityRow.missing t.ent.rows k = sget EntityRow.missing s.ent.rows k)) ∧
    (∀ i, s.ent.lookup s.live.ovfBits u.key = .absent → u.place ≠ 1 → s.ent.freeIndex = some i →
      t.ent.index = sput s.ent.index i ⟨u.key, r, false, false⟩ ∧ t.ent.overflow = s.ent.overflow ∧ t.ent.rows = s.ent.rows) ∧
    (∀ p x, s.ent.lookup s.live.ovfBits u.key = .found p x → u.masked = true → x.lost = true →
      t.ent.cache = s.ent.cache.filter (fun c => c.key != u.key)) ∧
    (s.ent.cache.length < 7680 → (∀ p x, s.ent.lookup s.live.ovfBits u.key = .found p x → u.masked = true → x.lost = false) →
      t.ent.cache = s.ent.cache.filter (fun c => c.key != u.key) ++ [⟨u.key, sget EntityRow.missing s.ent.rows r⟩])) ∧
  (∀ (id : Nat) (again : Bool) (u : UpdateEntry) (j : Job) (s t : State), s.memUp = true → StoresOk s →
    s.ent.job = some ⟨id, true, [u], [], 1⟩ → s.job id = some j → s.boundaryReached j = true → s.ent.stranded = [] →
    (∀ i x, s.ent.lookup s.live.ovfBits u.key = .found (.index i) x → x.bad = false) →
    exec (.entityInvalidate id again) s = .next t →
    (∀ i x, s.ent.lookup s.live.ovfBits u.key = .found (.index i) x →
      t.ent.index = sdel s.ent.index i ∧ t.ent.cache = s.ent.cache.filter (fun c => c.key != u.key) ∧
      sget EntityRow.missing t.ent.rows x.row = EntityRow.missing) ∧
    (s.ent.lookup s.live.ovfBits u.key = .absent → t.ent.index = s.ent.index ∧ t.ent.rows = s.ent.rows ∧ t.ent.cache = s.ent.cache))

/-- O43. A patch job is refused with the first of R116's statuses: the lowest entry of bad form, else of another plane,
else whose operation finds no row of its condition, else without a hole, else for want of journal room. A refused
patch leaves every array as it is. One that passes writes its new rows, none of them valid yet, reserves their
places and waits for its boundaries (R117): every valid row stays as it was. While no module is up the job waits
(R468). The DETAIL of PATCH_JOURNAL_FULL is the model's choice (log entry 82). -/
def Obligations.LeafPatch : Prop :=
  (∀ (id : Nat) (s : State), s.memUp = false → exec (.leafPatch id) s = .next s) ∧
  ∀ (id : Nat) (j : Job) (s : State), s.memUp = true → Memory.wf s.mem = true → s.openJob id 5 = some j → j.begun = false →
    let es := s.patchEntries j
    let form (i : Nat) : Prop := ∃ e r, es[i]? = some (e, r) ∧ s.patchFormOk ((es.take i).map Prod.fst) r e = true
    let plane (i : Nat) : Prop := ∃ e r, es[i]? = some (e, r) ∧ s.patchPlaneOk e = true
    let oper (i : Nat) : Prop := ∃ e r, es[i]? = some (e, r) ∧ s.patchOpOk e = true
    let n := es.length
    let refused (status entry : Nat) : Prop := ∃ t, exec (.leafPatch id) s = .next t ∧ t.arr = s.arr ∧ t.grp = s.grp ∧
      JobEnds s t j status 0 entry ∧ OnlySlots (s.live.ring j.ring) [j.entrySlot] s.mem t.mem
    (∀ i, i < n → ¬form i → (∀ k, k < i → form k) → refused 0x280 i) ∧
    (∀ i, i < n → ¬plane i → (∀ k, k < i → plane k) → (∀ k, k < n → form k) → refused 0x281 i) ∧
    (∀ i, i < n → ¬oper i → (∀ k, k < i → oper k) → (∀ k, k < n → form k ∧ plane k) → refused 0x280 i) ∧
    ((∀ k, k < n → form k ∧ plane k ∧ oper k) →
      match s.stageAll 0 (es.map Prod.fst) with
      | .error i => refused 0x282 i
      | .ok (items, _) =>
        if 4096 < s.journalUsed + n then refused 0x283 0
        else ∃ t, exec (.leafPatch id) s = .next t ∧ OnlyChanges [.jobs, .arr] s t ∧
          t.jobs.patches = s.jobs.patches ++ [⟨id, items, (items.map (·.grp)).eraseDups⟩] ∧
          (∀ x ∈ t.jobs.jobs, x.id = id → x.begun = true ∧ x.written = false) ∧
          (∀ phys bank r, r < 1152 → (s.arr.row phys bank r).valid = true → t.arr.row phys bank r = s.arr.row phys bank r) ∧
          (∀ phys bank r, r < 1152 → (t.arr.row phys bank r).valid = true → (s.arr.row phys bank r).valid = true))

/-- O44. When no record of the group is in flight and none of an earlier job of the ring is still to come, the patch's
boundary in the group is taken: the group's generation rises by one and the job's entries for the group are appended
to the journal with it (R119). After its last group the job ends with JOB_OK and its number of entries. The entries
take their visible steps one after the other, each on its position and on the twin of one in Tandem (R424). Of each,
a REPLACE or an INSERT whose reserved row is at its slot's place makes that row valid as R90 forms it, a REPLACE or
a DELETE invalidates the old row, and no other row changes (R114). Until the boundary comes nothing happens. -/
def Obligations.PatchBoundary : Prop :=
  (∀ (id base : Nat) (j : Job) (p : PatchJob) (g : Group) (s : State), s.up = true → Memory.wf s.mem = true → s.openJob id 5 = some j →
    s.jobs.patches.find? (fun q => q.job == id) = some p → s.grp.groups.find? (fun x => x.base == base && p.groups.contains x.gid) = some g →
    s.boundaryDue j g = true →
    let mine := (p.items.filter (fun x => x.grp == g.gid)).filter (fun x => x.copy == 0)
    let added := mine.map (fun x => (⟨g.base, g.gen + 1, x.entry⟩ : JournalEntry))
    ∃ t, exec (.patchBoundary id base) s = .next t ∧ OnlyChanges [.img, .rings, .jobs, .arr, .grp, .led, .gait, .mem, .out] s t ∧
      t.grp = { s.grp with groups := s.grp.groups.map (fun x => if x.gid = g.gid then { x with gen := x.gen + 1 } else x) } ∧
      t.arr = ((s.itemsDue p g).foldl State.visibleStep s).arr ∧
      (g.ended = false → t.img.former = s.img.former ∧
        t.img.live = s.img.live.map (fun x => { x with journal := x.journal ++ added })) ∧
      (g.ended = true → t.img.live = s.img.live ∧
        t.img.former = s.img.former.map (fun x => { x with journal := x.journal ++ added })) ∧
      (∀ a, OffJournals t a → Apart ((s.live.ring j.ring).slotAddr j.entrySlot) 16 a → memByte t.mem a = memByte s.mem a) ∧
      ((∀ n ∈ p.groups, n = g.gid) → JobEnds s t j 0x100 (descPatchEntries j.desc) 0 ∧ (∀ q ∈ t.jobs.patches, q.job ≠ id)) ∧
      ((∃ n ∈ p.groups, n ≠ g.gid) → t.jobs.jobs = s.jobs.jobs)) ∧
  (∀ (p : PatchJob) (g : Group) (s : State),
    (∀ x ∈ p.items, x.grp = g.gid → x ∈ s.itemsDue p g) ∧
    ∀ x ∈ p.items, x.grp = g.gid → x.copy = 0 → (s.groupsAt x.entry.array).any (fun h => h.tandem) = true →
      ∃ y ∈ s.itemsDue p g, y.entry = x.entry ∧ y.copy = 16) ∧
  (∀ (x : PatchItem) (s : State), StoresOk s → x.copy = 0 ∨ (s.groupsAt x.entry.array).any (fun h => h.tandem) = true ∧ x.copy = 16 →
    let e := x.entry
    let k := s.spotOn x.copy e.array e.plane e.slotNo
    let old := (s.arr.rowIn k e.row).map Prod.fst
    let u := s.visibleStep x
    let same (rs : List Nat) : Prop := ∀ phys bank r, (∀ q ∈ rs, rowAt phys bank r ≠ rowAt k.phys k.bank q) →
      u.arr.row phys bank r = s.arr.row phys bank r
    (∀ r, e.op ≠ 3 → x.newRow = some r → x.phys = k.phys → x.bank = k.bank → (s.arr.row k.phys k.bank r).slot.toNat = k.slotPos →
      (s.arr.row k.phys k.bank r).valid = false →
      u.arr.row k.phys k.bank r = s.arr.makeRow e.array e.plane e.slotNo e.key e.care e.payload e.row ∧
      (u.arr.row k.phys k.bank r).valid = true ∧ (∀ o, old = some o → (u.arr.row k.phys k.bank o).valid = false) ∧
      same (r :: old.toList)) ∧
    (e.op = 3 → (∀ o, old = some o → (u.arr.row k.phys k.bank o).valid = false) ∧ same old.toList)) ∧
  (∀ (id base : Nat) (j : Job) (p : PatchJob) (g : Group) (s : State), s.openJob id 5 = some j →
    s.jobs.patches.find? (fun q => q.job == id) = some p → s.grp.groups.find? (fun x => x.base == base && p.groups.contains x.gid) = some g →
    s.boundaryDue j g = false → exec (.patchBoundary id base) s = .next s)

/-- O45. LOAD_HARNESS checks header and segment table. LOAD_FIRST_PASS checks digest, entries, then that every position
of a new group has an idle plane, which LOAD_NO_IDLE denies with the lowest position, then that no resource falls
short, which LOAD_FIT denies; when all pass, a dry run ends with LOAD_OK and any other load goes on to its second
pass. LOAD_SECOND_PASS discards a pending image and reads again: it ends with LOAD_INTERRUPTED where a Remount has
taken a position away, with LOAD_CHANGED or LOAD_DIGEST where the digest differs, with LOAD_FIT where a resource has
come to fall short, with LOAD_READBACK where a cell that it writes fails its read-back, and otherwise writes the
idle planes and makes the image pending with LOAD_OK. However a load ends, the report stands at its address, the job
entry and LAST have the status, and the live image and, where the load fails, every array but the planes of a
discarded pending image stay as they were (R287, R288, R294, R295). While no module is up the steps wait (R468). -/
def Obligations.LoadSteps : Prop :=
  (∀ (id : Nat) (bad : Option (Nat × Nat × Nat × Nat)) (c : Instr) (s : State), s.memUp = false →
    c ∈ [.loadHarness id, .loadFirstPass id, .loadSecondPass id bad] → exec c s = .next s) ∧
  ∀ (id : Nat) (bad : Option (Nat × Nat × Nat × Nat)) (j : Job) (s : State), s.memUp = true → Memory.wf s.mem = true → s.openJob id 6 = some j →
    let ends (t : State) (report : Nat) (f : LoadFail) (build : Nat) (digest records : List Byte) : Prop :=
      t.img.load = none ∧ t.img.last = f.status ∧ JobEnds s t j f.status 0 0 ∧
      (((s.live.ring j.ring).en = true → ∀ i, i < 256 → Apart ((s.live.ring j.ring).slotAddr j.entrySlot) 16 (report + i)) →
        memRead t.mem report 256 = loadReport f build digest records)
    let slot (a : Nat) : Prop := Apart ((s.live.ring j.ring).slotAddr j.entrySlot) 16 a
    (j.begun = false →
      let b := memSlice s.mem (descAddr j.desc) (max (descLength j.desc) 256)
      ∃ t, exec (.loadHarness id) s = .next t ∧ OnlyChanges [.img, .rings, .jobs, .led, .gait, .mem, .out] s t ∧
        t.img.live = s.img.live ∧ t.img.pend = s.img.pend ∧
        (∀ f, s.loadHeaderCheck b (descLength j.desc) = some f → ends t (descReport j.desc) f (reportBuild f b) [] [] ∧
          ∀ a, Apart (descReport j.desc) 256 a → slot a → memByte t.mem a = memByte s.mem a) ∧
        (s.loadHeaderCheck b (descLength j.desc) = none → t.mem = s.mem ∧
          ∃ l, t.img.load = some l ∧ l.job = id ∧ l.stage = 1 ∧ l.image = descAddr j.desc ∧ l.length = descLength j.desc ∧
            l.dry = descDry j.desc ∧ l.report = descReport j.desc)) ∧
    (∀ l, s.img.load = some l → l.job = id → l.stage = 1 →
      let b := s.firstBytes l
      let img := (sourceOf b).held
      let disp := s.dispose img.tables
      let rs := s.fit img disp img.length (sourceOf b).mapped.maskCount
      let records := rs.flatMap resourceBytes
      let busy (p : Nat) : Prop := ∃ g ∈ img.tables.groups, s.keptBy g = none ∧ s.noIdle g = some p
      let fail := s.firstPassFail l b (bodyDigest b)
      ∃ t, exec (.loadFirstPass id) s = .next t ∧ OnlyChanges [.img, .rings, .jobs, .led, .gait, .mem, .out] s t ∧
        t.img.live = s.img.live ∧ t.img.pend = s.img.pend ∧
        (∀ a, Apart l.report 256 a → slot a → memByte t.mem a = memByte s.mem a) ∧
        (∀ f, fail = some f → ends t l.report f (hdrBuild b) (bodyDigest b) []) ∧
        (∀ p, fail = none → busy p → (∀ q, busy q → p ≤ q) →
          ends t l.report { status := 0x307, array := p } (hdrBuild b) (bodyDigest b) records) ∧
        (fail = none → (∀ p, ¬busy p) → (∃ r ∈ rs, r.avail < r.need) → ends t l.report { status := 0x308 } (hdrBuild b) (bodyDigest b) records) ∧
        (fail = none → (∀ p, ¬busy p) → (∀ r ∈ rs, r.need ≤ r.avail) →
          (l.dry = true → ends t l.report { status := 0x300 } (hdrBuild b) (bodyDigest b) records) ∧
          (l.dry = false → t = { s with img := { s.img with
            load := some { l with stage := 2, digest := bodyDigest b, records := records, disp := disp } } }))) ∧
    (∀ l, s.img.load = some l → l.job = id → l.stage = 2 →
      (s.freeTables.img.retiring ≠ [] ∨ (∃ g ∈ s.grp.groups, g.ended = true) → exec (.loadSecondPass id bad) s = .next s) ∧
      (s.freeTables.img.retiring = [] → (∀ g ∈ s.grp.groups, g.ended = false) →
      let b := memSlice s.mem l.image l.length
      let d := bodyDigest b
      let img := (sourceOf b).held
      let u := s.freeTables.dropPending
      let rs := u.fit img l.disp img.length (sourceOf b).mapped.maskCount
      let records := rs.flatMap resourceBytes
      let area := u.live.areaOff (!u.img.second)
      let size := (sourceOf b).mapped.bytes.size
      let written := bad.filter (wroteCell img.tables l.disp)
      let good := l.interrupted = none ∧ d = l.digest ∧ u.digestOk b d = true
      ∃ t, exec (.loadSecondPass id bad) s = .next t ∧ OnlyChanges [.img, .rings, .jobs, .arr, .led, .gait, .mem, .out] s t ∧
        t.img.live = s.img.live ∧ (t.img.last ≠ 0x300 → t.img.pend = none ∧ t.arr = u.arr) ∧
        (∀ a, Apart l.report 256 a → slot a → OffCopy s area size a → OffCopy s (area + journalOff size) 196608 a →
          memByte t.mem a = memByte s.mem a) ∧
        (∀ p, l.interrupted = some p → ends t l.report { status := 0x30B, array := p } (hdrBuild b) l.digest l.records) ∧
        (l.interrupted = none → d ≠ l.digest → ends t l.report { status := 0x309 } (hdrBuild b) l.digest l.records) ∧
        (l.interrupted = none → d = l.digest → u.digestOk b d = false → ends t l.report { status := 0x305 } (hdrBuild b) l.digest l.records) ∧
        (good → (∃ r ∈ rs, r.avail < r.need) → ends t l.report { status := 0x308 } (hdrBuild b) l.digest records) ∧
        (∀ p h sl c, good → (∀ r ∈ rs, r.need ≤ r.avail) → written = some (p, h, sl, c) →
          ends t l.report { status := 0x30A, array := p, half := h, slot := sl, place := c } (hdrBuild b) l.digest records) ∧
        (good → (∀ r ∈ rs, r.need ≤ r.avail) → written = none →
          ends t l.report { status := 0x300 } (hdrBuild b) l.digest records ∧ t.img.pend = some ⟨⟨img, []⟩, l.disp⟩ ∧
          t.arr = ((newGroups img.tables l.disp).foldl (fun v g => v.loadGroup img l.disp g) u).arr)))

/-- O46. A write of GO is a request, ignored and counted in IGNORED while a register request is held or in progress;
DISCARD in the same write acts first (R358). A MOUNT job is a request once every earlier job of its ring has written
its job entry (R336). A request becomes the Mount in progress when there is none, and waits behind the others
otherwise; when a Mount ends the next in order is taken. DISCARD alone makes every shadow the value in effect, and
is ignored while a Mount is in progress (R348). -/
def Obligations.MountRequests : Prop :=
  (∀ (discard : Bool) (s : State), s.up = true →
    let held := s.mnt.active = some .register ∨ .register ∈ s.mnt.waiting
    ∃ t, exec (.mountGo discard) s = .next t ∧ OnlyChanges [.shadow, .mnt, .gait, .out] s t ∧
      (held → t.mnt = { s.mnt with ignored := min (s.mnt.ignored + 1) 65535 }) ∧
      (¬held → s.mnt.active.isSome = true → t.mnt = { s.mnt with waiting := s.mnt.waiting ++ [.register] }) ∧
      (s.mnt.active = none → s.mnt.waiting = [] → t.mnt = { s.mnt with active := some .register, applied := false }) ∧
      t.shadow = (if discard = true ∧ s.mnt.active = none then s.live else s.shadow)) ∧
  (∀ (id : Nat) (j : Job) (s : State), s.up = true → s.openJob id 7 = some j → j.begun = false →
    ((∃ x ∈ s.jobs.jobs, x.ring = j.ring ∧ x.id < j.id ∧ x.written = false) → exec (.mount id) s = .next s) ∧
    ((∀ x ∈ s.jobs.jobs, x.ring = j.ring → x.id < j.id → x.written = true) →
      ∃ t, exec (.mount id) s = .next t ∧ OnlyChanges [.jobs, .mnt] s t ∧
        t.jobs = (s.modJob id (fun x => { x with begun := true })).jobs ∧
        (s.mnt.active.isSome = true → t.mnt = { s.mnt with waiting := s.mnt.waiting ++ [.job id] }) ∧
        (s.mnt.active = none → s.mnt.waiting = [] → t.mnt = { s.mnt with active := some (.job id), applied := false }))) ∧
  (∀ (c : Instr) (s t : State), s.up = true → exec c s = .next t → s.mnt.active.isSome = true →
    c ≠ .engineReset →
    (t.mnt.active = s.mnt.active ∧ s.mnt.waiting <+: t.mnt.waiting) ∨
      (t.mnt.active = s.mnt.waiting.head? ∧ t.mnt.waiting = s.mnt.waiting.tail)) ∧
  (∀ s : State, s.up = true → ∃ t, exec .mountDiscard s = .next t ∧ OnlyChanges [.shadow, .gait, .out] s t ∧
    t.shadow = if s.mnt.active.isSome then s.shadow else s.live)

/-- O47. A Mount that fails reports its first failing check in SFD_MOUNT_FAIL and leaves the values in effect; its job
ends with MOUNT_FAILED, DONE 0 and the code in DETAIL. One that passes and need not wait applies all that is staged,
with the pending image, which becomes live (R351); ABANDON acts where this Mount stages it and a replay is due, and
is then 0 again (R458); the writes that its freeze has held land in the shadows. It completes, with JOB_OK and DONE
1 for its job, once no group still has to switch its plane. -/
def Obligations.MountOutcome : Prop :=
  (∀ (f : MountFail) (s : State), s.up = true → Memory.wf s.mem = true → s.mnt.freezing = true → s.mountFail = some f →
    ∃ t, exec .mountApply s = .next t ∧ t.live = s.live ∧ t.img = s.img ∧ t.arr = s.arr ∧ t.grp = s.grp ∧
      t.shadow = s.mnt.frozen.foldl (fun c w => c.stage w.1 w.2) s.shadow ∧
      t.mnt.frozen = [] ∧ t.mnt.fail = f.word ∧ t.mnt.lastOk = false ∧ t.mnt.failedCnt = min (s.mnt.failedCnt + 1) 65535 ∧
      (∀ id j, s.mnt.active = some (.job id) → s.job id = some j → JobEnds s t j 0x10A 0 f.code)) ∧
  (∀ s : State, s.up = true → s.mnt.freezing = true → s.mountFail = none → s.mountWaits = true → exec .mountApply s = .next s) ∧
  (∀ s : State, s.up = true → s.mnt.freezing = true → s.mountFail = none → s.mountWaits = false →
    ∃ t, exec .mountApply s = .next t ∧
      t.live = (if s.shadow.abandon = true ∧ s.live.abandon = false ∧ s.pwr.replayDue = true then
        { s.shadow with holdCfg := s.shadow.holdCfg &&& 0xFFFF } else s.shadow) ∧
      t.shadow = s.mnt.frozen.foldl (fun c w => c.stage w.1 w.2) t.live ∧ t.mnt.frozen = [] ∧ t.img.pend = none ∧
      (s.img.pend = none → t.img.live = s.img.live) ∧
      (∀ p, s.img.pend = some p → ∃ a, t.img.live = some a ∧ a.image = p.area.image) ∧
      ((∀ g ∈ t.liveGroups, g.switchDue = false) → t.mnt.appliedCnt = min (s.mnt.appliedCnt + 1) 65535 ∧ t.mnt.lastOk = true ∧
        ∀ id x, s.mnt.active = some (.job id) → x ∈ t.jobs.jobs → x.id = id →
          x.written = true ∧ x.status = 0x100 ∧ x.done = 1 ∧ x.detail = 0) ∧
      ((∃ g ∈ t.liveGroups, g.switchDue = true) → t.mnt.active = s.mnt.active ∧ t.mnt.applied = true))

/-- O48. A group whose switch is due, which is not paused, switches at its record boundary (R82): no run, and no Tremolo
record, of it or of a group it replaces stands in the middle, and no attempt is in flight where its Tandem setting
changes. The last switch of a Mount completes it (R352). A group that is now in Tandem loads its twins, whose writes
that fail their read-back are lasting faults of the twin (R424, R427). When no record compared in the planes of an
ended group is uncommitted, every row of those planes in its arrays is free, unless a live group holds the plane
there, and the group is gone (R124, R357). -/
def Obligations.GroupSwitches : Prop :=
  (∀ (base : Nat) (bad : List (Nat × Nat)) (g : Group) (s : State), s.up = true → s.group base = some g → g.switchDue = true → g.paused = false →
    s.atBoundary g = true →
    ∃ t, exec (.groupPlaneSwitch base bad) s = .next t ∧
      OnlyChanges [.img, .acc, .rings, .jobs, .arr, .grp, .tally, .mnt, .led, .gait, .flt, .pins, .mem, .out] s t ∧
      (∀ x ∈ t.grp.groups, x.gid = g.gid → x.switchDue = false) ∧
      (s.tandemSet s.live.twin g.base g.size = false →
        OnlyChanges [.rings, .jobs, .arr, .grp, .mnt, .led, .gait, .mem, .out] s t ∧
        t.grp = { s.grp with groups := s.grp.groups.map (fun x => if x.gid = g.gid then
          { x with switchDue := false, tandem := false } else x) }) ∧
      ((∀ x ∈ t.liveGroups, x.switchDue = false) → s.mnt.active.isSome = true → s.mnt.applied = true →
        t.mnt.appliedCnt = min (s.mnt.appliedCnt + 1) 65535 ∧ t.mnt.lastOk = true ∧
        ∀ id x, s.mnt.active = some (.job id) → x ∈ t.jobs.jobs → x.id = id → x.written = true ∧ x.status = 0x100 ∧ x.done = 1)) ∧
  (∀ (base : Nat) (bad : List (Nat × Nat)) (g : Group) (s : State), s.group base = some g → g.switchDue = false ∨ g.paused = true ∨ s.atBoundary g = false →
    exec (.groupPlaneSwitch base bad) s = .next s) ∧
  (∀ (n : Nat) (g : Group) (s : State), s.up = true → s.groupNo n = some g → g.ended = true → s.groupIdle g = true → g.ready = [] →
    g.paused = false → (∀ p ∈ s.jobs.patches, n ∉ p.groups) →
    ∃ t, exec (.planeEndInvalidate n) s = .next t ∧ OnlyChanges [.img, .arr, .grp, .flt] s t ∧
      t.grp = { s.grp with groups := s.grp.groups.filter (fun x => x.gid != n) } ∧
      ∀ (pos bank r : Nat) (π : Bool), g.base ≤ pos → pos < g.base + g.size → π ∈ g.planes → bank < 16 → r < 1152 →
        (∀ h ∈ s.grp.groups, h.gid ≠ n → π ∈ h.planes → ¬(h.base ≤ pos ∧ pos < h.base + h.size)) →
        (t.arr.row (s.physOf pos) bank r).plane = π → (t.arr.row (s.physOf pos) bank r).valid = false) ∧
  (∀ (n : Nat) (g : Group) (s : State), s.groupNo n = some g → g.ended = false ∨ s.groupIdle g = false →
    exec (.planeEndInvalidate n) s = .next s)

/-- O49. Bit i of a slot word is the bit of cell i, for i from 0 to 63 (R69). An OFF cell yields 0, a NARROW cell
whether the code reaches the threshold, a CAT cell its mask's bit, and a pair of WIDE cells whether the wide word
reaches the threshold of the pair, as real numbers in the order of IEEE 754 (KIND 1), where −0 is 0, or as signed
integers (R60). A missing feature, and for a CAT cell every code from 0x0100 on, yields DEFDIR (R61): 0xFFFF, a NaN
of a binary32 feature (KIND 1), 0x8000_0000 of another. Both bits of a wide pair carry the result of the node (R65). -/
def Obligations.CellsOfASlotWord : Prop :=
  ∀ (x : Sample) (cfg : Nat → BitVec 42),
    let bit (i : Nat) : Bool := (slotWord x cfg).getLsbD i
    (∀ i, i < 64 → cellMode (cfg i) = 0 → bit i = false) ∧
    (∀ i, i < 64 → cellMode (cfg i) = 1 → bit i =
      if x.narrow (cellFeature (cfg i)) = 0xFFFF then cellDefdir (cfg i) else decide (cellThresh (cfg i) ≤ (x.narrow (cellFeature (cfg i))).toNat)) ∧
    (∀ i, i < 64 → cellMode (cfg i) = 3 → bit i =
      if 0x100 ≤ (x.narrow (cellFeature (cfg i))).toNat then cellDefdir (cfg i)
      else (x.mask (cellMask (cfg i))).getLsbD (x.narrow (cellFeature (cfg i))).toNat) ∧
    (∀ j, j < 32 → cellMode (cfg (2 * j)) = 2 → cellMode (cfg (2 * j + 1)) = 2 →
      let f := cellFeature (cfg (2 * j)) % 32
      let thresh : Word32 := BitVec.ofNat 32 (65536 * cellThresh (cfg (2 * j + 1)) + cellThresh (cfg (2 * j)))
      bit (2 * j) = bit (2 * j + 1) ∧
      (x.kind f = 1 → readReal32 (x.wide f) = .nan → bit (2 * j) = cellDefdir (cfg (2 * j))) ∧
      (x.kind f = 1 → ∀ v t : Machine.Dyadic, readReal32 (x.wide f) = .fin v → readReal32 thresh = .fin t →
        bit (2 * j) = decide ((t.m : Rat) * 2 ^ t.e ≤ (v.m : Rat) * 2 ^ v.e)) ∧
      (x.kind f = 1 → ∀ (neg : Bool) (t : Machine.Dyadic), readReal32 (x.wide f) = .inf neg → readReal32 thresh = .fin t → bit (2 * j) = !neg) ∧
      (x.kind f = 1 → ∀ (neg : Bool) (v : Machine.Dyadic), readReal32 (x.wide f) = .fin v → readReal32 thresh = .inf neg → bit (2 * j) = neg) ∧
      (x.kind f = 1 → ∀ n m : Bool, readReal32 (x.wide f) = .inf n → readReal32 thresh = .inf m → bit (2 * j) = (m || !n)) ∧
      (x.kind f ≠ 1 → x.wide f = 0x80000000 → bit (2 * j) = cellDefdir (cfg (2 * j))) ∧
      (x.kind f ≠ 1 → x.wide f ≠ 0x80000000 → bit (2 * j) = decide (thresh.toInt ≤ (x.wide f).toInt))) ∧
    ∀ i, i < 64 → bit i = cellBitOf x cfg i

/-- O50. A group takes its next record, pass, marked record or record of a run: the features are loaded into the local
feature buffers (R17), perturbed in a Tremolo pass (R257), and every used slot of every position that compares
latches its slot word in a new attempt (R69, R78). The job place keeps the generation, the plane and the first
dispatch (R119). Where a check of the comparison fails, there is no attempt: the record is marked, the group pauses,
and the error is queued with the pass that it stopped (R391). A new record of a group in Double begins a run, which
takes every record of its job that is ready and that no patch holds, up to 64 (R298). A record whose buffer entry
fails its CRC, and again at the second read, is voided with VOID_BUFFER; one that passes then is dispatched (R334).
A group in Double whose run has been dispatched whole, with no attempt left in it, switches its plane: from plane A
to B, and from B to A with the run over, or with the next pass of a Tremolo record (R265). -/
def Obligations.RecordDispatch : Prop :=
  (∀ (base id i n : Nat) (again : Bool) (pk : Pick) (g : Group) (j : Job) (h : Head) (p : JobPlace) (m : ModelDef) (s : State), s.up = true →
    StoresOk s → s.dispatcher base = some g → s.pick g = pk →
    (pk = .pass id i n ∨ (pk = .marked id i ∧ n = 0) ∨ (pk = .run id i ∧ n = g.runPass) ∨ (pk = .fresh id i ∧ n = 0 ∧ g.dbl = false)) →
    s.openPlace id i = some (j, h, p) → j.model = some m → h.headBad = false → h.blockBad = false →
    let k := if j.op = 2 then j.k else 0
    let plane := if g.dbl then decide (pk = .run id i) && g.inB else p.plane.getD g.plane
    let x := h.features m (j.op == 2) n
    let s0 := s.loadBuffers g x []
    let words := (s.comparing g).flatMap (fun pos => (s.arr.usedSlots (s.physOf pos) plane).map (fun d =>
      (pos * 256 + d.1, slotWord (s0.sample m (s.physOf pos)) (fun c => (s.arr.cell (s.physOf pos) plane d.1 c).cfg))))
    (∀ q ∈ s.comparing g, s.physOf q < 34 → s0.arr.buffer (s.physOf q) (s0.arr.comparePlace (s.physOf q)) = x) ∧
    ((∀ pos ∈ s.comparing g, s0.compareFault g plane pos = none) → (g.tandem = true → tandemWordFault g words = none) →
      ∃ t a, exec (.recordDispatch base again []) s = .next t ∧ OnlyChanges [.acc, .arr, .grp] s t ∧ t.arr = s0.arr ∧
        t.grp.attempts = s.grp.attempts ++ [a] ∧ t.grp.nextAttempt = s.grp.nextAttempt + 1 ∧
        a.id = s.grp.nextAttempt ∧ a.grp = g.gid ∧ a.job = j.id ∧ a.idx = i ∧ a.pass = n ∧ a.plane = plane ∧ a.words = words ∧
        a.contribs = [] ∧ a.partials = [] ∧ a.nodes = [] ∧ a.tuned = false ∧
        t.grp.groups = s.grp.groups.map (fun x => if x.gid = g.gid then x.taking pk k else x) ∧
        t.acc = (s.modPlace h.stream h.seq j.id (fun q => { q with
          first := q.first.or (some s.grp.nextAttempt)
          gen := if q.dispatched then q.gen else g.gen
          dispatched := true
          grp := g.gid
          plane := some (q.plane.getD plane) })).acc) ∧
    ((∃ pos ∈ s.comparing g, s0.compareFault g plane pos ≠ none) ∨ (g.tandem = true ∧ tandemWordFault g words ≠ none) →
      ∃ t, exec (.recordDispatch base again []) s = .next t ∧ OnlyChanges [.acc, .arr, .grp, .flt] s t ∧
        (∀ x ∈ t.grp.attempts, x ∈ s.grp.attempts ∧ ¬(x.job = j.id ∧ x.idx = i)) ∧
        (∀ x ∈ t.grp.groups, x.gid = g.gid → x.hasMark j.id i = true ∧ x.paused = true) ∧
        (s.recovering g.gid = true → t.flt = s.flt) ∧
        (s.recovering g.gid = false →
          ∃ d, t.flt = { s.flt with queue := s.flt.queue ++ [d] } ∧ d.grp = g.gid ∧ d.work = some ⟨j.id, i, n, plane⟩ ∧
            (∀ e, (s.comparing g).findSome? (s0.compareFault g plane) = some e → d = { e with work := d.work }) ∧
            ((s.comparing g).findSome? (s0.compareFault g plane) = none → d.check = evTandem ∧ some (d.pos, d.slot) = tandemWordFault g words)))) ∧
  (∀ (h : Head) (m : ModelDef) (n f : Nat), (m.tremolo.map (·.feature)).Nodup → sparseOk (0xFFFF : Code) h.narrow = true →
    (h.features m false n).narrow = h.narrow ∧ (∀ b, (h.features m b n).wide = h.wide ∧ (h.features m b n).odd = []) ∧
    sget 0xFFFF (h.features m true n).narrow f = passCode m h.stream h.seq n f (sget 0xFFFF h.narrow f)) ∧
  (∀ (base id i : Nat) (again : Bool) (g : Group) (j : Job) (h : Head) (p : JobPlace) (m : ModelDef) (s : State), s.up = true →
    s.dispatcher base = some g → g.dbl = true → s.pick g = .fresh id i → s.openPlace id i = some (j, h, p) → j.model = some m → j.op = 1 → j.n ≤ j.next →
    h.headBad = false → h.blockBad = false → (∀ y ∈ s.grp.groups, y.gid = g.gid → y = g) →
    (∀ pos ∈ s.comparing g, (s.loadBuffers g (h.features m false 0) []).compareFault g false pos = none) → g.tandem = false →
    ∃ t more, exec (.recordDispatch base again []) s = .next t ∧ OnlyChanges [.acc, .arr, .grp] s t ∧ more.length ≤ 63 ∧
      (∀ y ∈ more, y.1 = id ∧ i < y.2 ∧ y ∈ g.ready) ∧
      ((∀ x ∈ s.jobs.jobs, x.op ≠ opPatch) → s.jobs.patches = [] →
        ∀ y ∈ g.ready, y.1 = id → i < y.2 → (s.openPlace y.1 y.2).isSome = true → y ∈ more ∨ more.length = 63) ∧
      t.grp.attempts.length = s.grp.attempts.length + 1 ∧
      ∀ x ∈ t.grp.groups, x.gid = g.gid → x.run = (id, i) :: more ∧ x.runPos = 1 ∧ x.inB = false ∧ (id, i) ∉ x.ready ∧ ∀ y ∈ more, y ∉ x.ready) ∧
  (∀ (base i : Nat) (again : Bool) (g : Group) (j : Job) (h : Head) (p : JobPlace) (m : ModelDef) (s : State), s.up = true → s.dispatcher base = some g →
    g.dbl = false → s.pick g = .fresh j.id i → s.openPlace j.id i = some (j, h, p) → j.model = some m → h.headBad = true ∨ h.blockBad = true →
    (again = false ∨ s.worn (bufferPart h) = true → h.places = [p] → p.settled = false → p.idx = i → j.indexOf h.stream h.seq = some i →
      ∃ t h' q, exec (.recordDispatch base again []) s = .next t ∧ OnlyChanges (partsOf (.recordDispatch base again [])) s t ∧
        t.placeAt j i = some (h', q) ∧ q.settled = true ∧ q.status = 0x000A ∧ (∀ a ∈ t.grp.attempts, ¬(a.job = j.id ∧ a.idx = i)) ∧
        ∀ x ∈ t.grp.groups, (j.id, i) ∉ x.ready) ∧
    (again = true → s.worn (bufferPart h) = false → (∀ pos ∈ s.comparing g, (s.loadBuffers g (h.features m (j.op == 2) 0) []).compareFault g
        (p.plane.getD g.plane) pos = none) → g.tandem = false →
      ∃ t, exec (.recordDispatch base again []) s = .next t ∧ OnlyChanges [.acc, .arr, .grp, .flt] s t ∧
        t.grp.attempts.length = s.grp.attempts.length + 1 ∧ t.flt.transients = min (s.flt.transients + 1) 65535 ∧ t.flt.log = s.flt.log ∧
        ∀ x ∈ t.acc.heads, x.stream = h.stream → x.seq = h.seq → x.headBad = false ∧ x.blockBad = false)) ∧
  (∀ (base : Nat) (g : Group) (s : State), s.up = true → g ∈ s.grp.groups → g.base = base → g.dbl = true → g.run ≠ [] → g.runPos = g.run.length →
    (∀ a ∈ s.grp.attempts, a.grp ≠ g.gid) → (∀ y ∈ s.grp.groups, y.base = base ∨ y.gid = g.gid → y = g) →
    ∃ t, exec (.doubleRunSwitch base) s = .next t ∧ OnlyChanges [.grp] s t ∧
      ∀ x ∈ t.grp.groups, x.gid = g.gid → x = { g with runPos := 0, inB := !g.inB, run := x.run, tremolo := x.tremolo } ∧
        (g.inB = false → x.run = g.run ∧ x.tremolo = g.tremolo) ∧
        (g.inB = true → g.tremolo = none → x.run = [] ∧ x.tremolo = none) ∧
        (g.inB = true → ∀ tj ti tp jj, g.tremolo = some (tj, ti, tp) → s.job tj = some jj →
          (tp + 1 < jj.k → x.tremolo = some (tj, ti, tp + 1) ∧ x.run = g.run) ∧ (jj.k ≤ tp + 1 → x.tremolo = none ∧ x.run = []))) ∧
  (∀ (base : Nat) (s : State), (∀ g ∈ s.grp.groups, g.base = base → g.dbl = true → g.run ≠ [] → g.runPos = g.run.length →
      ∃ a ∈ s.grp.attempts, a.grp = g.gid) → exec (.doubleRunSwitch base) s = .next s)

/-- O51. A search enables the valid rows of its plane and slot position that pass the pre-filter (R96), retired rows
apart. An enabled row matches where the slot word agrees with KEY on every bit CARE names; longer masks come first,
and then lower row numbers. A PRIORITY slot yields the first match, an ALL slot the first 16, with the overflow flag
when there are more. Each payload yielded is a contribution, or a hand-off for the next link. In Tandem the bank of
the twin searches the same token of its own words (R425): what it yields goes to the twin's own vector, and the
flags and the counters of R501 are the primary's alone (log entry 78). An enabled row that fails its check (R108)
fails the attempt, and the search still counts (R502): the record is marked and its group pauses (R391). -/
def Obligations.BridgeSearch : Prop :=
  (∀ (a : Arrays) (phys bank : Nat) (π : Bool) (p : Nat) (w : Word) (x : Nat × BridgeRow), (a.rows.map Prod.fst).Pairwise (· < ·) →
    (x ∈ a.enabled phys bank π p w ↔ x.1 < 1152 ∧ a.row phys bank x.1 = x.2 ∧ x.2.valid = true ∧ x.2.plane = π ∧ x.2.slot.toNat = p ∧
      (∀ i, i < 2 → x.2.care.getLsbD i = false ∨ x.2.key.getLsbD i = w.getLsbD i) ∧ rowAt phys bank x.1 ∉ a.retiredRows)) ∧
  (∀ (rows : List (Nat × BridgeRow)) (w : Word),
    (matchesOf rows w).Perm (rows.filter (fun x => (w ^^^ x.2.key) &&& x.2.care == 0)) ∧
    (matchesOf rows w).Pairwise (fun x y => y.2.mlen.toNat < x.2.mlen.toNat ∨ (x.2.mlen = y.2.mlen ∧ x.2.rownum ≤ y.2.rownum))) ∧
  (∀ (id pos bank : Nat) (a : Attempt) (m : ModelDef) (s : State), s.up = true → s.attempt id = some a → pos < a.size → s.attemptModel a = some m →
    let p := a.base + pos
    let n := a.tokensOf p bank
    s.inService p = true → a.tokenDue p n = true →
    let arrays := if s.twinned a then [p, p + 16] else [p]
    let rows (q : Nat) : List (Nat × BridgeRow) := match a.target q bank n with
      | none => []
      | some x => s.arr.enabled (s.physOf q) bank a.plane (x.1 % 16) x.2.1
    let ms (q : Nat) : List (Nat × BridgeRow) := match a.target q bank n with
      | none => []
      | some x => matchesOf (rows q) x.2.1
    let all (q : Nat) : Bool := (a.target q bank n).any (fun x => descMatchAll x.2.2)
    let taken (q : Nat) : List Word32 := ((ms q).take (if all q then 16 else 1)).map (fun x => x.2.payload)
    let multi := !all p && decide (1 < (ms p).length)
    let overs := all p && decide (16 < (ms p).length)
    let miss := (a.target p bank n).isSome && (ms p).isEmpty
    let counted (t : State) : Prop :=
      t.grp.multi = (if multi then smod 0 s.grp.multi m.model (fun c => min (c + 1) 4294967295) else s.grp.multi) ∧
      t.grp.overs = (if overs then smod 0 s.grp.overs m.model (fun c => min (c + 1) 4294967295) else s.grp.overs) ∧
      t.grp.miss = (if miss then smod 0 s.grp.miss m.model (fun c => min (c + 1) 4294967295) else s.grp.miss)
    ((∀ q ∈ arrays, ∀ x ∈ rows q, x.2.failedCheck = none) →
      ∃ t, exec (.bridgeSearch id pos bank []) s = .next t ∧ OnlyChanges [.sel, .grp] s t ∧ counted t ∧
        t.attempt id = some { a with
          tokens := sput a.tokens (p * 16 + bank) (n + 1)
          handed := a.handed ++ arrays.flatMap (fun q => ((taken q).filter (fun y => payKind y == 2)).map (fun y => q * 256 + payTarget y))
          contribs := a.contribs ++ arrays.flatMap (fun q => ((taken q).filter (fun y => payKind y != 2)).map (fun y => ⟨q, bank, y⟩))
          multi := a.multi || multi
          overflow := a.overflow || overs
          miss := a.miss || (miss && !m.missVoid)
          missVoid := a.missVoid || (miss && m.missVoid) }) ∧
    ((∃ q ∈ arrays, ∃ x ∈ rows q, x.2.failedCheck ≠ none) →
      ∃ t, exec (.bridgeSearch id pos bank []) s = .next t ∧ OnlyChanges [.sel, .grp, .flt] s t ∧ counted t ∧ Failed t a)) ∧
  (∀ (id pos bank : Nat) (a : Attempt) (s : State), s.attempt id = some a →
    a.size ≤ pos ∨ s.inService (a.base + pos) = false ∨ a.tokenDue (a.base + pos) (a.tokensOf (a.base + pos) bank) = false →
    exec (.bridgeSearch id pos bank []) s = .next s)

/-- O52. The column of a position gives, by element, the exact sum of the terms of its contributions, with its residues
(R127 to R129); a position out of service gives zeros (R412). A Chord node adds its two inputs once both have
arrived, exactly where they lie within ±2^46 (R131). The Tuner's sum of a certified lane is the sum of its partials
by position, as R140 forms it in 128 bits; for a Tremolo pass it adds the totals and their squares to the record's
sums (R261), in Double with the plane-B half (R265). A check of a column, a node, an input of the Tuner or the sum
of one of its tokens that fails on the way fails the attempt (R133, R142, R425). -/
def Obligations.SumsOfARecord : Prop :=
  (∀ (a : Attempt) (m : ModelDef) (e : Nat), e < m.elements → m.certified e = true →
    let partial_ (i : Nat) : Word := (((a.nodeAt 0 i).getD []).getD e ⟨0, 0⟩).value
    (a.certSums m).getD e 0 = ((List.range a.size).map (fun i => (partial_ i).toInt)).sum ∧
    BitVec.ofInt 128 ((a.certSums m).getD e 0) = (List.range a.size).foldl (fun v i => v + (partial_ i).signExtend 128) 0) ∧
  (∀ (id pos : Nat) (a : Attempt) (m : ModelDef) (s : State), s.up = true → s.attempt id = some a → pos < a.size → s.attemptModel a = some m →
    let p := a.base + pos
    s.columnDue a p = true →
    (s.twinFault a m p = none → ∃ t, exec (.accumulationColumn id pos []) s = .next t ∧ OnlyChanges [.grp] s t ∧
      t.attempt id = some { a with partials := a.partials ++ [(p, (List.range m.elements).map (fun e => Partial.of (
        if s.inService p then
          ((((a.contribs.filter (fun c => c.pos == p)).map (fun c => s.arr.term (s.physOf p) a.plane m.model c.payload)).filter
            (fun x => x.1 == e)).map Prod.snd).sum
        else 0)))] }) ∧
    (s.twinFault a m p ≠ none → ∃ t, exec (.accumulationColumn id pos []) s = .next t ∧ OnlyChanges [.grp, .flt] s t ∧ Failed t a)) ∧
  (∀ (id l k : Nat) (a : Attempt) (m : ModelDef) (x y : List Partial) (s : State), s.up = true → s.attempt id = some a → s.attemptModel a = some m →
    1 ≤ l → l ≤ chordLevels a.size → k < a.size / 2 ^ l → a.nodeAt l k = none → a.nodeAt (l - 1) (2 * k) = some x →
    a.nodeAt (l - 1) (2 * k + 1) = some y → x.length = m.elements → y.length = m.elements →
    ((∀ v ∈ x ++ y, v.ok = true ∧ -(2 ^ 46) ≤ v.value.toInt ∧ v.value.toInt < 2 ^ 46) →
      ∃ t v, exec (.chordNode id l k []) s = .next t ∧ OnlyChanges [.sel, .grp] s t ∧
        t.attempt id = some { a with nodes := a.nodes ++ [(l * 32 + k, v)] } ∧ v.length = m.elements ∧
        ∀ e, e < m.elements → (v.getD e ⟨0, 0⟩).ok = true ∧
          (v.getD e ⟨0, 0⟩).value.toInt = if m.standard e then (x.getD e ⟨0, 0⟩).value.toInt + (y.getD e ⟨0, 0⟩).value.toInt else 0) ∧
    (l = 1 → (∃ e, e < m.elements ∧ m.standard e = true ∧ ((x.getD e ⟨0, 0⟩).ok = false ∨ (y.getD e ⟨0, 0⟩).ok = false)) →
      ∃ t, exec (.chordNode id l k []) s = .next t ∧ OnlyChanges [.grp, .flt] s t ∧ Failed t a)) ∧
  (∀ (id : Nat) (a : Attempt) (m : ModelDef) (j : Job) (s : State), s.up = true → s.attempt id = some a → s.attemptModel a = some m →
    s.job a.job = some j → a.tuned = false → a.columnsDone = true → (∀ x ∈ a.partials, a.base ≤ x.1 ∧ x.1 < a.base + a.size) →
    let tremolo := j.op == 2
    let adds (e : Nat) : Bool := m.certified e || (tremolo && a.size == 1)
    let ok : Prop := ∀ i, i < a.size → ∀ v, a.nodeAt 0 i = some v → ∀ e, e < v.length → adds e = true → (v.getD e ⟨0, 0⟩).ok = true
    let b := { a with cert := a.certSums m, tuned := true }
    let g := (s.gatheredOf a).getD (Gathered.fresh a m.elements)
    let last := a.pass + 1 = j.k ∧ (a.dbl = true → a.plane = true)
    (tremolo = false → ok → ∃ t, exec (.tunerAdd id []) s = .next t ∧ OnlyChanges [.grp] s t ∧ t.attempt id = some b) ∧
    (tremolo = false → ¬ok → ∃ t, exec (.tunerAdd id []) s = .next t ∧ OnlyChanges [.grp, .flt] s t ∧ Failed t a) ∧
    (∀ tok e, tremolo = false → tok < (a.size + 3) / 4 → e < m.elements → m.certified e = true →
      ∃ t, exec (.tunerAdd id [.residue 128 tok e]) s = .next t ∧ OnlyChanges [.grp, .flt] s t ∧ Failed t a) ∧
    (tremolo = true → (a.chordRoot).isSome = true → (∀ x ∈ s.grp.attempts, x.job = a.job → x.idx = a.idx → a.id ≤ x.id) →
      (¬ok → ∃ t, exec (.tunerAdd id []) s = .next t ∧ OnlyChanges [.grp, .flt] s t ∧ Failed t a) ∧
      (ok → ∃ t g', exec (.tunerAdd id []) s = .next t ∧ OnlyChanges [.grp] s t ∧ t.gatheredOf a = some g' ∧
        (last → t.attempt id = some b) ∧ (¬last → t.attempt id = none) ∧
        (a.dbl = true → a.plane = false → g'.half = b.totals m ∧ g'.sums = g.sums ∧ g'.squares = g.squares) ∧
        (a.dbl = false ∨ a.plane = true →
          let ts := if a.dbl then List.zipWith (· + ·) g.half (b.totals m) else b.totals m
          g'.sums = List.zipWith (· + ·) g.sums ts ∧ g'.squares = List.zipWith (fun q x => q + x * x) g.squares ts))))

/-- O53. An addition into a standard lane word or a class word stores a true result beyond ±(2^47 − 1) as that bound.
The Tally write of a record adds the total of every lane or class into its words, in a group in Double one write for
each plane (R148), for a Tremolo record its sums and squares after the last pass (R261). A certified or Tremolo
value adds into 128 bits (R141). No other word changes. The write sets its mark, and the last one settles the record
with OK and ends its attempt; where the mark is set already, only words of tiles that a restart has lost are added
to again (R162, R165). A record with a leaf miss under VOID makes no Tally write and is voided (R104). -/
def Obligations.TallyWrite : Prop :=
  (∀ (x : Addend) (owe : List Nat) (k : Kept) (s : State), StoresOk s → (s.tallyWord x.word).flips = 0 →
    let v := ((s.tallyWord x.word).value.setWidth 48).toInt + x.value
    let t := (s.addStandard false owe x k).1
    (2 ^ 47 - 1 < v → t.tallyWord x.word = ⟨0x00007FFFFFFFFFFF, 0⟩) ∧ (v < -(2 ^ 47 - 1) → t.tallyWord x.word = ⟨0xFFFF800000000001, 0⟩) ∧
    (-(2 ^ 47 - 1) ≤ v → v ≤ 2 ^ 47 - 1 → (t.tallyWord x.word).value.toInt = v ∧ (t.tallyWord x.word).flips = 0) ∧
    (t.tallyWord x.word).value.toInt ≠ -(2 ^ 47) ∧ ∀ w, w ≠ x.word → t.tallyWord w = s.tallyWord w) ∧
  (∀ (id : Nat) (a : Attempt) (m : ModelDef) (j : Job) (h : Head) (p : JobPlace) (s : State), s.up = true → StoresOk s → s.attempt id = some a →
    s.attemptModel a = some m → s.openPlace a.job a.idx = some (j, h, p) → a.summed m (j.op == 2) = true → s.earlierTally j = false →
    (a.size = 1 → a.badColumn m.standard [0] = none) →
    let first := 256 * j.tile + a.idx * j.stride
    let tremolo := j.op == 2
    let g0 := (s.gatheredOf a).getD (Gathered.fresh a m.elements)
    let g := if tremolo then g0 else g0.flags a
    let halfA := a.dbl && !a.plane && !tremolo
    let second := a.dbl && !a.refold && !tremolo
    let xs := if tremolo then m.tremoloAddends first g.sums g.squares
      else if a.refold then m.addends first (if halfA then a.totals m else List.zipWith (· + ·) g.half (a.totals m))
      else m.addends first (a.totals m)
    (halfA = false → g.missVoid = false → CleanWords s xs →
      ∃ t h' q, exec (.tallyWrite id []) s = .next t ∧ (p.commit = false → OnlyChanges [.acc, .grp, .tally] s t) ∧ t.attempt id = none ∧
        Added s t (if second then p.markB else p.markA) (if second then p.oweB else p.oweA) xs ∧
        t.placeAt j a.idx = some (h', q) ∧ q.settled = true ∧ (if second then q.markB else q.markA) = true ∧ q.status = 0 ∧
        q.multi = g.multi ∧ q.overflow = g.overflow ∧ q.miss = g.miss) ∧
    (halfA = true → a.refold = false → g.missVoid = false → CleanWords s xs →
      ∃ t h' q g', exec (.tallyWrite id []) s = .next t ∧ OnlyChanges [.acc, .grp, .tally] s t ∧ t.attempt id = none ∧ Added s t p.markA p.oweA xs ∧
        t.placeAt j a.idx = some (h', q) ∧ q.markA = true ∧ q.settled = p.settled ∧ t.gatheredOf a = some g' ∧ g'.half = a.totals m) ∧
    (halfA = true → a.refold = true →
      ∃ t g', exec (.tallyWrite id []) s = .next t ∧ OnlyChanges [.grp] s t ∧ t.attempt id = none ∧ t.gatheredOf a = some g' ∧ g'.half = a.totals m) ∧
    (halfA = false → g.missVoid = true →
      ∃ t h' q, exec (.tallyWrite id []) s = .next t ∧ t.attempt id = none ∧ t.placeAt j a.idx = some (h', q) ∧ q.settled = true ∧ q.status = 6 ∧
        (p.undo = [] → ∀ w, t.tallyWord w = s.tallyWord w)))

/-- O54. A read through SFD_DBG_TALLY gives the selected word (R510). One wrong bit of its 72 is corrected and written
back (R160). Two leave the word as it is stored, with the word named as lost in its tile and in the fault log, once
until a write gives it new bits (R161). A tile that waits for a spare row takes the next of 8 at a moment when it is
not owned, its words corrected where they can be; when none is left it stays in service, and TILE_UNREPAIRED names
it (R421). -/
def Obligations.TallyReads : Prop :=
  (∀ s : State, s.up = true → StoresOk s →
    let w := wfield s.sel.tally 0 18
    let x := s.tallyWord w
    let n := ones 72 x.flips.toNat
    ∃ t, exec .sfdDbgTally s = .next t ∧ OnlyChanges [.sel, .tally, .flt, .pins, .out] s t ∧ t.sel = { s.sel with tallyValue := t.sel.tallyValue, tallyEcc := t.sel.tallyEcc } ∧
      (∀ v, v ≠ w → t.tallyWord v = s.tallyWord v) ∧
      (n = 0 → t.sel.tallyValue = x.value ∧ t.tallyWord w = x ∧ t.flt = s.flt) ∧
      (n = 1 → t.sel.tallyValue = x.value ∧ t.tallyWord w = ⟨x.value, 0⟩ ∧ wbit t.sel.tallyEcc 8 = true ∧ wbit t.sel.tallyEcc 9 = false) ∧
      (n = 2 → t.sel.tallyValue = x.value ^^^ x.flips.setWidth 64 ∧ t.tallyWord w = x ∧ (w ∈ s.tally.told → t.flt = s.flt) ∧
        (w ∉ s.tally.told → w % 256 ∈ (t.tile (w / 256)).lost ∧ t.flt.logHead = s.flt.logHead + 1) ∧
        wbit t.sel.tallyEcc 8 = false ∧ wbit t.sel.tallyEcc 9 = true)) ∧
  (∀ (n : Nat) (s : State), s.up = true → StoresOk s → n ∈ s.tally.sparing → (s.tile n).owner = none →
    ∃ t e, exec (.tileSpared n) s = .next t ∧ OnlyChanges [.tally, .flt, .pins, .out] s t ∧ n ∉ t.tally.sparing ∧
      t.tally.tiles = s.tally.tiles ∧ t.flt.log.getLast? = some e ∧ e.detail = n ∧ e.index = s.flt.logHead ∧
      (s.tally.spared.length < 8 → t.tally.spared = s.tally.spared ++ [n] ∧ e.event = 0x1A ∧
        ∀ w, t.tallyWord w = if w / 256 = n ∧ ones 72 (s.tallyWord w).flips.toNat = 1 then ⟨(s.tallyWord w).value, 0⟩ else s.tallyWord w) ∧
      (8 ≤ s.tally.spared.length → t.tally.spared = s.tally.spared ∧ t.tally.words = s.tally.words ∧ e.event = 0x1D)) ∧
  (∀ (n : Nat) (s : State), n ∉ s.tally.sparing ∨ (s.tile n).owner ≠ none → exec (.tileSpared n) s = .next s)

/-- O55. A recovery waits until the attempts it concerns have ended. The part is rewritten and its work repeated (R388).
Where the repeat passes the check, or fails another, and the part has had fewer than TRANS_LIMIT transient errors,
the error is transient: it is counted and logged, a new failure is queued as an error of its own (R389), and the
group takes records again when no other recovery of it is queued (R394). Where it fails the same check, or the part
has reached TRANS_LIMIT, the error is lasting. A lasting array fault of a position in use remounts the position onto
the lowest spare array, and the old array is retired (R409); an array whose position no group uses is only retired,
and the position is OUT (R420). -/
def Obligations.FaultRecovery : Prop :=
  (∀ (ups : List Upset) (bad : List (Nat × Nat)) (tw : Bool) (s : State), s.flt.queue = [] ∨ (∃ d rest, s.flt.queue = d :: rest ∧ s.recoveryReady d = false) →
    exec (.faultRecovery ups bad tw) s = .next s) ∧
  (∀ (ups : List Upset) (bad : List (Nat × Nat)) (tw : Bool) (d : Detected) (rest : List Detected) (s : State), s.up = true → s.flt.queue = d :: rest →
    s.recoveryReady d = true →
    let r := (s.rewritePart d).retry d ups
    (∀ e, s.worn d.part = false → s.needsLost d = none → r.2 = e → (∀ x, e = some x → ¬(x.check = d.check ∧ x.part = d.part)) →
      ∃ t y, exec (.faultRecovery ups bad tw) s = .next t ∧ OnlyChanges [.sel, .acc, .arr, .grp, .tally, .flt, .pins, .out] s t ∧ t.arr = r.1.arr ∧
        t.flt.queue = rest ++ (e.map (fun x => { x with work := d.work })).toList ∧
        t.flt.transients = min (s.flt.transients + 1) 65535 ∧ t.flt.transOf d.part = s.flt.transOf d.part + 1 ∧
        t.flt.logHead = s.flt.logHead + 1 ∧ t.flt.log.getLast? = some y ∧ y.index = s.flt.logHead ∧ y.event = d.check ∧ y.cls = 1 ∧
        y.rung = 0 ∧ y.detail = d.detail ∧
        (∀ g ∈ t.grp.groups, (∃ x, e = some x ∧ g.gid = x.grp) → g.paused = true) ∧
        (∀ g ∈ t.grp.groups, g.gid = d.grp → (∀ x ∈ t.flt.queue, x.grp ≠ d.grp) → g.paused = false)) ∧
    (s.worn d.part = true ∨ (∃ x, r.2 = some x ∧ x.check = d.check ∧ x.part = d.part) → s.needsLost d = none →
      s.groupsAt (s.primaryOf d.pos) = [] → d.phys < 34 → d.pos < 32 →
      ∃ t e, exec (.faultRecovery ups bad tw) s = .next t ∧ OnlyChanges [.sel, .acc, .arr, .grp, .tally, .flt, .pins, .out] s t ∧ t.flt.queue = rest ∧
        t.flt.lasting = min (s.flt.lasting + 1) 65535 ∧ t.flt.log.getLast? = some e ∧ e.event = d.check ∧ e.cls = 2 ∧
        bitOf t.arr.retired.toNat d.phys = true ∧ t.inService d.pos = false) ∧
    (∀ p ps, s.worn d.part = true ∨ (∃ x, r.2 = some x ∧ x.check = d.check ∧ x.part = d.part) → bad = [] → d.partKind = .array →
      s.groupsAt (s.primaryOf d.pos) ≠ [] → s.flt.lostItems = [] → s.arr.spares = p :: ps → d.pos < 32 → s.arr.map.length = 32 → s.physOf d.pos < 34 →
      ∃ t e, exec (.faultRecovery ups bad tw) s = .next t ∧ OnlyChanges [.sel, .img, .acc, .arr, .grp, .tally, .gait, .flt, .pins, .out] s t ∧
        t.flt.queue = rest ∧
        t.flt.lasting = min (s.flt.lasting + 1) 65535 ∧ t.flt.log.getLast? = some e ∧ e.event = 0x12 ∧ e.cls = 3 ∧ e.rung = 3 ∧
        e.array = d.pos ∧ e.phys = p ∧ e.detail = t.arr.spares.length ∧
        t.physOf d.pos = p ∧ bitOf t.arr.retired.toNat (s.physOf d.pos) = true ∧
        ∀ q, q < 32 → q ≠ d.pos → t.physOf q = s.physOf q)) ∧
  (∀ (d : Detected) (i : Item) (s : State), d.item = some i →
    s.rewritePart d = s.restoreItem d.pos d.phys i ∧
    (d.work = none → ((s.rewritePart d).retry d []).2 = if (s.restoreItem d.pos d.phys i).itemOk d.pos d.phys i then none else some d))

/-- O56. While CURRY_EN is 1 and dispatch is not suspended, an array that is neither retired nor, on a V3-16, fused off
reads the next item of its cycle of 53,248 items: cells of plane A and of plane B, descriptors, masks, rows, scale
entries (R3, R428). CYCLES counts to 2^32 − 1 (R435). A spare array stands for no position (log entry 85). The cycle
goes on at the next item, and from the last to the first. An item that agrees with the harness copy changes nothing
else. One that does not is counted and queued as a detected error, unless one of that part is queued already, and
its group pauses (R393, R429). -/
def Obligations.CurryItem : Prop :=
  (∀ (phys : Nat) (ups : List Upset) (s : State), s.up = true → s.live.curryEn = true → s.suspended = false → phys < 34 →
    bitOf s.arr.retired.toNat phys = false → ¬(s.pkg.variant.active ≤ phys ∧ phys < 32) → s.flt.curry.length = 34 → s.flt.cycles.length = 34 →
    let n := s.flt.curry.getD phys 0
    let s1 := s.disturbAll ups
    let d := s1.curryFault (s.servedBy phys) phys (curryItem n)
    ∃ t, exec (.curryItem phys ups) s = .next t ∧ OnlyChanges [.acc, .arr, .grp, .tally, .flt] s t ∧ t.acc = s1.acc ∧ t.arr = s1.arr ∧ t.tally = s1.tally ∧
      t.flt.curry.getD phys 0 = (if 53247 ≤ n then 0 else n + 1) ∧
      (∀ q, q ≠ phys → t.flt.curry.getD q 0 = s.flt.curry.getD q 0) ∧
      (53247 ≤ n → t.flt.cycles.getD phys 0 = min (s.flt.cycles.getD phys 0 + 1) 4294967295) ∧
      (n < 53247 → t.flt.cycles = s.flt.cycles) ∧
      (s1.itemOk (s.servedBy phys) phys (curryItem n) = true → t.grp = s.grp ∧ t.flt.queue = s.flt.queue ∧ t.flt.mismatches = s.flt.mismatches) ∧
      (s1.itemOk (s.servedBy phys) phys (curryItem n) = false →
        ((∃ x ∈ s.flt.queue, x.part = d.part) → t.flt.queue = s.flt.queue ∧ t.grp = s.grp) ∧
        ((∀ x ∈ s.flt.queue, x.part ≠ d.part) → t.flt.queue = s.flt.queue ++ [d] ∧ t.flt.mismatches = min (s.flt.mismatches + 1) 65535 ∧
          ∀ g ∈ t.grp.groups, g.gid = d.grp → g.paused = true))) ∧
  (∀ (phys : Nat) (ups : List Upset) (s : State), s.live.curryEn = false ∨ s.suspended = true ∨ bitOf s.arr.retired.toNat phys = true ∨
      (s.pkg.variant.active ≤ phys ∧ phys < 32) →
    exec (.curryItem phys ups) s = .next s) ∧
  (∀ (phys : Nat) (s : State), (∀ p, p < 32 → s.physOf p ≠ phys) → s.servedBy phys = phys) ∧
  (∀ (phys p : Nat) (s : State), p < 32 → s.physOf p = phys → s.inService p = true → (∀ q, q < 32 → s.physOf q = phys → s.inService q = true → q = p) →
    s.servedBy phys = p) ∧
  (∀ (π : Bool) (slot c : Nat), slot < 256 → c < 64 → curryItem ((if π then 16384 else 0) + 64 * slot + c) = .cell π slot c) ∧
  (∀ (π : Bool) (slot : Nat), slot < 256 → curryItem (32768 + (if π then 256 else 0) + slot) = .desc π slot) ∧
  (∀ m : Nat, m < 1024 → curryItem (33280 + m) = .mask m) ∧
  (∀ bank r : Nat, bank < 16 → r < 1152 → curryItem (34304 + 1152 * bank + r) = .row bank r) ∧
  (∀ k : Nat, k < 512 → curryItem (52736 + k) = .scale (4 * k))

/-- O57. A line returns on the module that carried its request, while that module is up (R468). A line of plain memory
is taken as it returns. In a protected region a line without an error is taken, and its marks are over; where it is
the second read, the error was transient (R403). A line that CORRECT allows to be corrected is used corrected and
written back with its check bytes (R399, R402), and counted; one corrected at two reads running retires its page
(R404). A line that is uncorrectable at its first read is counted and requested once more, and memory stays as it is
(R403). At the second, its page is retired too, and a line of rows is marked lost; a line of the harness copy with a
mirror waits for the other copy, whose good line rewrites it (R405, R406). -/
def Obligations.MemoryReadReturn : Prop :=
  ∀ (addr : Nat) (line check : List Byte) (s : State), s.up = true → (s.link.getD (s.carrier addr) LinkModule.reset).open = true →
    Memory.wf s.mem = true → line.length = 128 → s.carried addr % 128 = 0 →
    let a := s.carried addr
    let home := s.redirect a
    let r := rsDecode s.live.correct line check
    let holds (t : State) (data : List Byte) : Prop := memRead t.mem home 128 = data
    let worn := s.worn (memPart a) = true
    (∀ t, exec (.memoryReadReturn addr line check) s = .next t → ∀ n, n ≠ s.carrier addr →
      ∀ q ∈ (s.link.getD n LinkModule.reset).requests, q ∈ (t.link.getD n LinkModule.reset).requests) ∧
    (s.regionOf a = .plain → ∃ t, exec (.memoryReadReturn addr line check) s = .next t ∧ OnlyChanges [.link, .mem] s t ∧
      memRead t.mem a 128 = line ∧ ∀ c, Apart a 128 c → memByte t.mem c = memByte s.mem c) ∧
    (s.regionOf a ≠ .plain → r = .clean →
      ∃ t, exec (.memoryReadReturn addr line check) s = .next t ∧ OnlyChanges [.ent, .flt, .link, .pins, .mem, .out] s t ∧
        a ∉ t.flt.retryLines ∧ a ∉ t.flt.lostLines ∧ a ∉ t.flt.correctedLines ∧ t.flt.uncorrectable = s.flt.uncorrectable ∧
        (a ∉ s.flt.retryLines → t.flt.log = s.flt.log) ∧
        (a ∈ s.flt.retryLines → t.flt.transients = min (s.flt.transients + 1) 65535 ∧ ∃ e, t.flt.log.getLast? = some e ∧ e.event = evMemLine ∧ e.cls = 1) ∧
        ((∀ q, s.otherCopy a = some q → q ∉ s.flt.mirrorWaits) → holds t line ∧ t.flt.mirrorReads = s.flt.mirrorReads) ∧
        (∀ q, s.otherCopy a = some q → q ∈ s.flt.mirrorWaits → q ∉ t.flt.mirrorWaits ∧ t.flt.mirrorReads = min (s.flt.mirrorReads + 1) 65535)) ∧
    (∀ data, s.regionOf a ≠ .plain → r = .corrected data →
      ∃ t, exec (.memoryReadReturn addr line check) s = .next t ∧ OnlyChanges [.ent, .flt, .link, .pins, .mem, .out] s t ∧
        t.flt.lineCorrected = min (s.flt.lineCorrected + 1) 65535 ∧ a ∉ t.flt.retryLines ∧
        (a ∉ s.flt.correctedLines → ¬worn → a ∈ t.flt.correctedLines ∧ t.flt.pages = s.flt.pages ∧
          ∀ base size, s.regionBase a = some (base, size) → (∀ q, s.otherCopy a = some q → q ∉ s.flt.mirrorWaits) →
            let at_ := (s.pageHome base size (a / 4096)).2 + 8 * (a % 4096 / 128)
            (∀ i, i < 128 → Apart at_ 8 (home + i)) → holds t data ∧ memRead t.mem at_ 8 = rsCheck data) ∧
        (a ∈ s.flt.correctedLines ∨ worn → a ∉ t.flt.correctedLines ∧ (∀ i, lowestFree s.live.spareCount (s.flt.pages.map Prod.snd) = some i →
          t.flt.pages = s.flt.pages ++ [(a / 4096, i)]) ∧
          (lowestFree s.live.spareCount (s.flt.pages.map Prod.snd) = none → t.flt.pages = s.flt.pages))) ∧
    (s.regionOf a ≠ .plain → r = .uncorrectable → a ∉ s.flt.retryLines → ¬worn →
      ∃ t, exec (.memoryReadReturn addr line check) s = .next t ∧ OnlyChanges [.flt, .link, .out] s t ∧
        t.flt.uncorrectable = min (s.flt.uncorrectable + 1) 65535 ∧ a ∈ t.flt.retryLines ∧ t.flt.log = s.flt.log) ∧
    (s.regionOf a ≠ .plain → r = .uncorrectable → a ∈ s.flt.retryLines ∨ worn →
      ∃ t, exec (.memoryReadReturn addr line check) s = .next t ∧ OnlyChanges (partsOf (.memoryReadReturn addr line check)) s t ∧
        t.flt.uncorrectable = min (s.flt.uncorrectable + 1) 65535 ∧ a ∉ t.flt.retryLines ∧
        (∀ off, s.regionOf a = .entity off → 0x400000 + ovfSize s.live.ovfBits ≤ off →
          a ∈ t.flt.lostLines ∧ ∃ e, t.flt.log.getLast? = some e ∧ e.event = evLineLost) ∧
        (∀ q, s.otherCopy a = some q → q ∉ s.flt.mirrorWaits → a ∈ t.flt.mirrorWaits ∧ t.flt.lostItems = s.flt.lostItems))

/-- O58. A write of ACK is immediate, and one beyond LOG_HEAD is ignored (R433). It changes nothing of the log but the
cursor. SFD_FAULT_N is released when ACK passes every entry that asserts it, and every overwrite counted under bit 7
(R432). -/
def Obligations.FaultAck : Prop :=
  ∀ (v : Word) (s : State), s.up = true →
    let ack : Word32 := BitVec.ofNat 32 (v.toNat % 2 ^ 32)
    let beyond := (ack - s.flt.logHead).toNat
    (0 < beyond → beyond < 2 ^ 31 → exec (.sfdFaultAck v) s = .next s) ∧
    (beyond = 0 ∨ 2 ^ 31 ≤ beyond →
      ∃ t, exec (.sfdFaultAck v) s = .next t ∧ OnlyChanges [.flt, .pins] s t ∧ t.flt.ack = ack ∧ t.flt.log = s.flt.log ∧ t.flt.logHead = s.flt.logHead ∧
        t.flt.queue = s.flt.queue ∧ t.pins = { s.pins with faultN := !t.faultAsserted } ∧
        ((∀ e ∈ s.flt.log, bitOf s.live.faultMask e.mask = true → 2 ^ 31 ≤ (e.index - ack).toNat) →
          (∀ i, s.flt.lostAt = some i → 2 ^ 31 ≤ (i - ack).toNat) → t.pins.faultN = true) ∧
        ((∃ e ∈ s.flt.log, bitOf s.live.faultMask e.mask = true ∧ (e.index - ack).toNat < 2 ^ 31) → t.pins.faultN = false))

/-- O59. A sag stops the work of a running engine, and a warm reset request does the same: the save begins, with its
mark, and no earlier save stands (R441, R447, R459). A sag during a warm save turns it into a sag save (R447); in
reset it changes no more than the levels (log 64). A start that finds a sealed save, not consumed and with its
regions intact, restores it, sets REPLAY_DUE and the saved digest, reports CAUSE 1, or 2 after a warm save, and
consumes it (R445, R455). A start that finds none restores nothing: every ring is disabled, the acceptance buffer is
empty, every tile is zero, and CAUSE tells a corrupt save, a save begun but not sealed, and a clean start apart
(R459). Every start ends with READY and notification 68 (R444), with the pins and the TAP as R438 and R482 have
them. VHOLD below 3.20 V holds acceptance (R439). -/
def Obligations.Starts : Prop :=
  (∀ (src : SagSource) (mv : Nat) (s : State), s.sagTrips src mv = true →
    (s.pwr.phase = .running → ∃ t, exec (.sag src mv) s = .next t ∧ OnlyChanges [.pwr, .bag, .pins] s t ∧
      t.pwr.phase = .saving ∧ t.pwr.warm = false ∧ t.pwr.sagSrc = sagCode src ∧ t.bag = { s.bag with save := none, sealed := false, begun := true } ∧
      (s.tap.selected ≠ tapExtest → t.pins.faultN = true) ∧ t.pins.sagN = (s.pins.sagN && src != .sagN)) ∧
    (s.pwr.phase = .saving → ∃ t, exec (.sag src mv) s = .next t ∧ OnlyChanges [.pwr, .pins] s t ∧
      t.pwr.phase = .saving ∧ t.pwr.warm = false ∧ t.pwr.sagSrc = (if s.pwr.warm then sagCode src else s.pwr.sagSrc)) ∧
    (s.pwr.phase = .inReset → ∃ t, exec (.sag src mv) s = .next t ∧ OnlyChanges [.pwr, .pins] s t ∧
      t.pwr = { s.pwr with vddMv := t.pwr.vddMv, vddmMv := t.pwr.vddmMv, vppMv := t.pwr.vppMv, vddmKept := t.pwr.vddmKept })) ∧
  (∀ s : State, s.pwr.phase = .running → ∃ t, exec .warmRequest s = .next t ∧ OnlyChanges [.pwr, .bag, .pins] s t ∧
    t.pwr.phase = .saving ∧ t.pwr.warm = true ∧ t.bag = { s.bag with save := none, sealed := false, begun := true }) ∧
  (∀ (kept : Bool) (s : State), s.pwr.phase = .inReset →
    exec (.packageWarmReset kept) s = .next { s with pwr := { s.pwr with vddmKept := s.pwr.vddmKept && kept } }) ∧
  (∀ (mv : Nat) (s : State), ∃ t, exec (.vholdLow mv) s = .next t ∧ OnlyChanges [.pwr, .out] s t ∧
    t.pwr = { s.pwr with vholdMv := mv, accHeld := t.pwr.accHeld } ∧ (s.up = true → mv < 3200 → t.pwr.accHeld = true) ∧
    (s.up = true → 3200 ≤ mv → s.ing.window = [] → t.pwr.accHeld = false)) ∧
  (∀ (vdd vddm vpp v : Nat) (ok : Bool) (s : State), s.pwr.phase = .inReset → 500 ≤ vdd → 770 ≤ vddm → 1710 ≤ vpp → 3200 ≤ v →
    ∃ t, exec (.powerOn vdd vddm vpp v ok) s = .next t ∧ OnlyChanges (partsOf (.powerOn vdd vddm vpp v ok)) s t ∧ t.pwr.phase = .running ∧
      t.pwr.vddMv = vdd ∧ t.pwr.vddmMv = vddm ∧ t.pwr.vppMv = vpp ∧ t.pwr.vholdMv = v ∧
      t.bag = { s.bag with consumed := true, begun := false } ∧ t.out = s.out ++ [.ready, .notify 68] ∧ (∀ r, (t.live.ring r).en = false) ∧ t.mem = [] ∧
      t.arr.map = s.arr.map ∧ t.arr.retired = s.arr.retired ∧ t.arr.out = s.arr.out ∧ t.flt.log = s.flt.log ∧ t.grp = Groups.reset ∧
      t.gait = GaitState.reset ∧ t.tap.selected ≠ tapExtest ∧
      t.pins = { s.pins with faultN := !t.faultAsserted, sagN := true, avsClk := false, avsMdata := false, i3cScl := true, i3cSda := true } ∧
      (∀ sv, s.bag.save = some sv → s.bag.sealed = true → s.bag.consumed = false → ok = true →
        let kept := sv.cause == 5 && s.pwr.vddmKept
        t.pwr.replayDue = true ∧ t.pwr.savedDigest = sv.digest ∧ t.pwr.records = sv.heads.length ∧ t.pwr.cause = (if sv.cause = 5 then 2 else 1) ∧
        t.rings = sv.rings ∧ t.ing.streams = sv.streams ∧ t.acc.heads.length = sv.heads.length ∧ t.live.durable = sv.durable ∧
        t.shadow.durable = sv.durable ∧ t.pwr.savedJournal = sv.journal ∧ t.pwr.replayGens = sv.groupGens ∧
        t.pwr.tallyKept = kept ∧
        t.tally.words = (if kept then s.tally.words else sv.words) ∧
        (kept = true → t.jobs = sv.jobs ∧ t.acc.heads = sv.heads ∧ t.tally.tiles = sv.tiles.filter (fun x => x.2 != Tile.reset)) ∧
        (kept = false → t.jobs = { sv.jobs with jobs := sv.jobs.jobs.map (fun j => j.owe sv.durable) } ∧
          ∀ n, n < 1024 → n ∉ sv.durable → n ∈ t.tally.unkept)) ∧
      (s.bag.save = none ∨ s.bag.sealed = false ∨ s.bag.consumed = true ∨ ok = false →
        t.pwr.replayDue = false ∧ t.acc.heads = [] ∧ t.tally.words = [] ∧ t.tally.tiles = [] ∧ t.jobs = Jobs.reset ∧
        t.rings = List.replicate 64 Ring.reset ∧
        t.pwr.cause = (if s.bag.sealed && !s.bag.consumed then 5 else if s.bag.begun then 4 else 0)))

/-- O60. An engine reset ends every job but the scoring jobs, discards the pending image, every staged value and every
attempt, and puts every register at its reset value but those of R442; the gait is Walk, whose voltage is requested
where another was (R362); accepted records and the words of the Tally stay. REPLAY_DUE is set where it finds
accepted records (R455), and the engine announces READY. The replay waits for its gate. It goes on as far as the
groups allow, and REPLAY_DUE is 1 until no record is left to score again (R342). A dispatched record whose group
stands at its generation becomes ready in that group. -/
def Obligations.EngineResetAndReplay : Prop :=
  (∀ s : State, s.up = true → s.jobs.patches = [] →
    ∃ t, exec .engineReset s = .next t ∧ OnlyChanges (partsOf .engineReset) s t ∧ t.up = true ∧ t.pwr.cause = 3 ∧
      t.live = { s.live with
        budget := 0x10000, notify0 := 0, notify1 := 5, ledgerCfg := 0xFFFF
        gait := Staged.reset.gait, gaitWm := Staged.reset.gaitWm, faultCfg := Staged.reset.faultCfg } ∧
      t.shadow = t.live ∧ t.sel = Selects.reset ∧ t.mnt = MountState.reset ∧ t.led = Ledger.reset ∧
      t.gait.requested = 0 ∧ t.gait.avsErr = false ∧ t.gait.changes = 0 ∧ t.gait.retries = 0 ∧ t.gait.ledgerGait = 0 ∧ t.gait.thermal = 0 ∧
      (s.gait.requested ≠ 0 → t.gait.shown = 0 ∧ t.gait.moving = true ∧ .avsWrite 550 ∈ t.out) ∧
      (s.gait.requested = 0 → t.gait.now = s.gait.now ∧ t.gait.moving = s.gait.moving) ∧
      t.img.live = s.img.live ∧ t.img.pend = none ∧ t.img.load = none ∧ t.grp.attempts = [] ∧ t.tally.words = s.tally.words ∧
      t.acc.heads.map (fun h => { h with places := [] }) = s.acc.heads.map (fun h => { h with places := [] }) ∧
      (∀ j ∈ t.jobs.jobs, j.scoring = true ∨ j.written = true) ∧
      t.pwr.replayDue = ((s.pwr.replayDue && s.img.live.isNone) || !s.acc.heads.isEmpty) ∧ .ready ∈ t.out ∧ .notify 68 ∈ t.out) ∧
  (∀ (again : Bool) (s : State), s.pwr.replayDue = false ∨ s.replayGate = false → exec (.replay again) s = .next s) ∧
  (∀ (again : Bool) (s : State), s.up = true → s.pwr.replayDue = true → s.replayGate = true →
    ∃ t, exec (.replay again) s = .next t ∧ OnlyChanges (partsOf (.replay again)) s t ∧ t.pwr.replayDue = !t.replays.isEmpty ∧
      (s.replays = [] → (∀ g ∈ s.grp.groups, s.finalGen g = g.gen) → t.pwr.replayDue = false ∧ t.arr = s.arr ∧ t.grp = s.grp) ∧
      (∀ g j h p, s.grp.groups = [g] → s.replays = [(j, h, p)] → (∀ x ∈ s.jobs.jobs, x.owed = []) → s.inHand j.id p.idx = false →
        p.dispatched = true → p.gen = g.gen → s.fate j h p = .score g →
        t = { s with grp := { s.grp with groups := [{ g with ready := g.ready ++ [(j.id, p.idx)] }] } }) ∧
      (∀ g j h p n, s.grp.groups = [g] → s.replays = [(j, h, p)] → (∀ x ∈ s.jobs.jobs, x.owed = []) → s.inHand j.id p.idx = false →
        s.fate j h p = .void n → h.headBad = false → h.blockBad = false → s.head h.stream h.seq = some h → h.placeOf j.id = some p → j.stream = h.stream → j.seqOf p.idx = h.seq →
        p.settled = false → s.finalGen g = g.gen →
        ∃ h' q, t.placeAt j p.idx = some (h', q) ∧ q.settled = true ∧ q.status = n ∧ t.pwr.replayDue = false))
end

