-- ==== Sys2Proof/Laws/Frame.lean ====
section
/-! SUPPORT. The frame of every operation on the state: the parts it can change. Each lemma carries a comparison with an
    earlier state
over the operation, so that a chain of operations is read off by applying them one after another. -/

-- Each theorem is checked before the next one, which bounds the threads that the compiler takes.
set_option Elab.async false

namespace Sys2Proof.Laws
open Sys2Proof.Machine Sys2Proof.Safety

theorem OnlyChanges.upd {fs : List Part} {s0 u : State} {a1 : Package} {a2 a3 : Staged} {a4 : Selects} {a5 : Images}
    {a6 : Ingest}
    {a7 : Entities} {a8 : Soundboard} {a9 : Acceptance} {a10 : List Ring} {a11 : Jobs} {a12 : Arrays} {a13 : Groups}
        {a14 : Tally}
    {a15 : MountState} {a16 : Ledger} {a17 : GaitState} {a18 : Faults} {a19 : Power} {a20 : Saddlebag}
        {a21 : List LinkModule}
    {a22 : Telemetry} {a23 : Tap} {a24 : Pins} {a25 : List Host.Cell} {a26 : List Message} {a27 : List Instr}
    (e1 : a1 = u.pkg) (h : OnlyChanges fs s0 u) (e2 : a2 = u.live ∨ Part.live ∈ fs) (e3 : a3 = u.shadow ∨ Part.shadow ∈ fs)
    (e4 : a4 = u.sel ∨ Part.sel ∈ fs) (e5 : a5 = u.img ∨ Part.img ∈ fs) (e6 : a6 = u.ing ∨ Part.ing ∈ fs)
        (e7 : a7 = u.ent ∨ Part.ent ∈ fs)
    (e8 : a8 = u.snd ∨ Part.snd ∈ fs) (e9 : a9 = u.acc ∨ Part.acc ∈ fs) (e10 : a10 = u.rings ∨ Part.rings ∈ fs)
    (e11 : a11 = u.jobs ∨ Part.jobs ∈ fs) (e12 : a12 = u.arr ∨ Part.arr ∈ fs) (e13 : a13 = u.grp ∨ Part.grp ∈ fs)
    (e14 : a14 = u.tally ∨ Part.tally ∈ fs) (e15 : a15 = u.mnt ∨ Part.mnt ∈ fs) (e16 : a16 = u.led ∨ Part.led ∈ fs)
    (e17 : a17 = u.gait ∨ Part.gait ∈ fs) (e18 : a18 = u.flt ∨ Part.flt ∈ fs) (e19 : a19 = u.pwr ∨ Part.pwr ∈ fs)
    (e20 : a20 = u.bag ∨ Part.bag ∈ fs) (e21 : a21 = u.link ∨ Part.link ∈ fs) (e22 : a22 = u.tele ∨ Part.tele ∈ fs)
    (e23 : a23 = u.tap ∨ Part.tap ∈ fs) (e24 : a24 = u.pins ∨ Part.pins ∈ fs) (e25 : a25 = u.mem ∨ Part.mem ∈ fs)
    (e26 : a26 = u.out ∨ Part.out ∈ fs) (e27 : a27 = u.pending) :
    OnlyChanges fs s0
        (State.mk a1 a2 a3 a4 a5 a6 a7 a8 a9 a10 a11 a12 a13 a14 a15 a16 a17 a18 a19 a20 a21 a22 a23 a24 a25 a26 a27) := by
  rw [OnlyChanges, ← (h : mask fs u = mask fs s0)]
  simp only [mask, State.mk.injEq]
  refine ⟨?_, ?_, ?_, ?_, ?_, ?_, ?_, ?_, ?_, ?_, ?_, ?_, ?_, ?_, ?_, ?_, ?_, ?_, ?_, ?_, ?_, ?_, ?_, ?_, ?_, ?_, ?_⟩ <;>
    first
    | (subst e1; rfl)
    | (subst e27; rfl)
    | (split
       · rfl
       · simp_all)

theorem OnlyChanges.refl (fs : List Part) (s : State) : OnlyChanges fs s s := rfl
theorem OnlyChanges.trans {fs : List Part} {s t u : State} (h : OnlyChanges fs s t) (k : OnlyChanges fs t u) :
    OnlyChanges fs s u := Eq.trans k h
theorem OnlyChanges.foldl {α : Type} {fs : List Part} {s0 : State} {f : State → α → State} (xs : List α) {s : State}
    (h : OnlyChanges fs s0 s) (hf : ∀ x t, OnlyChanges fs s0 t → OnlyChanges fs s0 (f t x)) : OnlyChanges fs s0
        (xs.foldl f s) := by
  induction xs generalizing s with
  | nil => exact h
  | cons x xs ih => exact ih (hf x s h)
theorem OnlyChanges.foldl' {α : Type} {fs : List Part} {s0 : State} {f : State → State} (xs : List α) {s : State}
    (h : OnlyChanges fs s0 s) (hf : ∀ t, OnlyChanges fs s0 t → OnlyChanges fs s0 (f t)) : OnlyChanges fs s0
        (xs.foldl (fun t _ => f t) s) :=
  OnlyChanges.foldl xs h (fun _ t => hf t)

theorem State.modJob_frame {fs : List Part} {s0 : State} (x1 : Nat) (x2 : Job → Job) (s : State) (h : OnlyChanges fs s0 s)
    (m_jobs : Part.jobs ∈ fs) :
    OnlyChanges fs s0 (State.modJob s x1 x2) := by
  unfold State.modJob
  try dsimp only
  repeat' first
    | with_reducible assumption
    | with_reducible apply OnlyChanges.foldl
    | split
    | (intro)
    | with_reducible apply OnlyChanges.upd
    | with_reducible rfl
    | exact Or.inl rfl
    | (apply Or.inr; with_reducible assumption)

theorem State.modTile_frame {fs : List Part} {s0 : State} (x1 : Nat) (x2 : Tile → Tile) (s : State) (h : OnlyChanges fs s0 s)
    (m_tally : Part.tally ∈ fs) :
    OnlyChanges fs s0 (State.modTile s x1 x2) := by
  unfold State.modTile
  try dsimp only
  repeat' first
    | with_reducible assumption
    | with_reducible apply OnlyChanges.foldl
    | split
    | (intro)
    | with_reducible apply OnlyChanges.upd
    | with_reducible rfl
    | exact Or.inl rfl
    | (apply Or.inr; with_reducible assumption)

theorem State.releaseTiles_frame {fs : List Part} {s0 : State} (x1 : Job) (s : State) (h : OnlyChanges fs s0 s)
    (m_jobs : Part.jobs ∈ fs) (m_tally : Part.tally ∈ fs) :
    OnlyChanges fs s0 (State.releaseTiles s x1) := by
  unfold State.releaseTiles
  try dsimp only
  repeat' first
    | with_reducible assumption
    | with_reducible apply State.modJob_frame
    | with_reducible apply State.modTile_frame
    | with_reducible apply OnlyChanges.foldl
    | split
    | (intro)

theorem State.dropJobs_frame {fs : List Part} {s0 : State} (x1 : Job → Bool) (s : State) (h : OnlyChanges fs s0 s)
    (m_jobs : Part.jobs ∈ fs) (m_tally : Part.tally ∈ fs) :
    OnlyChanges fs s0 (State.dropJobs s x1) := by
  unfold State.dropJobs
  try dsimp only
  repeat' first
    | with_reducible assumption
    | with_reducible apply State.releaseTiles_frame
    | with_reducible apply OnlyChanges.foldl
    | split
    | (intro)
    | with_reducible apply OnlyChanges.upd
    | with_reducible rfl
    | exact Or.inl rfl
    | (apply Or.inr; with_reducible assumption)

theorem State.freeContexts_frame {fs : List Part} {s0 : State}  (s : State) (h : OnlyChanges fs s0 s)
    (m_jobs : Part.jobs ∈ fs) :
    OnlyChanges fs s0 (State.freeContexts s) := by
  unfold State.freeContexts
  try dsimp only
  repeat' first
    | with_reducible assumption
    | with_reducible apply OnlyChanges.foldl
    | split
    | (intro)
    | with_reducible apply OnlyChanges.upd
    | with_reducible rfl
    | exact Or.inl rfl
    | (apply Or.inr; with_reducible assumption)

theorem State.send_frame {fs : List Part} {s0 : State} (x1 : Message) (s : State) (h : OnlyChanges fs s0 s)
    (m_out : Part.out ∈ fs) :
    OnlyChanges fs s0 (State.send s x1) := by
  unfold State.send
  try dsimp only
  repeat' first
    | with_reducible assumption
    | with_reducible apply OnlyChanges.foldl
    | split
    | (intro)
    | with_reducible apply OnlyChanges.upd
    | with_reducible rfl
    | exact Or.inl rfl
    | (apply Or.inr; with_reducible assumption)

theorem State.notifyIf_frame {fs : List Part} {s0 : State} (x1 : Nat) (x2 : Nat) (s : State) (h : OnlyChanges fs s0 s)
    (m_out : Part.out ∈ fs) :
    OnlyChanges fs s0 (State.notifyIf s x1 x2) := by
  unfold State.notifyIf
  try dsimp only
  repeat' first
    | with_reducible assumption
    | with_reducible apply State.send_frame
    | with_reducible apply OnlyChanges.foldl
    | split
    | (intro)

theorem State.refreshHeld_frame {fs : List Part} {s0 : State}  (s : State) (h : OnlyChanges fs s0 s) (m_out : Part.out ∈ fs)
    (m_pwr : Part.pwr ∈ fs) :
    OnlyChanges fs s0 (State.refreshHeld s) := by
  unfold State.refreshHeld
  try dsimp only
  repeat' first
    | with_reducible assumption
    | with_reducible apply State.notifyIf_frame
    | with_reducible apply OnlyChanges.foldl
    | split
    | (intro)
    | with_reducible apply OnlyChanges.upd
    | with_reducible rfl
    | exact Or.inl rfl
    | (apply Or.inr; with_reducible assumption)

theorem State.abandon_frame {fs : List Part} {s0 : State}  (s : State) (h : OnlyChanges fs s0 s) (m_acc : Part.acc ∈ fs)
    (m_grp : Part.grp ∈ fs) (m_ing : Part.ing ∈ fs) (m_jobs : Part.jobs ∈ fs) (m_out : Part.out ∈ fs) (m_pwr : Part.pwr ∈ fs)
    (m_rings : Part.rings ∈ fs) (m_tally : Part.tally ∈ fs) :
    OnlyChanges fs s0 (State.abandon s) := by
  unfold State.abandon
  try dsimp only
  repeat' first
    | with_reducible assumption
    | with_reducible apply State.dropJobs_frame
    | with_reducible apply State.freeContexts_frame
    | with_reducible apply State.refreshHeld_frame
    | with_reducible apply OnlyChanges.foldl
    | split
    | (intro)
    | with_reducible apply OnlyChanges.upd
    | with_reducible rfl
    | exact Or.inl rfl
    | (apply Or.inr; with_reducible assumption)

theorem State.modStream_frame {fs : List Part} {s0 : State} (x1 : Nat) (x2 : Stream → Stream) (s : State)
    (h : OnlyChanges fs s0 s) (m_ing : Part.ing ∈ fs) :
    OnlyChanges fs s0 (State.modStream s x1 x2) := by
  unfold State.modStream
  try dsimp only
  repeat' first
    | with_reducible assumption
    | with_reducible apply OnlyChanges.foldl
    | split
    | (intro)
    | with_reducible apply OnlyChanges.upd
    | with_reducible rfl
    | exact Or.inl rfl
    | (apply Or.inr; with_reducible assumption)

theorem State.accept_frame {fs : List Part} {s0 : State} (x1 : WindowRecord) (x2 : Nat) (x3 : Option Nat) (s : State)
    (h : OnlyChanges fs s0 s) (m_acc : Part.acc ∈ fs) (m_ing : Part.ing ∈ fs) :
    OnlyChanges fs s0 (State.accept s x1 x2 x3) := by
  unfold State.accept
  try dsimp only
  repeat' first
    | with_reducible assumption
    | with_reducible apply State.modStream_frame
    | with_reducible apply OnlyChanges.foldl
    | split
    | (intro)
    | with_reducible apply OnlyChanges.upd
    | with_reducible rfl
    | exact Or.inl rfl
    | (apply Or.inr; with_reducible assumption)

theorem State.write_frame {fs : List Part} {s0 : State} (x1 : Nat) (x2 : List Byte) (s : State) (h : OnlyChanges fs s0 s)
    (m_mem : Part.mem ∈ fs) :
    OnlyChanges fs s0 (State.write s x1 x2) := by
  unfold State.write
  try dsimp only
  repeat' first
    | with_reducible assumption
    | with_reducible apply OnlyChanges.foldl
    | split
    | (intro)
    | with_reducible apply OnlyChanges.upd
    | with_reducible rfl
    | exact Or.inl rfl
    | (apply Or.inr; with_reducible assumption)

theorem State.rereadRow_frame {fs : List Part} {s0 : State} (x1 : Nat) (x2 : List Byte) (s : State) (h : OnlyChanges fs s0 s)
    (m_ent : Part.ent ∈ fs) (m_mem : Part.mem ∈ fs) :
    OnlyChanges fs s0 (State.rereadRow s x1 x2) := by
  have key : ∀ (u : State) (x : Entities), OnlyChanges fs s0 u → OnlyChanges fs s0 { u with ent := x } := by
    intro u x hu
    apply OnlyChanges.upd rfl hu <;> first | exact Or.inl rfl | exact Or.inr m_ent | rfl
  unfold State.rereadRow
  split
  · extract_lets rows r
    split
    · exact h
    · exact key _ _ (State.write_frame _ _ _ h m_mem)
  · exact h

theorem State.pageWrite_frame {fs : List Part} {s0 : State} (x1 : Nat) (x2 : Nat) (x3 : Nat) (x4 : List Byte) (s : State)
    (h : OnlyChanges fs s0 s) (m_mem : Part.mem ∈ fs) :
    OnlyChanges fs s0 (State.pageWrite s x1 x2 x3 x4) := by
  unfold State.pageWrite
  try dsimp only
  repeat' first
    | with_reducible assumption
    | with_reducible apply State.write_frame
    | with_reducible apply OnlyChanges.foldl
    | split
    | (intro)

theorem State.pagesWrite_frame {fs : List Part} {s0 : State} (x1 : Nat) (x2 : Nat) (x3 : Nat) (x4 : Nat) (x5 : List Byte)
    (s : State) (h : OnlyChanges fs s0 s) (m_mem : Part.mem ∈ fs) :
    OnlyChanges fs s0 (State.pagesWrite s x1 x2 x3 x4 x5) := by
  induction x3 generalizing s x4 x5 with
  | zero => exact h
  | succ n ih => exact ih _ _ _ (State.pageWrite_frame _ _ _ _ _ h m_mem)

theorem State.shelterWrite_frame {fs : List Part} {s0 : State} (x1 : Nat) (x2 : Nat) (x3 : Nat) (x4 : List Byte) (s : State)
    (h : OnlyChanges fs s0 s) (m_mem : Part.mem ∈ fs) :
    OnlyChanges fs s0 (State.shelterWrite s x1 x2 x3 x4) := by
  unfold State.shelterWrite
  try dsimp only
  repeat' first
    | with_reducible assumption
    | with_reducible apply State.pagesWrite_frame
    | with_reducible apply OnlyChanges.foldl
    | split
    | (intro)

theorem State.writeBack_frame {fs : List Part} {s0 : State} (x1 : Nat) (x2 : List Byte) (s : State) (h : OnlyChanges fs s0 s)
    (m_mem : Part.mem ∈ fs) :
    OnlyChanges fs s0 (State.writeBack s x1 x2) := by
  unfold State.writeBack
  try dsimp only
  repeat' first
    | with_reducible assumption
    | with_reducible apply State.shelterWrite_frame
    | with_reducible apply OnlyChanges.foldl
    | split
    | (intro)

theorem State.mendCopy_frame {fs : List Part} {s0 : State} (x1 : Nat) (x2 : List Byte) (s : State) (h : OnlyChanges fs s0 s)
    (m_flt : Part.flt ∈ fs) (m_mem : Part.mem ∈ fs) :
    OnlyChanges fs s0 (State.mendCopy s x1 x2) := by
  unfold State.mendCopy
  try dsimp only
  repeat' first
    | with_reducible assumption
    | with_reducible apply State.writeBack_frame
    | with_reducible apply OnlyChanges.foldl
    | split
    | (intro)
    | with_reducible apply OnlyChanges.upd
    | with_reducible rfl
    | exact Or.inl rfl
    | (apply Or.inr; with_reducible assumption)

theorem State.acceptLine_frame {fs : List Part} {s0 : State} (x1 : Nat) (x2 : List Byte) (s : State)
    (h : OnlyChanges fs s0 s) (m_ent : Part.ent ∈ fs) (m_flt : Part.flt ∈ fs) (m_mem : Part.mem ∈ fs) :
    OnlyChanges fs s0 (State.acceptLine s x1 x2) := by
  unfold State.acceptLine
  try dsimp only
  repeat' first
    | with_reducible assumption
    | with_reducible apply State.write_frame
    | with_reducible apply State.rereadRow_frame
    | with_reducible apply State.mendCopy_frame
    | with_reducible apply OnlyChanges.foldl
    | split
    | (intro)
    | with_reducible apply OnlyChanges.upd
    | with_reducible rfl
    | exact Or.inl rfl
    | (apply Or.inr; with_reducible assumption)

theorem State.refreshFault_frame {fs : List Part} {s0 : State}  (s : State) (h : OnlyChanges fs s0 s)
    (m_pins : Part.pins ∈ fs) :
    OnlyChanges fs s0 (State.refreshFault s) := by
  unfold State.refreshFault
  try dsimp only
  repeat' first
    | with_reducible assumption
    | with_reducible apply OnlyChanges.foldl
    | split
    | (intro)
    | with_reducible apply OnlyChanges.upd
    | with_reducible rfl
    | exact Or.inl rfl
    | (apply Or.inr; with_reducible assumption)

theorem State.ackFaults_frame {fs : List Part} {s0 : State} (x1 : Word32) (s : State) (h : OnlyChanges fs s0 s)
    (m_flt : Part.flt ∈ fs) (m_pins : Part.pins ∈ fs) :
    OnlyChanges fs s0 (State.ackFaults s x1) := by
  unfold State.ackFaults
  try dsimp only
  repeat' first
    | with_reducible assumption
    | with_reducible apply State.refreshFault_frame
    | with_reducible apply OnlyChanges.foldl
    | split
    | (intro)
    | with_reducible apply OnlyChanges.upd
    | with_reducible rfl
    | exact Or.inl rfl
    | (apply Or.inr; with_reducible assumption)

theorem State.clearTiles_frame {fs : List Part} {s0 : State} (x1 : Nat) (x2 : Nat) (s : State) (h : OnlyChanges fs s0 s)
    (m_tally : Part.tally ∈ fs) :
    OnlyChanges fs s0 (State.clearTiles s x1 x2) := by
  unfold State.clearTiles
  try dsimp only
  repeat' first
    | with_reducible assumption
    | with_reducible apply State.modTile_frame
    | with_reducible apply OnlyChanges.foldl
    | split
    | (intro)
    | with_reducible apply OnlyChanges.upd
    | with_reducible rfl
    | exact Or.inl rfl
    | (apply Or.inr; with_reducible assumption)

theorem State.acquireTiles_frame {fs : List Part} {s0 : State} (x1 : Job) (s : State) (h : OnlyChanges fs s0 s)
    (m_tally : Part.tally ∈ fs) :
    OnlyChanges fs s0 (State.acquireTiles s x1) := by
  unfold State.acquireTiles
  try dsimp only
  repeat' first
    | with_reducible assumption
    | with_reducible apply State.clearTiles_frame
    | with_reducible apply State.modTile_frame
    | with_reducible apply OnlyChanges.foldl
    | split
    | (intro)

theorem State.addBadGen_frame {fs : List Part} {s0 : State}  (s : State) (h : OnlyChanges fs s0 s) (m_ing : Part.ing ∈ fs) :
    OnlyChanges fs s0 (State.addBadGen s) := by
  unfold State.addBadGen
  try dsimp only
  repeat' first
    | with_reducible assumption
    | with_reducible apply OnlyChanges.foldl
    | split
    | (intro)
    | with_reducible apply OnlyChanges.upd
    | with_reducible rfl
    | exact Or.inl rfl
    | (apply Or.inr; with_reducible assumption)

theorem State.addDiscard_frame {fs : List Part} {s0 : State} (x1 : Nat) (s : State) (h : OnlyChanges fs s0 s)
    (m_ing : Part.ing ∈ fs) :
    OnlyChanges fs s0 (State.addDiscard s x1) := by
  unfold State.addDiscard
  try dsimp only
  repeat' first
    | with_reducible assumption
    | with_reducible apply State.modStream_frame
    | with_reducible apply OnlyChanges.foldl
    | split
    | (intro)

theorem State.addHdrErr_frame {fs : List Part} {s0 : State}  (s : State) (h : OnlyChanges fs s0 s) (m_ing : Part.ing ∈ fs) :
    OnlyChanges fs s0 (State.addHdrErr s) := by
  unfold State.addHdrErr
  try dsimp only
  repeat' first
    | with_reducible assumption
    | with_reducible apply OnlyChanges.foldl
    | split
    | (intro)
    | with_reducible apply OnlyChanges.upd
    | with_reducible rfl
    | exact Or.inl rfl
    | (apply Or.inr; with_reducible assumption)

theorem State.addUnrouted_frame {fs : List Part} {s0 : State}  (s : State) (h : OnlyChanges fs s0 s) (m_ing : Part.ing ∈ fs)
    :
    OnlyChanges fs s0 (State.addUnrouted s) := by
  unfold State.addUnrouted
  try dsimp only
  repeat' first
    | with_reducible assumption
    | with_reducible apply OnlyChanges.foldl
    | split
    | (intro)
    | with_reducible apply OnlyChanges.upd
    | with_reducible rfl
    | exact Or.inl rfl
    | (apply Or.inr; with_reducible assumption)

theorem State.modGroup_frame {fs : List Part} {s0 : State} (x1 : Nat) (x2 : Group → Group) (s : State)
    (h : OnlyChanges fs s0 s) (m_grp : Part.grp ∈ fs) :
    OnlyChanges fs s0 (State.modGroup s x1 x2) := by
  unfold State.modGroup
  try dsimp only
  repeat' first
    | with_reducible assumption
    | with_reducible apply OnlyChanges.foldl
    | split
    | (intro)
    | with_reducible apply OnlyChanges.upd
    | with_reducible rfl
    | exact Or.inl rfl
    | (apply Or.inr; with_reducible assumption)

theorem State.fillPosition_frame {fs : List Part} {s0 : State} (x1 : Nat) (x2 : Nat) (x3 : Group → Nat) (s : State)
    (h : OnlyChanges fs s0 s) (m_arr : Part.arr ∈ fs) :
    OnlyChanges fs s0 (State.fillPosition s x1 x2 x3) := by
  unfold State.fillPosition
  try dsimp only
  repeat' first
    | with_reducible assumption
    | with_reducible apply OnlyChanges.foldl
    | split
    | (intro)
    | with_reducible apply OnlyChanges.upd
    | with_reducible rfl
    | exact Or.inl rfl
    | (apply Or.inr; with_reducible assumption)

theorem State.refill_frame {fs : List Part} {s0 : State} (x1 : Group) (x2 : Nat) (s : State) (h : OnlyChanges fs s0 s)
    (m_arr : Part.arr ∈ fs) (m_grp : Part.grp ∈ fs) :
    OnlyChanges fs s0 (State.refill s x1 x2) := by
  unfold State.refill
  try dsimp only
  repeat' first
    | with_reducible assumption
    | with_reducible apply State.modGroup_frame
    | with_reducible apply State.fillPosition_frame
    | with_reducible apply OnlyChanges.foldl
    | split
    | (intro)

theorem State.advanceGen_frame {fs : List Part} {s0 : State} (x1 : Nat) (s : State) (h : OnlyChanges fs s0 s)
    (m_arr : Part.arr ∈ fs) (m_grp : Part.grp ∈ fs) :
    OnlyChanges fs s0 (State.advanceGen s x1) := by
  unfold State.advanceGen
  try dsimp only
  repeat' first
    | with_reducible assumption
    | with_reducible apply State.refill_frame
    | with_reducible apply OnlyChanges.foldl
    | split
    | (intro)

theorem State.advanceGens_frame {fs : List Part} {s0 : State}  (s : State) (h : OnlyChanges fs s0 s) (m_arr : Part.arr ∈ fs)
    (m_grp : Part.grp ∈ fs) :
    OnlyChanges fs s0 (State.advanceGens s) := by
  unfold State.advanceGens
  try dsimp only
  repeat' first
    | with_reducible assumption
    | with_reducible apply State.advanceGen_frame
    | with_reducible apply OnlyChanges.foldl
    | split
    | (intro)

theorem State.advanceRelease_frame {fs : List Part} {s0 : State} (x1 : Nat) (x2 : Nat) (s : State) (h : OnlyChanges fs s0 s)
    (m_acc : Part.acc ∈ fs) (m_ing : Part.ing ∈ fs) :
    OnlyChanges fs s0 (State.advanceRelease s x1 x2) := by
  induction x2 generalizing s with
  | zero => exact h
  | succ n ih =>
    unfold State.advanceRelease
    try dsimp only
    repeat' first
      | with_reducible assumption
      | with_reducible apply ih
      | with_reducible apply State.modStream_frame
      | with_reducible apply OnlyChanges.foldl
      | split
      | (intro)
      | with_reducible apply OnlyChanges.upd
      | with_reducible rfl
      | exact Or.inl rfl
      | (apply Or.inr; with_reducible assumption)

theorem State.modRing_frame {fs : List Part} {s0 : State} (x1 : Nat) (x2 : Ring → Ring) (s : State) (h : OnlyChanges fs s0 s)
    (m_rings : Part.rings ∈ fs) :
    OnlyChanges fs s0 (State.modRing s x1 x2) := by
  unfold State.modRing
  try dsimp only
  repeat' first
    | with_reducible assumption
    | with_reducible apply OnlyChanges.foldl
    | split
    | (intro)
    | with_reducible apply OnlyChanges.upd
    | with_reducible rfl
    | exact Or.inl rfl
    | (apply Or.inr; with_reducible assumption)

theorem State.announceRing_frame {fs : List Part} {s0 : State} (x1 : Nat) (s : State) (h : OnlyChanges fs s0 s)
    (m_out : Part.out ∈ fs) (m_rings : Part.rings ∈ fs) :
    OnlyChanges fs s0 (State.announceRing s x1) := by
  unfold State.announceRing
  try dsimp only
  repeat' first
    | with_reducible assumption
    | with_reducible apply State.send_frame
    | with_reducible apply State.modRing_frame
    | with_reducible apply OnlyChanges.foldl
    | split
    | (intro)

theorem State.announceStart_frame {fs : List Part} {s0 : State}  (s : State) (h : OnlyChanges fs s0 s)
    (m_out : Part.out ∈ fs) (m_pins : Part.pins ∈ fs) (m_pwr : Part.pwr ∈ fs) :
    OnlyChanges fs s0 (State.announceStart s) := by
  unfold State.announceStart
  try dsimp only
  repeat' first
    | with_reducible assumption
    | with_reducible apply State.send_frame
    | with_reducible apply State.refreshHeld_frame
    | with_reducible apply State.refreshFault_frame
    | with_reducible apply OnlyChanges.foldl
    | split
    | (intro)

theorem State.copyWrite_frame {fs : List Part} {s0 : State} (x1 : Nat) (x2 : List Byte) (s : State) (h : OnlyChanges fs s0 s)
    (m_mem : Part.mem ∈ fs) :
    OnlyChanges fs s0 (State.copyWrite s x1 x2) := by
  unfold State.copyWrite
  try dsimp only
  repeat' first
    | with_reducible assumption
    | with_reducible apply State.shelterWrite_frame
    | with_reducible apply OnlyChanges.foldl
    | split
    | (intro)

theorem State.copyJournal_frame {fs : List Part} {s0 : State} (x1 : Bool) (x2 : Nat) (x3 : Nat) (x4 : List JournalEntry)
    (s : State) (h : OnlyChanges fs s0 s) (m_mem : Part.mem ∈ fs) :
    OnlyChanges fs s0 (State.copyJournal s x1 x2 x3 x4) := by
  unfold State.copyJournal
  try dsimp only
  repeat' first
    | with_reducible assumption
    | with_reducible apply State.copyWrite_frame
    | with_reducible apply OnlyChanges.foldl
    | split
    | (intro)

theorem State.appendJournal_frame {fs : List Part} {s0 : State} (x1 : Group) (x2 : List JournalEntry) (s : State)
    (h : OnlyChanges fs s0 s) (m_img : Part.img ∈ fs) (m_mem : Part.mem ∈ fs) :
    OnlyChanges fs s0 (State.appendJournal s x1 x2) := by
  unfold State.appendJournal
  try dsimp only
  repeat' first
    | with_reducible assumption
    | with_reducible apply State.copyJournal_frame
    | with_reducible apply OnlyChanges.foldl
    | split
    | (intro)
    | with_reducible apply OnlyChanges.upd
    | with_reducible rfl
    | exact Or.inl rfl
    | (apply Or.inr; with_reducible assumption)

theorem State.dropCached_frame {fs : List Part} {s0 : State} (x1 : Word) (s : State) (h : OnlyChanges fs s0 s)
    (m_ent : Part.ent ∈ fs) :
    OnlyChanges fs s0 (State.dropCached s x1) := by
  unfold State.dropCached
  try dsimp only
  repeat' first
    | with_reducible assumption
    | with_reducible apply OnlyChanges.foldl
    | split
    | (intro)
    | with_reducible apply OnlyChanges.upd
    | with_reducible rfl
    | exact Or.inl rfl
    | (apply Or.inr; with_reducible assumption)

theorem State.entWrite_frame {fs : List Part} {s0 : State} (x1 : Nat) (x2 : List Byte) (s : State) (h : OnlyChanges fs s0 s)
    (m_flt : Part.flt ∈ fs) (m_mem : Part.mem ∈ fs) :
    OnlyChanges fs s0 (State.entWrite s x1 x2) := by
  unfold State.entWrite
  try dsimp only
  repeat' first
    | with_reducible assumption
    | with_reducible apply State.shelterWrite_frame
    | with_reducible apply OnlyChanges.foldl
    | split
    | (intro)
    | with_reducible apply OnlyChanges.upd
    | with_reducible rfl
    | exact Or.inl rfl
    | (apply Or.inr; with_reducible assumption)

theorem State.writeFreeBit_frame {fs : List Part} {s0 : State} (x1 : Nat) (x2 : Bool) (s : State) (h : OnlyChanges fs s0 s)
    (m_flt : Part.flt ∈ fs) (m_mem : Part.mem ∈ fs) :
    OnlyChanges fs s0 (State.writeFreeBit s x1 x2) := by
  unfold State.writeFreeBit
  try dsimp only
  repeat' first
    | with_reducible assumption
    | with_reducible apply State.entWrite_frame
    | with_reducible apply OnlyChanges.foldl
    | split
    | (intro)

theorem State.writeMirror_frame {fs : List Part} {s0 : State} (x1 : Nat) (s : State) (h : OnlyChanges fs s0 s)
    (m_flt : Part.flt ∈ fs) (m_mem : Part.mem ∈ fs) :
    OnlyChanges fs s0 (State.writeMirror s x1) := by
  unfold State.writeMirror
  try dsimp only
  repeat' first
    | with_reducible assumption
    | with_reducible apply State.entWrite_frame
    | with_reducible apply OnlyChanges.foldl
    | split
    | (intro)

theorem State.writeBucket_frame {fs : List Part} {s0 : State} (x1 : Nat) (s : State) (h : OnlyChanges fs s0 s)
    (m_ent : Part.ent ∈ fs) (m_flt : Part.flt ∈ fs) (m_mem : Part.mem ∈ fs) :
    OnlyChanges fs s0 (State.writeBucket s x1) := by
  unfold State.writeBucket
  try dsimp only
  repeat' first
    | with_reducible assumption
    | with_reducible apply State.entWrite_frame
    | with_reducible apply OnlyChanges.foldl
    | split
    | (intro)
    | with_reducible apply OnlyChanges.upd
    | with_reducible rfl
    | exact Or.inl rfl
    | (apply Or.inr; with_reducible assumption)

theorem State.writeKey_frame {fs : List Part} {s0 : State} (x1 : Entities) (x2 : Word) (s : State) (h : OnlyChanges fs s0 s)
    (m_ent : Part.ent ∈ fs) (m_flt : Part.flt ∈ fs) (m_mem : Part.mem ∈ fs) :
    OnlyChanges fs s0 (State.writeKey s x1 x2) := by
  unfold State.writeKey
  try dsimp only
  repeat' first
    | with_reducible assumption
    | with_reducible apply State.writeMirror_frame
    | with_reducible apply State.writeBucket_frame
    | with_reducible apply OnlyChanges.foldl
    | split
    | (intro)

theorem State.applyEvict_frame {fs : List Part} {s0 : State} (x1 : UpdateEntry) (s : State) (h : OnlyChanges fs s0 s)
    (m_ent : Part.ent ∈ fs) (m_flt : Part.flt ∈ fs) (m_mem : Part.mem ∈ fs) :
    OnlyChanges fs s0 (State.applyEvict s x1) := by
  unfold State.applyEvict
  try dsimp only
  repeat' first
    | with_reducible assumption
    | with_reducible apply State.dropCached_frame
    | with_reducible apply State.writeFreeBit_frame
    | with_reducible apply State.writeKey_frame
    | with_reducible apply OnlyChanges.foldl
    | split
    | (intro)
    | with_reducible apply OnlyChanges.upd
    | with_reducible rfl
    | exact Or.inl rfl
    | (apply Or.inr; with_reducible assumption)

theorem State.modPair_frame {fs : List Part} {s0 : State} (x1 : Nat) (x2 : Pair → Pair) (s : State) (h : OnlyChanges fs s0 s)
    (m_ing : Part.ing ∈ fs) :
    OnlyChanges fs s0 (State.modPair s x1 x2) := by
  unfold State.modPair
  try dsimp only
  repeat' first
    | with_reducible assumption
    | with_reducible apply OnlyChanges.foldl
    | split
    | (intro)
    | with_reducible apply OnlyChanges.upd
    | with_reducible rfl
    | exact Or.inl rfl
    | (apply Or.inr; with_reducible assumption)

theorem State.unroute_frame {fs : List Part} {s0 : State} (x1 : Route) (s : State) (h : OnlyChanges fs s0 s)
    (m_ing : Part.ing ∈ fs) (m_jobs : Part.jobs ∈ fs) :
    OnlyChanges fs s0 (State.unroute s x1) := by
  unfold State.unroute
  try dsimp only
  repeat' first
    | with_reducible assumption
    | with_reducible apply State.modStream_frame
    | with_reducible apply State.modPair_frame
    | with_reducible apply OnlyChanges.foldl
    | split
    | (intro)
    | with_reducible apply OnlyChanges.upd
    | with_reducible rfl
    | exact Or.inl rfl
    | (apply Or.inr; with_reducible assumption)

theorem State.leavePair_frame {fs : List Part} {s0 : State} (x1 : Route) (s : State) (h : OnlyChanges fs s0 s)
    (m_ing : Part.ing ∈ fs) :
    OnlyChanges fs s0 (State.leavePair s x1) := by
  unfold State.leavePair
  try dsimp only
  repeat' first
    | with_reducible assumption
    | with_reducible apply State.modStream_frame
    | with_reducible apply OnlyChanges.foldl
    | split
    | (intro)

theorem State.routePair_frame {fs : List Part} {s0 : State} (x1 : Tables) (x2 : Route) (s : State) (h : OnlyChanges fs s0 s)
    (m_ing : Part.ing ∈ fs) :
    OnlyChanges fs s0 (State.routePair s x1 x2) := by
  unfold State.routePair
  try dsimp only
  repeat' first
    | with_reducible assumption
    | with_reducible apply State.modStream_frame
    | with_reducible apply State.modPair_frame
    | with_reducible apply OnlyChanges.foldl
    | split
    | (intro)

theorem State.mountStreams_frame {fs : List Part} {s0 : State} (x1 : Tables) (x2 : List Route) (s : State)
    (h : OnlyChanges fs s0 s) (m_ing : Part.ing ∈ fs) (m_jobs : Part.jobs ∈ fs) :
    OnlyChanges fs s0 (State.mountStreams s x1 x2) := by
  unfold State.mountStreams
  try dsimp only
  repeat' first
    | with_reducible assumption
    | with_reducible apply State.unroute_frame
    | with_reducible apply State.leavePair_frame
    | with_reducible apply State.routePair_frame
    | with_reducible apply OnlyChanges.foldl
    | split
    | (intro)

theorem State.modHead_frame {fs : List Part} {s0 : State} (x1 : Nat) (x2 : Word32) (x3 : Head → Head) (s : State)
    (h : OnlyChanges fs s0 s) (m_acc : Part.acc ∈ fs) :
    OnlyChanges fs s0 (State.modHead s x1 x2 x3) := by
  unfold State.modHead
  try dsimp only
  repeat' first
    | with_reducible assumption
    | with_reducible apply OnlyChanges.foldl
    | split
    | (intro)
    | with_reducible apply OnlyChanges.upd
    | with_reducible rfl
    | exact Or.inl rfl
    | (apply Or.inr; with_reducible assumption)

theorem State.ensurePlace_frame {fs : List Part} {s0 : State} (x1 : Job) (x2 : Nat) (s : State) (h : OnlyChanges fs s0 s)
    (m_acc : Part.acc ∈ fs) :
    OnlyChanges fs s0 (State.ensurePlace s x1 x2) := by
  unfold State.ensurePlace
  try dsimp only
  repeat' first
    | with_reducible assumption
    | with_reducible apply State.modHead_frame
    | with_reducible apply OnlyChanges.foldl
    | split
    | (intro)

theorem State.countVoided_frame {fs : List Part} {s0 : State} (x1 : Job) (x2 : Nat) (x3 : Bool) (x4 : List Nat) (s : State)
    (h : OnlyChanges fs s0 s) (m_tally : Part.tally ∈ fs) :
    OnlyChanges fs s0 (State.countVoided s x1 x2 x3 x4) := by
  unfold State.countVoided
  try dsimp only
  repeat' first
    | with_reducible assumption
    | with_reducible apply State.modTile_frame
    | with_reducible apply OnlyChanges.foldl
    | split
    | (intro)

theorem State.modPlace_frame {fs : List Part} {s0 : State} (x1 : Nat) (x2 : Word32) (x3 : Nat) (x4 : JobPlace → JobPlace)
    (s : State) (h : OnlyChanges fs s0 s) (m_acc : Part.acc ∈ fs) :
    OnlyChanges fs s0 (State.modPlace s x1 x2 x3 x4) := by
  unfold State.modPlace
  try dsimp only
  repeat' first
    | with_reducible assumption
    | with_reducible apply State.modHead_frame
    | with_reducible apply OnlyChanges.foldl
    | split
    | (intro)

theorem State.undoWrite_frame {fs : List Part} {s0 : State} (x1 : Job) (x2 : Nat) (x3 : JobPlace) (s : State)
    (h : OnlyChanges fs s0 s) (m_acc : Part.acc ∈ fs) (m_tally : Part.tally ∈ fs) :
    OnlyChanges fs s0 (State.undoWrite s x1 x2 x3) := by
  unfold State.undoWrite
  try dsimp only
  repeat' first
    | with_reducible assumption
    | with_reducible apply State.modTile_frame
    | with_reducible apply State.modPlace_frame
    | with_reducible apply OnlyChanges.foldl
    | split
    | (intro)
    | with_reducible apply OnlyChanges.upd
    | with_reducible rfl
    | exact Or.inl rfl
    | (apply Or.inr; with_reducible assumption)

theorem State.forget_frame {fs : List Part} {s0 : State} (x1 : Nat) (x2 : Nat) (s : State) (h : OnlyChanges fs s0 s)
    (m_grp : Part.grp ∈ fs) :
    OnlyChanges fs s0 (State.forget s x1 x2) := by
  unfold State.forget
  try dsimp only
  repeat' first
    | with_reducible assumption
    | with_reducible apply OnlyChanges.foldl
    | split
    | (intro)
    | with_reducible apply OnlyChanges.upd
    | with_reducible rfl
    | exact Or.inl rfl
    | (apply Or.inr; with_reducible assumption)

theorem State.writeEntry_frame {fs : List Part} {s0 : State} (x1 : Nat) (x2 : Word32) (x3 : Nat) (s : State)
    (h : OnlyChanges fs s0 s) (m_mem : Part.mem ∈ fs) (m_rings : Part.rings ∈ fs) :
    OnlyChanges fs s0 (State.writeEntry s x1 x2 x3) := by
  unfold State.writeEntry
  try dsimp only
  repeat' first
    | with_reducible assumption
    | with_reducible apply State.modRing_frame
    | with_reducible apply State.write_frame
    | with_reducible apply OnlyChanges.foldl
    | split
    | (intro)

theorem State.rewriteFrom_frame {fs : List Part} {s0 : State} (x1 : Job) (x2 : Nat) (x3 : Nat) (s : State)
    (h : OnlyChanges fs s0 s) (m_mem : Part.mem ∈ fs) (m_rings : Part.rings ∈ fs) :
    OnlyChanges fs s0 (State.rewriteFrom s x1 x2 x3) := by
  induction x3 generalizing s x2 with
  | zero => exact h
  | succ n ih =>
    unfold State.rewriteFrom
    split
    · exact h
    · split
      · exact h
      · exact ih _ _ (State.writeEntry_frame _ _ _ _ h m_mem m_rings)

theorem State.settle_frame {fs : List Part} {s0 : State} (x1 : Job) (x2 : Nat) (x3 : Nat) (x4 : Bool) (x5 : Bool) (x6 : Bool)
    (s : State) (h : OnlyChanges fs s0 s) (m_acc : Part.acc ∈ fs) (m_mem : Part.mem ∈ fs) (m_rings : Part.rings ∈ fs) :
    OnlyChanges fs s0 (State.settle s x1 x2 x3 x4 x5 x6) := by
  unfold State.settle
  try dsimp only
  repeat' first
    | with_reducible assumption
    | with_reducible apply State.modPlace_frame
    | with_reducible apply State.rewriteFrom_frame
    | with_reducible apply OnlyChanges.foldl
    | split
    | (intro)

theorem State.retarget_frame {fs : List Part} {s0 : State}  (s : State) (h : OnlyChanges fs s0 s) (m_gait : Part.gait ∈ fs)
    (m_out : Part.out ∈ fs) :
    OnlyChanges fs s0 (State.retarget s) := by
  unfold State.retarget
  try dsimp only
  repeat' first
    | with_reducible assumption
    | with_reducible apply State.send_frame
    | with_reducible apply OnlyChanges.foldl
    | split
    | (intro)
    | with_reducible apply OnlyChanges.upd
    | with_reducible rfl
    | exact Or.inl rfl
    | (apply Or.inr; with_reducible assumption)

theorem State.deriveLedger_frame {fs : List Part} {s0 : State}  (s : State) (h : OnlyChanges fs s0 s)
    (m_gait : Part.gait ∈ fs) (m_led : Part.led ∈ fs) (m_out : Part.out ∈ fs) :
    OnlyChanges fs s0 (State.deriveLedger s) := by
  unfold State.deriveLedger
  try dsimp only
  repeat' first
    | with_reducible assumption
    | with_reducible apply State.retarget_frame
    | with_reducible apply OnlyChanges.foldl
    | split
    | (intro)
    | with_reducible apply OnlyChanges.upd
    | with_reducible rfl
    | exact Or.inl rfl
    | (apply Or.inr; with_reducible assumption)

theorem State.ledgerMoved_frame {fs : List Part} {s0 : State}  (s : State) (h : OnlyChanges fs s0 s)
    (m_gait : Part.gait ∈ fs) (m_led : Part.led ∈ fs) (m_out : Part.out ∈ fs) :
    OnlyChanges fs s0 (State.ledgerMoved s) := by
  unfold State.ledgerMoved
  try dsimp only
  repeat' first
    | with_reducible assumption
    | with_reducible apply State.deriveLedger_frame
    | with_reducible apply OnlyChanges.foldl
    | split
    | (intro)

theorem State.unreserve_frame {fs : List Part} {s0 : State} (x1 : Nat) (s : State) (h : OnlyChanges fs s0 s)
    (m_gait : Part.gait ∈ fs) (m_led : Part.led ∈ fs) (m_out : Part.out ∈ fs) :
    OnlyChanges fs s0 (State.unreserve s x1) := by
  unfold State.unreserve
  try dsimp only
  repeat' first
    | with_reducible assumption
    | with_reducible apply State.ledgerMoved_frame
    | with_reducible apply OnlyChanges.foldl
    | split
    | (intro)
    | with_reducible apply OnlyChanges.upd
    | with_reducible rfl
    | exact Or.inl rfl
    | (apply Or.inr; with_reducible assumption)

theorem State.pay_frame {fs : List Part} {s0 : State} (x1 : Job) (s : State) (h : OnlyChanges fs s0 s)
    (m_gait : Part.gait ∈ fs) (m_jobs : Part.jobs ∈ fs) (m_led : Part.led ∈ fs) (m_out : Part.out ∈ fs) :
    OnlyChanges fs s0 (State.pay s x1) := by
  unfold State.pay
  try dsimp only
  repeat' first
    | with_reducible assumption
    | with_reducible apply State.unreserve_frame
    | with_reducible apply State.modJob_frame
    | with_reducible apply OnlyChanges.foldl
    | split
    | (intro)

theorem State.voidPlace_frame {fs : List Part} {s0 : State} (x1 : Job) (x2 : Nat) (x3 : Nat) (x4 : Bool) (x5 : Bool)
    (s : State) (h : OnlyChanges fs s0 s) (m_acc : Part.acc ∈ fs) (m_gait : Part.gait ∈ fs) (m_grp : Part.grp ∈ fs)
    (m_jobs : Part.jobs ∈ fs) (m_led : Part.led ∈ fs) (m_mem : Part.mem ∈ fs) (m_out : Part.out ∈ fs)
    (m_rings : Part.rings ∈ fs) (m_tally : Part.tally ∈ fs) :
    OnlyChanges fs s0 (State.voidPlace s x1 x2 x3 x4 x5) := by
  unfold State.voidPlace
  try dsimp only
  repeat' first
    | with_reducible assumption
    | with_reducible apply State.ensurePlace_frame
    | with_reducible apply State.countVoided_frame
    | with_reducible apply State.undoWrite_frame
    | with_reducible apply State.modPlace_frame
    | with_reducible apply State.forget_frame
    | with_reducible apply State.settle_frame
    | with_reducible apply State.pay_frame
    | with_reducible apply OnlyChanges.foldl
    | split
    | (intro)

theorem State.voidUntaken_frame {fs : List Part} {s0 : State} (x1 : Group) (s : State) (h : OnlyChanges fs s0 s)
    (m_acc : Part.acc ∈ fs) (m_gait : Part.gait ∈ fs) (m_grp : Part.grp ∈ fs) (m_jobs : Part.jobs ∈ fs)
    (m_led : Part.led ∈ fs) (m_mem : Part.mem ∈ fs) (m_out : Part.out ∈ fs) (m_rings : Part.rings ∈ fs)
    (m_tally : Part.tally ∈ fs) :
    OnlyChanges fs s0 (State.voidUntaken s x1) := by
  unfold State.voidUntaken
  try dsimp only
  repeat' first
    | with_reducible assumption
    | with_reducible apply State.voidPlace_frame
    | with_reducible apply OnlyChanges.foldl
    | split
    | (intro)
    | with_reducible apply OnlyChanges.upd
    | with_reducible rfl
    | exact Or.inl rfl
    | (apply Or.inr; with_reducible assumption)

theorem State.mountGroups_frame {fs : List Part} {s0 : State} (x1 : Pending) (s : State) (h : OnlyChanges fs s0 s)
    (m_grp : Part.grp ∈ fs) :
    OnlyChanges fs s0 (State.mountGroups s x1) := by
  unfold State.mountGroups
  try dsimp only
  repeat' first
    | with_reducible assumption
    | with_reducible apply OnlyChanges.foldl
    | split
    | (intro)
    | with_reducible apply OnlyChanges.upd
    | with_reducible rfl
    | exact Or.inl rfl
    | (apply Or.inr; with_reducible assumption)

theorem State.freeTables_frame {fs : List Part} {s0 : State}  (s : State) (h : OnlyChanges fs s0 s) (m_img : Part.img ∈ fs) :
    OnlyChanges fs s0 (State.freeTables s) := by
  unfold State.freeTables
  try dsimp only
  repeat' first
    | with_reducible assumption
    | with_reducible apply OnlyChanges.foldl
    | split
    | (intro)
    | with_reducible apply OnlyChanges.upd
    | with_reducible rfl
    | exact Or.inl rfl
    | (apply Or.inr; with_reducible assumption)

theorem State.mountImage_frame {fs : List Part} {s0 : State} (x1 : Pending) (s : State) (h : OnlyChanges fs s0 s)
    (m_acc : Part.acc ∈ fs) (m_flt : Part.flt ∈ fs) (m_gait : Part.gait ∈ fs) (m_grp : Part.grp ∈ fs) (m_img : Part.img ∈ fs)
    (m_jobs : Part.jobs ∈ fs) (m_led : Part.led ∈ fs) (m_mem : Part.mem ∈ fs) (m_out : Part.out ∈ fs) (m_pwr : Part.pwr ∈ fs)
    (m_rings : Part.rings ∈ fs) (m_tally : Part.tally ∈ fs) :
    OnlyChanges fs s0 (State.mountImage s x1) := by
  unfold State.mountImage
  try dsimp only
  repeat' first
    | with_reducible assumption
    | with_reducible apply State.voidUntaken_frame
    | with_reducible apply State.mountGroups_frame
    | with_reducible apply State.freeTables_frame
    | with_reducible apply State.copyJournal_frame
    | with_reducible apply OnlyChanges.foldl
    | split
    | (intro)
    | with_reducible apply OnlyChanges.upd
    | with_reducible rfl
    | exact Or.inl rfl
    | (apply Or.inr; with_reducible assumption)

theorem State.writeEmpty_frame {fs : List Part} {s0 : State} (x1 : Nat) (x2 : Word32) (s : State) (h : OnlyChanges fs s0 s)
    (m_mem : Part.mem ∈ fs) :
    OnlyChanges fs s0 (State.writeEmpty s x1 x2) := by
  unfold State.writeEmpty
  try dsimp only
  repeat' first
    | with_reducible assumption
    | with_reducible apply State.write_frame
    | with_reducible apply OnlyChanges.foldl
    | split
    | (intro)

theorem State.restoreSlot_frame {fs : List Part} {s0 : State} (x1 : Nat) (x2 : Word32) (s : State) (h : OnlyChanges fs s0 s)
    (m_mem : Part.mem ∈ fs) (m_rings : Part.rings ∈ fs) :
    OnlyChanges fs s0 (State.restoreSlot s x1 x2) := by
  unfold State.restoreSlot
  try dsimp only
  repeat' first
    | with_reducible assumption
    | with_reducible apply State.writeEntry_frame
    | with_reducible apply State.writeEmpty_frame
    | with_reducible apply OnlyChanges.foldl
    | split
    | (intro)

theorem State.dropJob_frame {fs : List Part} {s0 : State} (x1 : Nat) (s : State) (h : OnlyChanges fs s0 s)
    (m_jobs : Part.jobs ∈ fs) :
    OnlyChanges fs s0 (State.dropJob s x1) := by
  unfold State.dropJob
  try dsimp only
  repeat' first
    | with_reducible assumption
    | with_reducible apply OnlyChanges.foldl
    | split
    | (intro)
    | with_reducible apply OnlyChanges.upd
    | with_reducible rfl
    | exact Or.inl rfl
    | (apply Or.inr; with_reducible assumption)

theorem State.restoreEnded_frame {fs : List Part} {s0 : State} (x1 : Job) (s : State) (h : OnlyChanges fs s0 s)
    (m_jobs : Part.jobs ∈ fs) (m_mem : Part.mem ∈ fs) (m_rings : Part.rings ∈ fs) (m_tally : Part.tally ∈ fs) :
    OnlyChanges fs s0 (State.restoreEnded s x1) := by
  unfold State.restoreEnded
  try dsimp only
  repeat' first
    | with_reducible assumption
    | with_reducible apply State.writeEntry_frame
    | with_reducible apply State.dropJob_frame
    | with_reducible apply State.releaseTiles_frame
    | with_reducible apply OnlyChanges.foldl
    | split
    | (intro)

theorem State.emptyRing_frame {fs : List Part} {s0 : State} (x1 : Nat) (s : State) (h : OnlyChanges fs s0 s)
    (m_mem : Part.mem ∈ fs) :
    OnlyChanges fs s0 (State.emptyRing s x1) := by
  unfold State.emptyRing
  try dsimp only
  repeat' first
    | with_reducible assumption
    | with_reducible apply State.writeEmpty_frame
    | with_reducible apply OnlyChanges.foldl
    | split
    | (intro)

theorem State.enableRing_frame {fs : List Part} {s0 : State} (x1 : Nat) (s : State) (h : OnlyChanges fs s0 s)
    (m_jobs : Part.jobs ∈ fs) (m_mem : Part.mem ∈ fs) (m_rings : Part.rings ∈ fs) (m_tally : Part.tally ∈ fs) :
    OnlyChanges fs s0 (State.enableRing s x1) := by
  unfold State.enableRing
  try dsimp only
  repeat' first
    | with_reducible assumption
    | with_reducible apply State.modRing_frame
    | with_reducible apply State.writeEmpty_frame
    | with_reducible apply State.restoreSlot_frame
    | with_reducible apply State.freeContexts_frame
    | with_reducible apply State.restoreEnded_frame
    | with_reducible apply State.emptyRing_frame
    | with_reducible apply OnlyChanges.foldl
    | split
    | (intro)

theorem State.modChannel_frame {fs : List Part} {s0 : State} (x1 : Nat) (x2 : Channel → Channel) (s : State)
    (h : OnlyChanges fs s0 s) (m_snd : Part.snd ∈ fs) :
    OnlyChanges fs s0 (State.modChannel s x1 x2) := by
  unfold State.modChannel
  try dsimp only
  repeat' first
    | with_reducible assumption
    | with_reducible apply OnlyChanges.foldl
    | split
    | (intro)
    | with_reducible apply OnlyChanges.upd
    | with_reducible rfl
    | exact Or.inl rfl
    | (apply Or.inr; with_reducible assumption)

theorem State.enableChannel_frame {fs : List Part} {s0 : State} (x1 : Nat) (s : State) (h : OnlyChanges fs s0 s)
    (m_ing : Part.ing ∈ fs) (m_snd : Part.snd ∈ fs) :
    OnlyChanges fs s0 (State.enableChannel s x1) := by
  unfold State.enableChannel
  try dsimp only
  repeat' first
    | with_reducible assumption
    | with_reducible apply State.modStream_frame
    | with_reducible apply State.modChannel_frame
    | with_reducible apply OnlyChanges.foldl
    | split
    | (intro)

theorem State.resettleChannels_frame {fs : List Part} {s0 : State} (x1 : Staged) (s : State) (h : OnlyChanges fs s0 s)
    (m_snd : Part.snd ∈ fs) :
    OnlyChanges fs s0 (State.resettleChannels s x1) := by
  unfold State.resettleChannels
  try dsimp only
  repeat' first
    | with_reducible assumption
    | with_reducible apply State.modChannel_frame
    | with_reducible apply OnlyChanges.foldl
    | split
    | (intro)
    | with_reducible apply OnlyChanges.upd
    | with_reducible rfl
    | exact Or.inl rfl
    | (apply Or.inr; with_reducible assumption)

theorem State.writeAccepts_frame {fs : List Part} {s0 : State}  (s : State) (h : OnlyChanges fs s0 s) (m_ing : Part.ing ∈ fs)
    (m_mem : Part.mem ∈ fs) :
    OnlyChanges fs s0 (State.writeAccepts s) := by
  unfold State.writeAccepts
  try dsimp only
  repeat' first
    | with_reducible assumption
    | with_reducible apply State.modStream_frame
    | with_reducible apply State.write_frame
    | with_reducible apply OnlyChanges.foldl
    | split
    | (intro)

theorem State.dueTandem_frame {fs : List Part} {s0 : State}  (s : State) (h : OnlyChanges fs s0 s) (m_grp : Part.grp ∈ fs) :
    OnlyChanges fs s0 (State.dueTandem s) := by
  unfold State.dueTandem
  try dsimp only
  repeat' first
    | with_reducible assumption
    | with_reducible apply OnlyChanges.foldl
    | split
    | (intro)
    | with_reducible apply OnlyChanges.upd
    | with_reducible rfl
    | exact Or.inl rfl
    | (apply Or.inr; with_reducible assumption)

theorem State.mountSettings_frame {fs : List Part} {s0 : State} (x1 : Staged) (s : State) (h : OnlyChanges fs s0 s)
    (m_flt : Part.flt ∈ fs) (m_gait : Part.gait ∈ fs) (m_grp : Part.grp ∈ fs) (m_ing : Part.ing ∈ fs)
    (m_jobs : Part.jobs ∈ fs) (m_led : Part.led ∈ fs) (m_mem : Part.mem ∈ fs) (m_out : Part.out ∈ fs)
    (m_pins : Part.pins ∈ fs) (m_pwr : Part.pwr ∈ fs) (m_rings : Part.rings ∈ fs) (m_snd : Part.snd ∈ fs)
    (m_tally : Part.tally ∈ fs) :
    OnlyChanges fs s0 (State.mountSettings s x1) := by
  unfold State.mountSettings
  try dsimp only
  repeat' first
    | with_reducible assumption
    | with_reducible apply State.enableRing_frame
    | with_reducible apply State.enableChannel_frame
    | with_reducible apply State.resettleChannels_frame
    | with_reducible apply State.modChannel_frame
    | with_reducible apply State.writeAccepts_frame
    | with_reducible apply State.refreshHeld_frame
    | with_reducible apply State.refreshFault_frame
    | with_reducible apply State.dueTandem_frame
    | with_reducible apply OnlyChanges.foldl
    | split
    | (intro)
    | with_reducible apply OnlyChanges.upd
    | with_reducible rfl
    | exact Or.inl rfl
    | (apply Or.inr; with_reducible assumption)

theorem State.finishJob_frame {fs : List Part} {s0 : State} (x1 : Nat) (x2 : Nat) (x3 : Nat) (x4 : Nat) (s : State)
    (h : OnlyChanges fs s0 s) (m_gait : Part.gait ∈ fs) (m_jobs : Part.jobs ∈ fs) (m_led : Part.led ∈ fs)
    (m_mem : Part.mem ∈ fs) (m_out : Part.out ∈ fs) (m_rings : Part.rings ∈ fs) :
    OnlyChanges fs s0 (State.finishJob s x1 x2 x3 x4) := by
  unfold State.finishJob
  try dsimp only
  repeat' first
    | with_reducible assumption
    | with_reducible apply State.writeEntry_frame
    | with_reducible apply State.modJob_frame
    | with_reducible apply State.freeContexts_frame
    | with_reducible apply State.unreserve_frame
    | with_reducible apply OnlyChanges.foldl
    | split
    | (intro)

theorem State.nextMount_frame {fs : List Part} {s0 : State}  (s : State) (h : OnlyChanges fs s0 s) (m_mnt : Part.mnt ∈ fs) :
    OnlyChanges fs s0 (State.nextMount s) := by
  unfold State.nextMount
  try dsimp only
  repeat' first
    | with_reducible assumption
    | with_reducible apply OnlyChanges.foldl
    | split
    | (intro)
    | with_reducible apply OnlyChanges.upd
    | with_reducible rfl
    | exact Or.inl rfl
    | (apply Or.inr; with_reducible assumption)

theorem State.endMount_frame {fs : List Part} {s0 : State} (x1 : Nat) (x2 : Nat) (x3 : Nat) (s : State)
    (h : OnlyChanges fs s0 s) (m_gait : Part.gait ∈ fs) (m_jobs : Part.jobs ∈ fs) (m_led : Part.led ∈ fs)
    (m_mem : Part.mem ∈ fs) (m_mnt : Part.mnt ∈ fs) (m_out : Part.out ∈ fs) (m_rings : Part.rings ∈ fs) :
    OnlyChanges fs s0 (State.endMount s x1 x2 x3) := by
  unfold State.endMount
  try dsimp only
  repeat' first
    | with_reducible assumption
    | with_reducible apply State.finishJob_frame
    | with_reducible apply State.nextMount_frame
    | with_reducible apply OnlyChanges.foldl
    | split
    | (intro)
    | with_reducible apply OnlyChanges.upd
    | with_reducible rfl
    | exact Or.inl rfl
    | (apply Or.inr; with_reducible assumption)

theorem State.reportMount_frame {fs : List Part} {s0 : State}  (s : State) (h : OnlyChanges fs s0 s)
    (m_gait : Part.gait ∈ fs) (m_jobs : Part.jobs ∈ fs) (m_led : Part.led ∈ fs) (m_mem : Part.mem ∈ fs)
    (m_mnt : Part.mnt ∈ fs) (m_out : Part.out ∈ fs) (m_rings : Part.rings ∈ fs) :
    OnlyChanges fs s0 (State.reportMount s) := by
  unfold State.reportMount
  try dsimp only
  repeat' first
    | with_reducible assumption
    | with_reducible apply State.endMount_frame
    | with_reducible apply OnlyChanges.foldl
    | split
    | (intro)
    | with_reducible apply OnlyChanges.upd
    | with_reducible rfl
    | exact Or.inl rfl
    | (apply Or.inr; with_reducible assumption)

theorem State.thaw_frame {fs : List Part} {s0 : State}  (s : State) (h : OnlyChanges fs s0 s) (m_mnt : Part.mnt ∈ fs)
    (m_shadow : Part.shadow ∈ fs) :
    OnlyChanges fs s0 (State.thaw s) := by
  unfold State.thaw
  try dsimp only
  repeat' first
    | with_reducible assumption
    | with_reducible apply OnlyChanges.foldl
    | split
    | (intro)
    | with_reducible apply OnlyChanges.upd
    | with_reducible rfl
    | exact Or.inl rfl
    | (apply Or.inr; with_reducible assumption)

theorem State.applyMount_frame {fs : List Part} {s0 : State}  (s : State) (h : OnlyChanges fs s0 s) (m_acc : Part.acc ∈ fs)
    (m_flt : Part.flt ∈ fs) (m_gait : Part.gait ∈ fs) (m_grp : Part.grp ∈ fs) (m_img : Part.img ∈ fs) (m_ing : Part.ing ∈ fs)
    (m_jobs : Part.jobs ∈ fs) (m_led : Part.led ∈ fs) (m_live : Part.live ∈ fs) (m_mem : Part.mem ∈ fs)
    (m_mnt : Part.mnt ∈ fs) (m_out : Part.out ∈ fs) (m_pins : Part.pins ∈ fs) (m_pwr : Part.pwr ∈ fs)
    (m_rings : Part.rings ∈ fs) (m_shadow : Part.shadow ∈ fs) (m_snd : Part.snd ∈ fs) (m_tally : Part.tally ∈ fs) :
    OnlyChanges fs s0 (State.applyMount s) := by
  have k1 : ∀ (u : State) (a b : Staged) (c : MountState), OnlyChanges fs s0 u →
      OnlyChanges fs s0 { u with live := a, shadow := b, mnt := c } := by
    intro u a b c hu
    apply OnlyChanges.upd rfl hu <;>
      first | exact Or.inl rfl | exact Or.inr m_live | exact Or.inr m_shadow | exact Or.inr m_mnt | rfl
  have k0 : ∀ (u : State) (a : Staged), OnlyChanges fs s0 u → OnlyChanges fs s0 { u with live := a } := by
    intro u a hu
    apply OnlyChanges.upd rfl hu <;> first | exact Or.inl rfl | exact Or.inr m_live | rfl
  have k2 : ∀ (u : State) (t : Tables) (r : List Route), OnlyChanges fs s0 u → OnlyChanges fs s0 (match u.img.pend with
      | some p => (u.mountImage p).mountStreams t r | none => u) := by
    intro u t r hu
    split
    · apply State.mountStreams_frame <;> first | assumption | skip
      apply State.mountImage_frame <;> assumption
    · exact hu
  have k3 : ∀ (u : State) (old : Staged), OnlyChanges fs s0 u → OnlyChanges fs s0 (u.mountSettings old) := by
    intro u old hu
    apply State.mountSettings_frame <;> assumption
  have k4 : ∀ (u : State) (b : Bool), OnlyChanges fs s0 u → OnlyChanges fs s0 (if b = true then u.abandon else u) := by
    intro u b hu
    split
    · apply State.abandon_frame <;> assumption
    · exact hu
  have k5 : ∀ (u : State), OnlyChanges fs s0 u → OnlyChanges fs s0 u.thaw.retarget.ledgerMoved.reportMount := by
    intro u hu
    apply State.reportMount_frame <;> first | assumption | skip
    apply State.ledgerMoved_frame <;> first | assumption | skip
    apply State.retarget_frame <;> first | assumption | skip
    apply State.thaw_frame <;> assumption
  unfold State.applyMount
  exact k5 _ (k1 _ _ _ _ (k3 _ _ (k4 _ _ (k2 _ _ _ (k0 _ _ h)))))

theorem State.stageEntry_frame {fs : List Part} {s0 : State} (s : State) (h : OnlyChanges fs s0 s) (g : Nat) (e : PatchEntry)
    (c : Nat) (m_arr : Part.arr ∈ fs) (r : PatchItem × State)
    (k : s.stageEntry g e c = some r) : OnlyChanges fs s0 r.2 := by
  have keyarr : ∀ (u : State) (x : Arrays), OnlyChanges fs s0 u → OnlyChanges fs s0 { u with arr := x } := by
    intro u x hu
    apply OnlyChanges.upd rfl hu <;> first | exact Or.inl rfl | exact Or.inr m_arr | rfl
  unfold State.stageEntry at k
  dsimp only at k
  split at k
  · injection k with k
    subst k
    exact h
  · split at k
    · cases k
    · injection k with k
      subst k
      exact keyarr _ _ h

theorem State.stageCopies_frame {fs : List Part} {s0 : State} (s : State) (h : OnlyChanges fs s0 s) (g : Nat)
    (e : PatchEntry) (cs : List Nat) (m_arr : Part.arr ∈ fs) (r : List PatchItem × State)
    (k : s.stageCopies g e cs = some r) : OnlyChanges fs s0 r.2 := by
  induction cs generalizing s r with
  | nil => injection k with k; subst k; exact h
  | cons c cs ih =>
    unfold State.stageCopies at k
    split at k
    · cases k
    · rename_i x t e1
      rw [Option.map_eq_some_iff] at k
      obtain ⟨q, hq, rfl⟩ := k
      exact ih t (State.stageEntry_frame s h _ _ _ m_arr _ e1) q hq

theorem State.visibleStep_frame {fs : List Part} {s0 : State} (x1 : PatchItem) (s : State) (h : OnlyChanges fs s0 s)
    (m_arr : Part.arr ∈ fs) :
    OnlyChanges fs s0 (State.visibleStep s x1) := by
  have keyarr : ∀ (u : State) (x : Arrays), OnlyChanges fs s0 u → OnlyChanges fs s0 { u with arr := x } := by
    intro u x hu
    apply OnlyChanges.upd rfl hu <;> first | exact Or.inl rfl | exact Or.inr m_arr | rfl
  unfold State.visibleStep
  extract_lets e kept
  split
  · exact keyarr _ _ h
  · exact keyarr _ _ (keyarr _ _ h)

theorem State.applyPatch_frame {fs : List Part} {s0 : State} (x1 : Job) (x2 : PatchJob) (x3 : Group) (s : State)
    (h : OnlyChanges fs s0 s) (m_arr : Part.arr ∈ fs) (m_gait : Part.gait ∈ fs) (m_grp : Part.grp ∈ fs)
    (m_img : Part.img ∈ fs) (m_jobs : Part.jobs ∈ fs) (m_led : Part.led ∈ fs) (m_mem : Part.mem ∈ fs) (m_out : Part.out ∈ fs)
    (m_rings : Part.rings ∈ fs) :
    OnlyChanges fs s0 (State.applyPatch s x1 x2 x3) := by
  unfold State.applyPatch
  try dsimp only
  repeat' first
    | with_reducible assumption
    | with_reducible apply State.visibleStep_frame
    | with_reducible apply State.modGroup_frame
    | with_reducible apply State.appendJournal_frame
    | with_reducible apply State.finishJob_frame
    | with_reducible apply OnlyChanges.foldl
    | split
    | (intro)
    | with_reducible apply OnlyChanges.upd
    | with_reducible rfl
    | exact Or.inl rfl
    | (apply Or.inr; with_reducible assumption)

theorem State.cacheRow_frame {fs : List Part} {s0 : State} (x1 : Word) (x2 : EntityRow) (s : State) (h : OnlyChanges fs s0 s)
    (m_ent : Part.ent ∈ fs) :
    OnlyChanges fs s0 (State.cacheRow s x1 x2) := by
  unfold State.cacheRow
  try dsimp only
  repeat' first
    | with_reducible assumption
    | with_reducible apply OnlyChanges.foldl
    | split
    | (intro)
    | with_reducible apply OnlyChanges.upd
    | with_reducible rfl
    | exact Or.inl rfl
    | (apply Or.inr; with_reducible assumption)

theorem State.applyUpdate_frame {fs : List Part} {s0 : State} (x1 : UpdateEntry) (x2 : Nat) (s : State)
    (h : OnlyChanges fs s0 s) (m_ent : Part.ent ∈ fs) (m_flt : Part.flt ∈ fs) (m_mem : Part.mem ∈ fs) :
    OnlyChanges fs s0 (State.applyUpdate s x1 x2) := by
  unfold State.applyUpdate
  try dsimp only
  repeat' first
    | with_reducible assumption
    | with_reducible apply State.writeFreeBit_frame
    | with_reducible apply State.writeKey_frame
    | with_reducible apply State.dropCached_frame
    | with_reducible apply State.cacheRow_frame
    | with_reducible apply OnlyChanges.foldl
    | split
    | (intro)
    | with_reducible apply OnlyChanges.upd
    | with_reducible rfl
    | exact Or.inl rfl
    | (apply Or.inr; with_reducible assumption)

theorem State.renameHandOffs_frame {fs : List Part} {s0 : State} (x1 : Home) (s : State) (h : OnlyChanges fs s0 s)
    (m_arr : Part.arr ∈ fs) :
    OnlyChanges fs s0 (State.renameHandOffs s x1) := by
  unfold State.renameHandOffs
  try dsimp only
  repeat' first
    | with_reducible assumption
    | with_reducible apply OnlyChanges.foldl
    | split
    | (intro)
    | with_reducible apply OnlyChanges.upd
    | with_reducible rfl
    | exact Or.inl rfl
    | (apply Or.inr; with_reducible assumption)

theorem State.relocate_frame {fs : List Part} {s0 : State} (x1 : Home × Content) (x2 : Nat) (x3 : Bool) (x4 : Nat)
    (s : State) (h : OnlyChanges fs s0 s) (m_arr : Part.arr ∈ fs) :
    OnlyChanges fs s0 (State.relocate s x1 x2 x3 x4) := by
  unfold State.relocate
  try dsimp only
  repeat' first
    | with_reducible assumption
    | with_reducible apply State.renameHandOffs_frame
    | with_reducible apply OnlyChanges.foldl
    | split
    | (intro)
    | with_reducible apply OnlyChanges.upd
    | with_reducible rfl
    | exact Or.inl rfl
    | (apply Or.inr; with_reducible assumption)

theorem State.avoidOn_frame {fs : List Part} {s0 : State} (x1 : Nat) (x2 : Nat) (s : State) (h : OnlyChanges fs s0 s)
    (m_arr : Part.arr ∈ fs) :
    OnlyChanges fs s0 (State.avoidOn s x1 x2) := by
  unfold State.avoidOn
  try dsimp only
  repeat' first
    | with_reducible assumption
    | with_reducible apply State.relocate_frame
    | with_reducible apply OnlyChanges.foldl
    | split
    | (intro)

theorem State.dropPending_frame {fs : List Part} {s0 : State}  (s : State) (h : OnlyChanges fs s0 s) (m_arr : Part.arr ∈ fs)
    (m_img : Part.img ∈ fs) :
    OnlyChanges fs s0 (State.dropPending s) := by
  unfold State.dropPending
  try dsimp only
  repeat' first
    | with_reducible assumption
    | with_reducible apply OnlyChanges.foldl
    | split
    | (intro)
    | with_reducible apply OnlyChanges.upd
    | with_reducible rfl
    | exact Or.inl rfl
    | (apply Or.inr; with_reducible assumption)

theorem State.breakPending_frame {fs : List Part} {s0 : State}  (s : State) (h : OnlyChanges fs s0 s) (m_arr : Part.arr ∈ fs)
    (m_gait : Part.gait ∈ fs) (m_img : Part.img ∈ fs) (m_out : Part.out ∈ fs) :
    OnlyChanges fs s0 (State.breakPending s) := by
  unfold State.breakPending
  try dsimp only
  repeat' first
    | with_reducible assumption
    | with_reducible apply State.dropPending_frame
    | with_reducible apply State.retarget_frame
    | with_reducible apply OnlyChanges.foldl
    | split
    | (intro)
    | with_reducible apply OnlyChanges.upd
    | with_reducible rfl
    | exact Or.inl rfl
    | (apply Or.inr; with_reducible assumption)

theorem State.interruptLoad_frame {fs : List Part} {s0 : State} (x1 : Nat) (s : State) (h : OnlyChanges fs s0 s)
    (m_arr : Part.arr ∈ fs) (m_gait : Part.gait ∈ fs) (m_img : Part.img ∈ fs) (m_out : Part.out ∈ fs) :
    OnlyChanges fs s0 (State.interruptLoad s x1) := by
  unfold State.interruptLoad
  try dsimp only
  repeat' first
    | with_reducible assumption
    | with_reducible apply State.breakPending_frame
    | with_reducible apply OnlyChanges.foldl
    | split
    | (intro)
    | with_reducible apply OnlyChanges.upd
    | with_reducible rfl
    | exact Or.inl rfl
    | (apply Or.inr; with_reducible assumption)

theorem State.retireArray_frame {fs : List Part} {s0 : State} (x1 : Nat) (s : State) (h : OnlyChanges fs s0 s)
    (m_arr : Part.arr ∈ fs) :
    OnlyChanges fs s0 (State.retireArray s x1) := by
  unfold State.retireArray
  try dsimp only
  repeat' first
    | with_reducible assumption
    | with_reducible apply OnlyChanges.foldl
    | split
    | (intro)
    | with_reducible apply OnlyChanges.upd
    | with_reducible rfl
    | exact Or.inl rfl
    | (apply Or.inr; with_reducible assumption)

theorem State.mapOnto_frame {fs : List Part} {s0 : State} (x1 : Nat) (x2 : Nat) (s : State) (h : OnlyChanges fs s0 s)
    (m_arr : Part.arr ∈ fs) (m_gait : Part.gait ∈ fs) (m_img : Part.img ∈ fs) (m_out : Part.out ∈ fs) :
    OnlyChanges fs s0 (State.mapOnto s x1 x2) := by
  unfold State.mapOnto
  try dsimp only
  repeat' first
    | with_reducible assumption
    | with_reducible apply State.avoidOn_frame
    | with_reducible apply State.interruptLoad_frame
    | with_reducible apply State.retireArray_frame
    | with_reducible apply State.fillPosition_frame
    | with_reducible apply OnlyChanges.foldl
    | split
    | (intro)
    | with_reducible apply OnlyChanges.upd
    | with_reducible rfl
    | exact Or.inl rfl
    | (apply Or.inr; with_reducible assumption)

theorem State.logEvent_frame {fs : List Part} {s0 : State} (x1 : Nat) (x2 : Nat) (x3 : Nat) (x4 : Detected) (x5 : Nat)
    (s : State) (h : OnlyChanges fs s0 s) (m_flt : Part.flt ∈ fs) (m_out : Part.out ∈ fs) (m_pins : Part.pins ∈ fs) :
    OnlyChanges fs s0 (State.logEvent s x1 x2 x3 x4 x5) := by
  unfold State.logEvent
  try dsimp only
  repeat' first
    | with_reducible assumption
    | with_reducible apply State.notifyIf_frame
    | with_reducible apply State.send_frame
    | with_reducible apply State.refreshFault_frame
    | with_reducible apply OnlyChanges.foldl
    | split
    | (intro)
    | with_reducible apply OnlyChanges.upd
    | with_reducible rfl
    | exact Or.inl rfl
    | (apply Or.inr; with_reducible assumption)

theorem State.remountOnto_frame {fs : List Part} {s0 : State} (x1 : Nat) (x2 : Nat) (x3 : Detected) (s : State)
    (h : OnlyChanges fs s0 s) (m_arr : Part.arr ∈ fs) (m_flt : Part.flt ∈ fs) (m_gait : Part.gait ∈ fs)
    (m_img : Part.img ∈ fs) (m_out : Part.out ∈ fs) (m_pins : Part.pins ∈ fs) :
    OnlyChanges fs s0 (State.remountOnto s x1 x2 x3) := by
  unfold State.remountOnto
  try dsimp only
  repeat' first
    | with_reducible assumption
    | with_reducible apply State.mapOnto_frame
    | with_reducible apply State.logEvent_frame
    | with_reducible apply OnlyChanges.foldl
    | split
    | (intro)

theorem State.putOut_frame {fs : List Part} {s0 : State} (x1 : Nat) (s : State) (h : OnlyChanges fs s0 s)
    (m_arr : Part.arr ∈ fs) :
    OnlyChanges fs s0 (State.putOut s x1) := by
  unfold State.putOut
  try dsimp only
  repeat' first
    | with_reducible assumption
    | with_reducible apply OnlyChanges.foldl
    | split
    | (intro)
    | with_reducible apply OnlyChanges.upd
    | with_reducible rfl
    | exact Or.inl rfl
    | (apply Or.inr; with_reducible assumption)

theorem State.borrow_frame {fs : List Part} {s0 : State} (x1 : Nat) (x2 : Nat) (x3 : Detected) (s : State)
    (h : OnlyChanges fs s0 s) (m_arr : Part.arr ∈ fs) (m_flt : Part.flt ∈ fs) (m_gait : Part.gait ∈ fs)
    (m_img : Part.img ∈ fs) (m_out : Part.out ∈ fs) (m_pins : Part.pins ∈ fs) :
    OnlyChanges fs s0 (State.borrow s x1 x2 x3) := by
  unfold State.borrow
  try dsimp only
  repeat' first
    | with_reducible assumption
    | with_reducible apply State.putOut_frame
    | with_reducible apply State.mapOnto_frame
    | with_reducible apply State.logEvent_frame
    | with_reducible apply OnlyChanges.foldl
    | split
    | (intro)

theorem State.voidSuspended_frame {fs : List Part} {s0 : State} (x1 : Group) (x2 : List Nat) (s : State)
    (h : OnlyChanges fs s0 s) (m_acc : Part.acc ∈ fs) (m_gait : Part.gait ∈ fs) (m_grp : Part.grp ∈ fs)
    (m_jobs : Part.jobs ∈ fs) (m_led : Part.led ∈ fs) (m_mem : Part.mem ∈ fs) (m_out : Part.out ∈ fs)
    (m_rings : Part.rings ∈ fs) (m_tally : Part.tally ∈ fs) :
    OnlyChanges fs s0 (State.voidSuspended s x1 x2) := by
  unfold State.voidSuspended
  try dsimp only
  repeat' first
    | with_reducible assumption
    | with_reducible apply State.voidPlace_frame
    | with_reducible apply OnlyChanges.foldl
    | split
    | (intro)

theorem State.suspendModels_frame {fs : List Part} {s0 : State} (x1 : Group) (x2 : List Nat) (s : State)
    (h : OnlyChanges fs s0 s) (m_acc : Part.acc ∈ fs) (m_gait : Part.gait ∈ fs) (m_grp : Part.grp ∈ fs)
    (m_jobs : Part.jobs ∈ fs) (m_led : Part.led ∈ fs) (m_mem : Part.mem ∈ fs) (m_out : Part.out ∈ fs)
    (m_rings : Part.rings ∈ fs) (m_tally : Part.tally ∈ fs) :
    OnlyChanges fs s0 (State.suspendModels s x1 x2) := by
  unfold State.suspendModels
  try dsimp only
  repeat' first
    | with_reducible assumption
    | with_reducible apply State.modGroup_frame
    | with_reducible apply State.voidSuspended_frame
    | with_reducible apply OnlyChanges.foldl
    | split
    | (intro)

theorem State.suspendAt_frame {fs : List Part} {s0 : State} (x1 : Nat) (x2 : Detected) (s : State) (h : OnlyChanges fs s0 s)
    (m_acc : Part.acc ∈ fs) (m_arr : Part.arr ∈ fs) (m_flt : Part.flt ∈ fs) (m_gait : Part.gait ∈ fs) (m_grp : Part.grp ∈ fs)
    (m_img : Part.img ∈ fs) (m_jobs : Part.jobs ∈ fs) (m_led : Part.led ∈ fs) (m_mem : Part.mem ∈ fs) (m_out : Part.out ∈ fs)
    (m_pins : Part.pins ∈ fs) (m_rings : Part.rings ∈ fs) (m_tally : Part.tally ∈ fs) :
    OnlyChanges fs s0 (State.suspendAt s x1 x2) := by
  unfold State.suspendAt
  try dsimp only
  repeat' first
    | with_reducible assumption
    | with_reducible apply State.suspendModels_frame
    | with_reducible apply State.logEvent_frame
    | with_reducible apply State.putOut_frame
    | with_reducible apply State.interruptLoad_frame
    | with_reducible apply OnlyChanges.foldl
    | split
    | (intro)

theorem State.moveTree_frame {fs : List Part} {s0 : State} (s : State) (h : OnlyChanges fs s0 s)
    (xs : List (Nat × Home × Content)) (p : Nat) (b : Bool) (m_arr : Part.arr ∈ fs) (t : State)
    (e : s.moveTree xs p b = some t) : OnlyChanges fs s0 t := by
  unfold State.moveTree at e
  have key : ∀ (xs : List (Nat × Home × Content)) (acc : Option State), (∀ u, acc = some u → OnlyChanges fs s0 u) → ∀ t,
      xs.foldl (fun (acc : Option State) x =>
        match acc with
        | none => none
        | some t =>
          if t.extrasFit x.2 p b then
            (t.freeSlot p [b] (x.2.2.rowsOf x.2.1).length []).map (fun k => t.relocate x.2 p b k)
          else none) acc = some t → OnlyChanges fs s0 t := by
    intro xs
    induction xs with
    | nil => intro acc ha t e; exact ha t e
    | cons x xs ih =>
      intro acc ha t e
      rw [List.foldl_cons] at e
      apply ih _ _ t e
      intro u hu
      split at hu
      · cases hu
      · split at hu
        · rw [Option.map_eq_some_iff] at hu
          obtain ⟨k, -, rfl⟩ := hu
          exact State.relocate_frame _ _ _ _ _ (ha _ rfl) m_arr
        · cases hu
  exact key xs (some s) (by intro u hu; cases hu; exact h) t e

theorem State.moveTrees_frame {fs : List Part} {s0 : State} (s : State) (h : OnlyChanges fs s0 s) (p : Nat) (a b : Bool)
    (qs : List Nat) (m_arr : Part.arr ∈ fs) (r : State × Nat)
    (e : s.moveTrees p a b qs = some r) : OnlyChanges fs s0 r.1 := by
  unfold State.moveTrees at e
  revert e
  suffices key : ∀ (xs : List Nat) (acc : Option (State × Nat)), (∀ u, acc = some u → OnlyChanges fs s0 u.1) → ∀ r,
      xs.foldl (fun (acc : Option (State × Nat)) sl =>
        match acc with
        | none => none
        | some (t, n) =>
          let slots := t.slotsAt p a
          if slots.any (fun x => x.1 == sl) then
            let tree := t.treeOf slots sl
            (qs.findSome? (fun q => t.moveTree tree q b)).map (fun u => (u, n + tree.length))
          else acc) acc = some r → OnlyChanges fs s0 r.1 from
    fun e => key _ (some (s, 0)) (by intro u hu; cases hu; exact h) r e
  intro xs
  induction xs with
  | nil => intro acc ha r e; exact ha r e
  | cons x xs ih =>
    intro acc ha r e
    rw [List.foldl_cons] at e
    apply ih _ _ r e
    intro u hu
    split at hu
    · cases hu
    · rename_i t n
      dsimp only at hu
      split at hu
      · rw [Option.map_eq_some_iff] at hu
        obtain ⟨k, hk, rfl⟩ := hu
        obtain ⟨q, -, hq⟩ := List.exists_of_findSome?_eq_some hk
        exact State.moveTree_frame t (ha _ rfl) _ _ _ m_arr _ hq
      · exact ha _ hu

theorem State.spread_frame {fs : List Part} {s0 : State} (s : State) (h : OnlyChanges fs s0 s) (p : Nat)
    (m_arr : Part.arr ∈ fs) (r : State × Nat) (e : s.spread p = some r) :
    OnlyChanges fs s0 r.1 := by
  unfold State.spread at e
  have inner : ∀ (g : Group) (xs : List Bool) (acc : Option (State × Nat)), (∀ u, acc = some u → OnlyChanges fs s0 u.1) → ∀
      r,
      xs.foldl (fun acc2 π => match acc2 with
        | none => none
        | some (t, n) => (t.moveTrees p π π (s.othersOf g p)).map (fun r => (r.1, n + r.2))) acc = some r →
      OnlyChanges fs s0 r.1 := by
    intro g xs
    induction xs with
    | nil => intro acc ha r e; exact ha r e
    | cons x xs ih =>
      intro acc ha r e
      rw [List.foldl_cons] at e
      apply ih _ _ r e
      intro u hu
      split at hu
      · cases hu
      · rw [Option.map_eq_some_iff] at hu
        obtain ⟨k, hk, rfl⟩ := hu
        exact State.moveTrees_frame _ (ha (_, _) rfl) _ _ _ _ m_arr k hk
  revert e
  suffices outer : ∀ (gs : List Group) (acc : Option (State × Nat)), (∀ u, acc = some u → OnlyChanges fs s0 u.1) → ∀ r,
      gs.foldl (fun (acc : Option (State × Nat)) g =>
        g.planes.foldl (fun acc2 π => match acc2 with
          | none => none
          | some (t, n) => (t.moveTrees p π π (s.othersOf g p)).map (fun r => (r.1, n + r.2))) acc) acc = some r →
      OnlyChanges fs s0 r.1 from fun e => outer _ (some (s, 0)) (by intro u hu; cases hu; exact h) r e
  intro gs
  induction gs with
  | nil => intro acc ha r e; exact ha r e
  | cons x xs ih =>
    intro acc ha r e
    rw [List.foldl_cons] at e
    exact ih _ (fun u hu => inner x _ _ ha u hu) r e

theorem State.foldDouble_frame {fs : List Part} {s0 : State} (s : State) (h : OnlyChanges fs s0 s) (p : Nat)
    (m_arr : Part.arr ∈ fs) (m_gait : Part.gait ∈ fs) (m_grp : Part.grp ∈ fs) (m_img : Part.img ∈ fs) (m_out : Part.out ∈ fs)
    (r : State × Nat)
    (e : s.foldDouble p = some r) : OnlyChanges fs s0 r.1 := by
  unfold State.foldDouble at e
  split at e
  · extract_lets ps u at e
    split at e
    · cases e
    · rw [Option.map_eq_some_iff] at e
      obtain ⟨k, hk, rfl⟩ := e
      apply State.modGroup_frame _ _ _ _ m_grp
      refine State.moveTrees_frame u ?_ _ _ _ _ m_arr _ hk
      exact OnlyChanges.foldl _ h (fun x t ht => State.interruptLoad_frame _ _ ht m_arr m_gait m_img m_out)
  · cases e

theorem State.refoldAt_frame {fs : List Part} {s0 : State} (x1 : Nat) (x2 : Detected) (s : State) (h : OnlyChanges fs s0 s)
    (m_acc : Part.acc ∈ fs) (m_arr : Part.arr ∈ fs) (m_flt : Part.flt ∈ fs) (m_gait : Part.gait ∈ fs) (m_grp : Part.grp ∈ fs)
    (m_img : Part.img ∈ fs) (m_jobs : Part.jobs ∈ fs) (m_led : Part.led ∈ fs) (m_mem : Part.mem ∈ fs) (m_out : Part.out ∈ fs)
    (m_pins : Part.pins ∈ fs) (m_rings : Part.rings ∈ fs) (m_tally : Part.tally ∈ fs) :
    OnlyChanges fs s0 (State.refoldAt s x1 x2) := by
  unfold State.refoldAt
  split
  · exact State.borrow_frame _ _ _ _ h m_arr m_flt m_gait m_img m_out m_pins
  · split
    · rename_i t n e
      have ht : OnlyChanges fs s0 t := by
        split at e
        · cases e
        · exact State.spread_frame s h _ m_arr _ e
      exact State.logEvent_frame _ _ _ _ _ _
          (State.putOut_frame _ _ (State.interruptLoad_frame _ _ ht m_arr m_gait m_img m_out) m_arr) m_flt m_out m_pins
    · split
      · rename_i t n e
        have ht : OnlyChanges fs s0 t := by
          split at e
          · cases e
          · exact State.foldDouble_frame s h _ m_arr m_gait m_grp m_img m_out _ e
        exact State.logEvent_frame _ _ _ _ _ _
            (State.putOut_frame _ _ (State.interruptLoad_frame _ _ ht m_arr m_gait m_img m_out) m_arr) m_flt m_out m_pins
      · apply State.suspendAt_frame <;> assumption

theorem State.freeTwin_frame {fs : List Part} {s0 : State} (x1 : Nat) (s : State) (h : OnlyChanges fs s0 s)
    (m_arr : Part.arr ∈ fs) :
    OnlyChanges fs s0 (State.freeTwin s x1) := by
  unfold State.freeTwin
  try dsimp only
  repeat' first
    | with_reducible assumption
    | with_reducible apply OnlyChanges.foldl
    | split
    | (intro)
    | with_reducible apply OnlyChanges.upd
    | with_reducible rfl
    | exact Or.inl rfl
    | (apply Or.inr; with_reducible assumption)

theorem State.leaveTandem_frame {fs : List Part} {s0 : State} (x1 : Group) (x2 : Detected) (s : State)
    (h : OnlyChanges fs s0 s) (m_arr : Part.arr ∈ fs) (m_flt : Part.flt ∈ fs) (m_gait : Part.gait ∈ fs)
    (m_grp : Part.grp ∈ fs) (m_out : Part.out ∈ fs) (m_pins : Part.pins ∈ fs) :
    OnlyChanges fs s0 (State.leaveTandem s x1 x2) := by
  unfold State.leaveTandem
  try dsimp only
  repeat' first
    | with_reducible assumption
    | with_reducible apply State.freeTwin_frame
    | with_reducible apply State.modGroup_frame
    | with_reducible apply State.logEvent_frame
    | with_reducible apply State.retarget_frame
    | with_reducible apply OnlyChanges.foldl
    | split
    | (intro)
    | with_reducible apply OnlyChanges.upd
    | with_reducible rfl
    | exact Or.inl rfl
    | (apply Or.inr; with_reducible assumption)

theorem State.logReadbacks_frame {fs : List Part} {s0 : State} (x1 : Detected) (x2 : List Nat) (s : State)
    (h : OnlyChanges fs s0 s) (m_flt : Part.flt ∈ fs) (m_out : Part.out ∈ fs) (m_pins : Part.pins ∈ fs) :
    OnlyChanges fs s0 (State.logReadbacks s x1 x2) := by
  unfold State.logReadbacks
  try dsimp only
  repeat' first
    | with_reducible assumption
    | with_reducible apply State.logEvent_frame
    | with_reducible apply OnlyChanges.foldl
    | split
    | (intro)
    | with_reducible apply OnlyChanges.upd
    | with_reducible rfl
    | exact Or.inl rfl
    | (apply Or.inr; with_reducible assumption)

theorem State.takeSpare_frame {fs : List Part} {s0 : State} (bad : List (Nat × Nat)) (d : Detected) (n : Nat) (s : State)
    (h : OnlyChanges fs s0 s) (m_arr : Part.arr ∈ fs) (m_flt : Part.flt ∈ fs) (m_out : Part.out ∈ fs)
        (m_pins : Part.pins ∈ fs) : OnlyChanges fs s0 (s.takeSpare bad d n).2 := by
  induction n generalizing s with
  | zero => exact h
  | succ n ih =>
    unfold State.takeSpare
    split
    · exact h
    · dsimp only
      split
      · exact State.logReadbacks_frame _ _ _ h m_flt m_out m_pins
      · apply ih
        apply State.logEvent_frame <;> first | assumption | skip
        apply State.retireArray_frame <;> first | assumption | skip
        exact State.logReadbacks_frame _ _ _ h m_flt m_out m_pins

theorem State.replaceArray_frame {fs : List Part} {s0 : State} (x1 : Nat) (x2 : List (Nat × Nat)) (x3 : Detected) (s : State)
    (h : OnlyChanges fs s0 s) (m_acc : Part.acc ∈ fs) (m_arr : Part.arr ∈ fs) (m_flt : Part.flt ∈ fs)
    (m_gait : Part.gait ∈ fs) (m_grp : Part.grp ∈ fs) (m_img : Part.img ∈ fs) (m_jobs : Part.jobs ∈ fs)
    (m_led : Part.led ∈ fs) (m_mem : Part.mem ∈ fs) (m_out : Part.out ∈ fs) (m_pins : Part.pins ∈ fs)
    (m_rings : Part.rings ∈ fs) (m_tally : Part.tally ∈ fs) :
    OnlyChanges fs s0 (State.replaceArray s x1 x2 x3) := by
  unfold State.replaceArray
  have hk := State.takeSpare_frame x2 x3 2 s h m_arr m_flt m_out m_pins
  split
  all_goals
    rename_i e
    rw [e] at hk
    dsimp only at hk
    repeat' first
      | with_reducible assumption
      | with_reducible apply State.remountOnto_frame
      | with_reducible apply State.refoldAt_frame
      | with_reducible apply State.leaveTandem_frame
      | with_reducible apply OnlyChanges.foldl
      | split
      | (intro)

theorem State.retireSlot_frame {fs : List Part} {s0 : State} (x1 : Nat) (x2 : Nat) (s : State) (h : OnlyChanges fs s0 s)
    (m_arr : Part.arr ∈ fs) :
    OnlyChanges fs s0 (State.retireSlot s x1 x2) := by
  unfold State.retireSlot
  try dsimp only
  repeat' first
    | with_reducible assumption
    | with_reducible apply OnlyChanges.foldl
    | split
    | (intro)
    | with_reducible apply OnlyChanges.upd
    | with_reducible rfl
    | exact Or.inl rfl
    | (apply Or.inr; with_reducible assumption)

theorem State.moveSlot_frame {fs : List Part} {s0 : State} (s : State) (h : OnlyChanges fs s0 s) (p sl : Nat) (d : Detected)
    (m_arr : Part.arr ∈ fs) (m_flt : Part.flt ∈ fs) (m_out : Part.out ∈ fs) (m_pins : Part.pins ∈ fs) (t : State)
    (e : s.moveSlot p sl d = some t) : OnlyChanges fs s0 t := by
  unfold State.moveSlot at e
  dsimp only at e
  rw [Option.map_eq_some_iff] at e
  obtain ⟨k, -, rfl⟩ := e
  refine State.logEvent_frame _ _ _ _ _ _ (State.retireSlot_frame _ _ _ ?_ m_arr) m_flt m_out m_pins
  exact OnlyChanges.foldl _ h (fun x t ht => State.relocate_frame _ _ _ _ _ ht m_arr)

theorem State.suspendLost_frame {fs : List Part} {s0 : State} (s : State) (h : OnlyChanges fs s0 s) (p sl : Nat)
    (d : Detected) (m_acc : Part.acc ∈ fs) (m_gait : Part.gait ∈ fs) (m_grp : Part.grp ∈ fs) (m_jobs : Part.jobs ∈ fs)
    (m_led : Part.led ∈ fs) (m_mem : Part.mem ∈ fs) (m_out : Part.out ∈ fs) (m_rings : Part.rings ∈ fs)
    (m_tally : Part.tally ∈ fs) (m_arr : Part.arr ∈ fs) (m_flt : Part.flt ∈ fs) (m_pins : Part.pins ∈ fs) (t : State)
    (e : s.suspendLost p sl d = some t) : OnlyChanges fs s0 t := by
  have key : ∀ (u : State) (x : Arrays), OnlyChanges fs s0 u → OnlyChanges fs s0 { u with arr := x } := by
    intro u x hu
    apply OnlyChanges.upd rfl hu <;> first | exact Or.inl rfl | exact Or.inr m_arr | rfl
  unfold State.suspendLost at e
  dsimp only at e
  split at e
  · cases e
  · injection e with e
    subst e
    refine State.logEvent_frame _ _ _ _ _ _ (State.retireSlot_frame _ _ _ ?_ m_arr) m_flt m_out m_pins
    refine OnlyChanges.foldl _ ?_ (fun x t ht => key _ _ ht)
    refine OnlyChanges.foldl _ h (fun x t ht => ?_)
    apply State.suspendModels_frame <;> assumption

theorem State.ladderSlot_frame {fs : List Part} {s0 : State} (x1 : Nat) (x2 : List (Nat × Nat)) (x3 : Detected) (s : State)
    (h : OnlyChanges fs s0 s) (m_acc : Part.acc ∈ fs) (m_arr : Part.arr ∈ fs) (m_flt : Part.flt ∈ fs)
    (m_gait : Part.gait ∈ fs) (m_grp : Part.grp ∈ fs) (m_img : Part.img ∈ fs) (m_jobs : Part.jobs ∈ fs)
    (m_led : Part.led ∈ fs) (m_mem : Part.mem ∈ fs) (m_out : Part.out ∈ fs) (m_pins : Part.pins ∈ fs)
    (m_rings : Part.rings ∈ fs) (m_tally : Part.tally ∈ fs) :
    OnlyChanges fs s0 (State.ladderSlot s x1 x2 x3) := by
  unfold State.ladderSlot
  split
  · rename_i t e
    rw [Option.or_eq_some_iff] at e
    rcases e with e | ⟨-, e⟩
    · apply State.suspendLost_frame s h _ _ _ (e := e) <;> assumption
    · apply State.moveSlot_frame s h _ _ _ (e := e) <;> assumption
  · apply State.replaceArray_frame <;> assumption

theorem State.ladderArray_frame {fs : List Part} {s0 : State} (x1 : List (Nat × Nat)) (x2 : Detected) (s : State)
    (h : OnlyChanges fs s0 s) (m_acc : Part.acc ∈ fs) (m_arr : Part.arr ∈ fs) (m_flt : Part.flt ∈ fs)
    (m_gait : Part.gait ∈ fs) (m_grp : Part.grp ∈ fs) (m_img : Part.img ∈ fs) (m_jobs : Part.jobs ∈ fs)
    (m_led : Part.led ∈ fs) (m_mem : Part.mem ∈ fs) (m_out : Part.out ∈ fs) (m_pins : Part.pins ∈ fs)
    (m_rings : Part.rings ∈ fs) (m_tally : Part.tally ∈ fs) :
    OnlyChanges fs s0 (State.ladderArray s x1 x2) := by
  unfold State.ladderArray
  try dsimp only
  repeat' first
    | with_reducible assumption
    | with_reducible apply State.suspendModels_frame
    | with_reducible apply State.replaceArray_frame
    | with_reducible apply State.logEvent_frame
    | with_reducible apply OnlyChanges.foldl
    | split
    | (intro)

theorem State.retireRowAt_frame {fs : List Part} {s0 : State} (x1 : Nat) (x2 : Nat) (x3 : Nat) (s : State)
    (h : OnlyChanges fs s0 s) (m_arr : Part.arr ∈ fs) :
    OnlyChanges fs s0 (State.retireRowAt s x1 x2 x3) := by
  unfold State.retireRowAt
  try dsimp only
  repeat' first
    | with_reducible assumption
    | with_reducible apply OnlyChanges.foldl
    | split
    | (intro)
    | with_reducible apply OnlyChanges.upd
    | with_reducible rfl
    | exact Or.inl rfl
    | (apply Or.inr; with_reducible assumption)

theorem State.retireRow_frame {fs : List Part} {s0 : State} (s : State) (h : OnlyChanges fs s0 s) (d : Detected)
    (m_arr : Part.arr ∈ fs) (m_flt : Part.flt ∈ fs) (m_out : Part.out ∈ fs) (m_pins : Part.pins ∈ fs) (t : State)
    (e : s.retireRow d = some t) : OnlyChanges fs s0 t := by
  have key : ∀ (u : State) (x : Arrays), OnlyChanges fs s0 u → OnlyChanges fs s0 { u with arr := x } := by
    intro u x hu
    apply OnlyChanges.upd rfl hu <;> first | exact Or.inl rfl | exact Or.inr m_arr | rfl
  unfold State.retireRow at e
  dsimp only at e
  split at e
  · injection e with e
    subst e
    exact State.logEvent_frame _ _ _ _ _ _ (State.retireRowAt_frame _ _ _ _ h m_arr) m_flt m_out m_pins
  · rw [Option.map_eq_some_iff] at e
    obtain ⟨k, -, rfl⟩ := e
    exact State.logEvent_frame _ _ _ _ _ _ (key _ _ (State.retireRowAt_frame _ _ _ _ h m_arr)) m_flt m_out m_pins

theorem State.ladderPart_frame {fs : List Part} {s0 : State} (x1 : List (Nat × Nat)) (x2 : Detected) (s : State)
    (h : OnlyChanges fs s0 s) (m_acc : Part.acc ∈ fs) (m_arr : Part.arr ∈ fs) (m_flt : Part.flt ∈ fs)
    (m_gait : Part.gait ∈ fs) (m_grp : Part.grp ∈ fs) (m_img : Part.img ∈ fs) (m_jobs : Part.jobs ∈ fs)
    (m_led : Part.led ∈ fs) (m_mem : Part.mem ∈ fs) (m_out : Part.out ∈ fs) (m_pins : Part.pins ∈ fs)
    (m_rings : Part.rings ∈ fs) (m_tally : Part.tally ∈ fs) :
    OnlyChanges fs s0 (State.ladderPart s x1 x2) := by
  unfold State.ladderPart
  split
  · apply State.ladderSlot_frame <;> assumption
  · apply State.ladderSlot_frame <;> assumption
  · split
    · cases e : s.retireRow x2 with
      | none => exact h
      | some t => exact State.retireRow_frame s h _ m_arr m_flt m_out m_pins _ e
    · split
      · rename_i t e
        rw [Option.or_eq_some_iff] at e
        rcases e with e | ⟨-, e⟩
        · apply State.suspendLost_frame s h _ _ _ (e := e) <;> assumption
        · apply State.retireRow_frame s h _ (e := e) <;> assumption
      · apply State.ladderSlot_frame <;> assumption
  · apply State.ladderArray_frame <;> assumption

theorem State.arbitrate_frame {fs : List Part} {s0 : State} (x1 : List (Nat × Nat)) (x2 : Bool) (x3 : Detected) (s : State)
    (h : OnlyChanges fs s0 s) (m_acc : Part.acc ∈ fs) (m_arr : Part.arr ∈ fs) (m_flt : Part.flt ∈ fs)
    (m_gait : Part.gait ∈ fs) (m_grp : Part.grp ∈ fs) (m_img : Part.img ∈ fs) (m_jobs : Part.jobs ∈ fs)
    (m_led : Part.led ∈ fs) (m_mem : Part.mem ∈ fs) (m_out : Part.out ∈ fs) (m_pins : Part.pins ∈ fs)
    (m_rings : Part.rings ∈ fs) (m_tally : Part.tally ∈ fs) :
    OnlyChanges fs s0 (State.arbitrate s x1 x2 x3) := by
  unfold State.arbitrate
  dsimp only
  split
  · apply State.ladderPart_frame <;> assumption
  · have hk := State.takeSpare_frame x1 x3 2 s h m_arr m_flt m_out m_pins
    split
    · rename_i e
      rw [e] at hk
      apply State.remountOnto_frame <;> first | exact hk | assumption
    · rename_i e
      rw [e] at hk
      dsimp only at hk
      split
      · apply State.refoldAt_frame <;> first | assumption | skip
        apply State.leaveTandem_frame <;> assumption
      · exact hk

theorem State.beginSave_frame {fs : List Part} {s0 : State} (x1 : Nat) (x2 : Bool) (s : State) (h : OnlyChanges fs s0 s)
    (m_bag : Part.bag ∈ fs) (m_pins : Part.pins ∈ fs) (m_pwr : Part.pwr ∈ fs) :
    OnlyChanges fs s0 (State.beginSave s x1 x2) := by
  unfold State.beginSave
  try dsimp only
  repeat' first
    | with_reducible assumption
    | with_reducible apply State.refreshFault_frame
    | with_reducible apply OnlyChanges.foldl
    | split
    | (intro)
    | with_reducible apply OnlyChanges.upd
    | with_reducible rfl
    | exact Or.inl rfl
    | (apply Or.inr; with_reducible assumption)

theorem State.blockRecordDone_frame {fs : List Part} {s0 : State} (x1 : Nat) (x2 : Nat) (s : State) (h : OnlyChanges fs s0 s)
    (m_ing : Part.ing ∈ fs) :
    OnlyChanges fs s0 (State.blockRecordDone s x1 x2) := by
  unfold State.blockRecordDone
  try dsimp only
  repeat' first
    | with_reducible assumption
    | with_reducible apply State.modPair_frame
    | with_reducible apply OnlyChanges.foldl
    | split
    | (intro)

theorem State.bufferPlace_frame {fs : List Part} {s0 : State} (x1 : Nat) (x2 : Word32) (x3 : JobPlace) (s : State)
    (h : OnlyChanges fs s0 s) (m_acc : Part.acc ∈ fs) (m_gait : Part.gait ∈ fs) (m_grp : Part.grp ∈ fs)
    (m_jobs : Part.jobs ∈ fs) (m_led : Part.led ∈ fs) (m_mem : Part.mem ∈ fs) (m_out : Part.out ∈ fs)
    (m_rings : Part.rings ∈ fs) (m_tally : Part.tally ∈ fs) :
    OnlyChanges fs s0 (State.bufferPlace s x1 x2 x3) := by
  unfold State.bufferPlace
  try dsimp only
  repeat' first
    | with_reducible assumption
    | with_reducible apply State.forget_frame
    | with_reducible apply State.settle_frame
    | with_reducible apply State.voidPlace_frame
    | with_reducible apply OnlyChanges.foldl
    | split
    | (intro)

theorem State.ccc_frame {fs : List Part} {s0 : State} (x1 : Telemetry) (s : State) (h : OnlyChanges fs s0 s)
    (m_tele : Part.tele ∈ fs) :
    OnlyChanges fs s0 (State.ccc s x1) := by
  unfold State.ccc
  try dsimp only
  repeat' first
    | with_reducible assumption
    | with_reducible apply OnlyChanges.foldl
    | split
    | (intro)
    | with_reducible apply OnlyChanges.upd
    | with_reducible rfl
    | exact Or.inl rfl
    | (apply Or.inr; with_reducible assumption)

theorem State.moveKey_frame {fs : List Part} {s0 : State} (x1 : Nat) (x2 : EntityEntry) (s : State) (h : OnlyChanges fs s0 s)
    (m_ent : Part.ent ∈ fs) (m_flt : Part.flt ∈ fs) (m_mem : Part.mem ∈ fs) :
    OnlyChanges fs s0 (State.moveKey s x1 x2) := by
  unfold State.moveKey
  try dsimp only
  repeat' first
    | with_reducible assumption
    | with_reducible apply State.writeKey_frame
    | with_reducible apply State.writeMirror_frame
    | with_reducible apply OnlyChanges.foldl
    | split
    | (intro)
    | with_reducible apply OnlyChanges.upd
    | with_reducible rfl
    | exact Or.inl rfl
    | (apply Or.inr; with_reducible assumption)

theorem State.indexParity_frame {fs : List Part} {s0 : State} (x1 : Nat) (x2 : EntityEntry) (x3 : Bool) (s : State)
    (h : OnlyChanges fs s0 s) (m_ent : Part.ent ∈ fs) (m_flt : Part.flt ∈ fs) (m_mem : Part.mem ∈ fs) (m_out : Part.out ∈ fs)
    (m_pins : Part.pins ∈ fs) :
    OnlyChanges fs s0 (State.indexParity s x1 x2 x3) := by
  unfold State.indexParity
  try dsimp only
  repeat' first
    | with_reducible assumption
    | with_reducible apply State.logEvent_frame
    | with_reducible apply State.moveKey_frame
    | with_reducible apply OnlyChanges.foldl
    | split
    | (intro)
    | with_reducible apply OnlyChanges.upd
    | with_reducible rfl
    | exact Or.inl rfl
    | (apply Or.inr; with_reducible assumption)

theorem State.checkParity_frame {fs : List Part} {s0 : State} (x1 : Word) (x2 : Bool) (s : State) (h : OnlyChanges fs s0 s)
    (m_ent : Part.ent ∈ fs) (m_flt : Part.flt ∈ fs) (m_mem : Part.mem ∈ fs) (m_out : Part.out ∈ fs) (m_pins : Part.pins ∈ fs)
    :
    OnlyChanges fs s0 (State.checkParity s x1 x2) := by
  unfold State.checkParity
  try dsimp only
  repeat' first
    | with_reducible assumption
    | with_reducible apply State.indexParity_frame
    | with_reducible apply OnlyChanges.foldl
    | split
    | (intro)

theorem State.checkKeys_frame {fs : List Part} {s0 : State} (x1 : List UpdateEntry) (x2 : Bool) (s : State)
    (h : OnlyChanges fs s0 s) (m_ent : Part.ent ∈ fs) (m_flt : Part.flt ∈ fs) (m_mem : Part.mem ∈ fs) (m_out : Part.out ∈ fs)
    (m_pins : Part.pins ∈ fs) :
    OnlyChanges fs s0 (State.checkKeys s x1 x2) := by
  unfold State.checkKeys
  try dsimp only
  repeat' first
    | with_reducible assumption
    | with_reducible apply State.checkParity_frame
    | with_reducible apply OnlyChanges.foldl
    | split
    | (intro)

theorem State.checkTwin_frame {fs : List Part} {s0 : State} (x1 : List (Nat × Nat)) (x2 : Nat) (x3 : Nat) (s : State)
    (h : OnlyChanges fs s0 s) (m_acc : Part.acc ∈ fs) (m_arr : Part.arr ∈ fs) (m_flt : Part.flt ∈ fs)
    (m_gait : Part.gait ∈ fs) (m_grp : Part.grp ∈ fs) (m_img : Part.img ∈ fs) (m_jobs : Part.jobs ∈ fs)
    (m_led : Part.led ∈ fs) (m_mem : Part.mem ∈ fs) (m_out : Part.out ∈ fs) (m_pins : Part.pins ∈ fs)
    (m_rings : Part.rings ∈ fs) (m_tally : Part.tally ∈ fs) :
    OnlyChanges fs s0 (State.checkTwin s x1 x2 x3) := by
  unfold State.checkTwin
  try dsimp only
  repeat' first
    | with_reducible assumption
    | with_reducible apply State.logReadbacks_frame
    | with_reducible apply State.replaceArray_frame
    | with_reducible apply State.logEvent_frame
    | with_reducible apply OnlyChanges.foldl
    | split
    | (intro)

theorem State.pauseGroup_frame {fs : List Part} {s0 : State} (x1 : Nat) (s : State) (h : OnlyChanges fs s0 s)
    (m_grp : Part.grp ∈ fs) :
    OnlyChanges fs s0 (State.pauseGroup s x1) := by
  unfold State.pauseGroup
  try dsimp only
  repeat' first
    | with_reducible assumption
    | with_reducible apply State.modGroup_frame
    | with_reducible apply OnlyChanges.foldl
    | split
    | (intro)

theorem State.enqueueFault_frame {fs : List Part} {s0 : State} (x1 : Detected) (s : State) (h : OnlyChanges fs s0 s)
    (m_flt : Part.flt ∈ fs) (m_grp : Part.grp ∈ fs) :
    OnlyChanges fs s0 (State.enqueueFault s x1) := by
  unfold State.enqueueFault
  try dsimp only
  repeat' first
    | with_reducible assumption
    | with_reducible apply State.pauseGroup_frame
    | with_reducible apply OnlyChanges.foldl
    | split
    | (intro)
    | with_reducible apply OnlyChanges.upd
    | with_reducible rfl
    | exact Or.inl rfl
    | (apply Or.inr; with_reducible assumption)

theorem State.failAttempt_frame {fs : List Part} {s0 : State} (x1 : Attempt) (x2 : Detected) (s : State)
    (h : OnlyChanges fs s0 s) (m_flt : Part.flt ∈ fs) (m_grp : Part.grp ∈ fs) :
    OnlyChanges fs s0 (State.failAttempt s x1 x2) := by
  unfold State.failAttempt
  try dsimp only
  repeat' first
    | with_reducible assumption
    | with_reducible apply State.modGroup_frame
    | with_reducible apply State.pauseGroup_frame
    | with_reducible apply State.enqueueFault_frame
    | with_reducible apply OnlyChanges.foldl
    | split
    | (intro)
    | with_reducible apply OnlyChanges.upd
    | with_reducible rfl
    | exact Or.inl rfl
    | (apply Or.inr; with_reducible assumption)

theorem State.modAttempt_frame {fs : List Part} {s0 : State} (x1 : Nat) (x2 : Attempt → Attempt) (s : State)
    (h : OnlyChanges fs s0 s) (m_grp : Part.grp ∈ fs) :
    OnlyChanges fs s0 (State.modAttempt s x1 x2) := by
  unfold State.modAttempt
  try dsimp only
  repeat' first
    | with_reducible assumption
    | with_reducible apply OnlyChanges.foldl
    | split
    | (intro)
    | with_reducible apply OnlyChanges.upd
    | with_reducible rfl
    | exact Or.inl rfl
    | (apply Or.inr; with_reducible assumption)

theorem State.chordNode_frame {fs : List Part} {s0 : State} (x1 : Attempt) (x2 : ModelDef) (x3 : Nat) (x4 : Nat)
    (x5 : List Partial) (x6 : List Partial) (x7 : List Nat) (s : State) (h : OnlyChanges fs s0 s) (m_flt : Part.flt ∈ fs)
    (m_grp : Part.grp ∈ fs) (m_sel : Part.sel ∈ fs) :
    OnlyChanges fs s0 (State.chordNode s x1 x2 x3 x4 x5 x6 x7) := by
  unfold State.chordNode
  try dsimp only
  repeat' first
    | with_reducible assumption
    | with_reducible apply State.failAttempt_frame
    | with_reducible apply State.modAttempt_frame
    | with_reducible apply OnlyChanges.foldl
    | split
    | (intro)
    | with_reducible apply OnlyChanges.upd
    | with_reducible rfl
    | exact Or.inl rfl
    | (apply Or.inr; with_reducible assumption)

theorem State.claim_frame {fs : List Part} {s0 : State} (x1 : Nat) (s : State) (h : OnlyChanges fs s0 s)
    (m_acc : Part.acc ∈ fs) (m_jobs : Part.jobs ∈ fs) :
    OnlyChanges fs s0 (State.claim s x1) := by
  unfold State.claim
  try dsimp only
  repeat' first
    | with_reducible assumption
    | with_reducible apply State.modJob_frame
    | with_reducible apply State.ensurePlace_frame
    | with_reducible apply OnlyChanges.foldl
    | split
    | (intro)

theorem State.claimAll_frame {fs : List Part} {s0 : State} (x1 : Job) (s : State) (h : OnlyChanges fs s0 s)
    (m_acc : Part.acc ∈ fs) (m_jobs : Part.jobs ∈ fs) :
    OnlyChanges fs s0 (State.claimAll s x1) := by
  unfold State.claimAll
  try dsimp only
  repeat' first
    | with_reducible assumption
    | with_reducible apply State.claim_frame
    | with_reducible apply OnlyChanges.foldl
    | split
    | (intro)

theorem State.ladder_frame {fs : List Part} {s0 : State} (x1 : List (Nat × Nat)) (x2 : Bool) (x3 : Detected) (s : State)
    (h : OnlyChanges fs s0 s) (m_acc : Part.acc ∈ fs) (m_arr : Part.arr ∈ fs) (m_flt : Part.flt ∈ fs)
    (m_gait : Part.gait ∈ fs) (m_grp : Part.grp ∈ fs) (m_img : Part.img ∈ fs) (m_jobs : Part.jobs ∈ fs)
    (m_led : Part.led ∈ fs) (m_mem : Part.mem ∈ fs) (m_out : Part.out ∈ fs) (m_pins : Part.pins ∈ fs)
    (m_rings : Part.rings ∈ fs) (m_tally : Part.tally ∈ fs) :
    OnlyChanges fs s0 (State.ladder s x1 x2 x3) := by
  unfold State.ladder
  try dsimp only
  repeat' first
    | with_reducible assumption
    | with_reducible apply State.putOut_frame
    | with_reducible apply State.retireArray_frame
    | with_reducible apply State.arbitrate_frame
    | with_reducible apply State.ladderPart_frame
    | with_reducible apply OnlyChanges.foldl
    | split
    | (intro)

theorem State.restoreItem_frame {fs : List Part} {s0 : State} (x1 : Nat) (x2 : Nat) (x3 : Item) (s : State)
    (h : OnlyChanges fs s0 s) (m_arr : Part.arr ∈ fs) :
    OnlyChanges fs s0 (State.restoreItem s x1 x2 x3) := by
  unfold State.restoreItem
  try dsimp only
  repeat' first
    | with_reducible assumption
    | with_reducible apply OnlyChanges.foldl
    | split
    | (intro)
    | with_reducible apply OnlyChanges.upd
    | with_reducible rfl
    | exact Or.inl rfl
    | (apply Or.inr; with_reducible assumption)

theorem State.rewritePart_frame {fs : List Part} {s0 : State} (x1 : Detected) (s : State) (h : OnlyChanges fs s0 s)
    (m_arr : Part.arr ∈ fs) :
    OnlyChanges fs s0 (State.rewritePart s x1) := by
  unfold State.rewritePart
  try dsimp only
  repeat' first
    | with_reducible assumption
    | with_reducible apply State.restoreItem_frame
    | with_reducible apply OnlyChanges.foldl
    | split
    | (intro)
    | with_reducible apply OnlyChanges.upd
    | with_reducible rfl
    | exact Or.inl rfl
    | (apply Or.inr; with_reducible assumption)

theorem State.disturb_frame {fs : List Part} {s0 : State} (x1 : Upset) (s : State) (h : OnlyChanges fs s0 s)
    (m_acc : Part.acc ∈ fs) (m_arr : Part.arr ∈ fs) (m_tally : Part.tally ∈ fs) :
    OnlyChanges fs s0 (State.disturb s x1) := by
  unfold State.disturb
  try dsimp only
  repeat' first
    | with_reducible assumption
    | with_reducible apply OnlyChanges.foldl
    | split
    | (intro)
    | with_reducible apply OnlyChanges.upd
    | with_reducible rfl
    | exact Or.inl rfl
    | (apply Or.inr; with_reducible assumption)

theorem State.disturbAll_frame {fs : List Part} {s0 : State} (x1 : List Upset) (s : State) (h : OnlyChanges fs s0 s)
    (m_acc : Part.acc ∈ fs) (m_arr : Part.arr ∈ fs) (m_tally : Part.tally ∈ fs) :
    OnlyChanges fs s0 (State.disturbAll s x1) := by
  unfold State.disturbAll
  try dsimp only
  repeat' first
    | with_reducible assumption
    | with_reducible apply State.disturb_frame
    | with_reducible apply OnlyChanges.foldl
    | split
    | (intro)

theorem State.loadBuffers_frame {fs : List Part} {s0 : State} (x1 : Group) (x2 : FeaturePlace) (x3 : List Upset) (s : State)
    (h : OnlyChanges fs s0 s) (m_acc : Part.acc ∈ fs) (m_arr : Part.arr ∈ fs) (m_tally : Part.tally ∈ fs) :
    OnlyChanges fs s0 (State.loadBuffers s x1 x2 x3) := by
  unfold State.loadBuffers
  try dsimp only
  repeat' first
    | with_reducible assumption
    | with_reducible apply State.disturbAll_frame
    | with_reducible apply OnlyChanges.foldl
    | split
    | (intro)
    | with_reducible apply OnlyChanges.upd
    | with_reducible rfl
    | exact Or.inl rfl
    | (apply Or.inr; with_reducible assumption)

theorem State.searchSlot_frame {fs : List Part} {s0 : State} (s : State) (h : OnlyChanges fs s0 s) (a : Attempt)
    (p k n : Nat) (w : Word) (d : BitVec 10) (m : ModelDef) (m_grp : Part.grp ∈ fs) (m_sel : Part.sel ∈ fs) :
    OnlyChanges fs s0 (s.searchSlot a p k n w d m).state := by
  have key : ∀ (x : Selects) (y : Groups), OnlyChanges fs s0 { s with sel := x, grp := y } := by
    intro x y
    apply OnlyChanges.upd rfl h <;> first | exact Or.inl rfl | exact Or.inr m_sel | exact Or.inr m_grp | rfl
  unfold State.searchSlot
  dsimp only
  split
  · exact key _ _
  · exact key _ _

theorem State.searchToken_frame {fs : List Part} {s0 : State} (s : State) (h : OnlyChanges fs s0 s) (a : Attempt)
    (p k n : Nat) (m : ModelDef) (m_grp : Part.grp ∈ fs) (m_sel : Part.sel ∈ fs) :
    OnlyChanges fs s0 (s.searchToken a p k n m).state := by
  unfold State.searchToken
  repeat' first
    | exact h
    | exact State.searchSlot_frame s h _ _ _ _ _ _ _ m_grp m_sel
    | split

theorem State.searchBoth_frame {fs : List Part} {s0 : State} (s : State) (h : OnlyChanges fs s0 s) (a : Attempt)
    (p k n : Nat) (m : ModelDef) (m_grp : Part.grp ∈ fs) (m_sel : Part.sel ∈ fs) :
    OnlyChanges fs s0 (s.searchBoth a p k n m).state := by
  have h1 := State.searchToken_frame s h a p k n m m_grp m_sel
  unfold State.searchBoth
  dsimp only
  split
  · exact State.searchToken_frame _ h1 _ _ _ _ _ m_grp m_sel
  · exact h1

theorem State.searchAll_frame {fs : List Part} {s0 : State} (s : State) (h : OnlyChanges fs s0 s) (a : Attempt)
    (m : ModelDef) (m_grp : Part.grp ∈ fs) (m_sel : Part.sel ∈ fs) :
    OnlyChanges fs s0 (s.searchAll a m).state := by
  have inner : ∀ (n : Nat) (ws : List (Nat × Word)) (r : Searched), OnlyChanges fs s0 r.state → OnlyChanges fs s0
      (ws.foldl (fun (r : Searched) w =>
        if w.1 % 16 = n % 16 then
          let t := r.state.searchBoth r.attempt (w.1 / 256) (w.1 % 256 / 16) n m
          { t with fault := r.fault.or t.fault }
        else r) r).state := by
    intro n ws
    induction ws with
    | nil => intro r hr; exact hr
    | cons w ws ih =>
      intro r hr
      rw [List.foldl_cons]
      apply ih
      split
      · exact State.searchBoth_frame _ hr _ _ _ _ _ m_grp m_sel
      · exact hr
  unfold State.searchAll
  dsimp only
  generalize List.range (16 * a.depth) = ns
  have outer : ∀ r : Searched, OnlyChanges fs s0 r.state → OnlyChanges fs s0 (ns.foldl (fun (r : Searched) n =>
      (a.words.filter (fun w => decide (w.1 / 256 < a.base + a.size))).foldl (fun (r : Searched) w =>
        if w.1 % 16 = n % 16 then
          let t := r.state.searchBoth r.attempt (w.1 / 256) (w.1 % 256 / 16) n m
          { t with fault := r.fault.or t.fault }
        else r) r) r).state := by
    induction ns with
    | nil => intro r hr; exact hr
    | cons n ns ih =>
      intro r hr
      rw [List.foldl_cons]
      exact ih _ (inner n _ r hr)
  exact outer ⟨a, s, none⟩ h

theorem State.repeatPass_frame {fs : List Part} {s0 : State} (s : State) (h : OnlyChanges fs s0 s) (g : Group) (j : Job)
    (x : Head) (m : ModelDef) (ups : List Upset) (w : PassRef)
    (m_acc : Part.acc ∈ fs) (m_arr : Part.arr ∈ fs) (m_grp : Part.grp ∈ fs) (m_sel : Part.sel ∈ fs)
        (m_tally : Part.tally ∈ fs) : OnlyChanges fs s0 (s.repeatPass g j x m ups w).1 := by
  unfold State.repeatPass
  extract_lets tremolo s1 a
  have h1 : OnlyChanges fs s0 s1 := by
    apply State.disturbAll_frame <;> first | assumption | skip
    apply State.loadBuffers_frame <;> assumption
  split
  · exact h1
  · exact State.searchAll_frame s1 h1 _ _ m_grp m_sel

theorem State.repeatPasses_frame {fs : List Part} {s0 : State} (s : State) (h : OnlyChanges fs s0 s) (g : Group) (j : Job)
    (x : Head) (m : ModelDef) (ups : List Upset) (ws : List PassRef)
    (m_acc : Part.acc ∈ fs) (m_arr : Part.arr ∈ fs) (m_grp : Part.grp ∈ fs) (m_sel : Part.sel ∈ fs)
        (m_tally : Part.tally ∈ fs) : OnlyChanges fs s0 (s.repeatPasses g j x m ups ws).1 := by
  induction ws generalizing s ups with
  | nil => exact h
  | cons w ws ih =>
    have h1 := State.repeatPass_frame s h g j x m ups w m_acc m_arr m_grp m_sel m_tally
    unfold State.repeatPasses
    split
    · rename_i e; rw [e] at h1; exact h1
    · rename_i e; rw [e] at h1; exact ih _ h1 _

theorem State.retry_frame {fs : List Part} {s0 : State} (s : State) (h : OnlyChanges fs s0 s) (d : Detected)
    (ups : List Upset) (m_acc : Part.acc ∈ fs) (m_arr : Part.arr ∈ fs) (m_grp : Part.grp ∈ fs) (m_sel : Part.sel ∈ fs)
    (m_tally : Part.tally ∈ fs) : OnlyChanges fs s0 (s.retry d ups).1 := by
  have hd : OnlyChanges fs s0 (s.disturbAll ups) := by apply State.disturbAll_frame <;> assumption
  unfold State.retry
  split
  · split
    · exact State.repeatPasses_frame s h _ _ _ _ _ _ m_acc m_arr m_grp m_sel m_tally
    · exact hd
  · exact hd

theorem State.classify_frame {fs : List Part} {s0 : State} (x1 : Detected) (x2 : List Upset) (x3 : List (Nat × Nat))
    (x4 : Bool) (s : State) (h : OnlyChanges fs s0 s) (m_acc : Part.acc ∈ fs) (m_arr : Part.arr ∈ fs) (m_flt : Part.flt ∈ fs)
    (m_gait : Part.gait ∈ fs) (m_grp : Part.grp ∈ fs) (m_img : Part.img ∈ fs) (m_jobs : Part.jobs ∈ fs)
    (m_led : Part.led ∈ fs) (m_mem : Part.mem ∈ fs) (m_out : Part.out ∈ fs) (m_pins : Part.pins ∈ fs)
    (m_rings : Part.rings ∈ fs) (m_sel : Part.sel ∈ fs) (m_tally : Part.tally ∈ fs) :
    OnlyChanges fs s0 (State.classify s x1 x2 x3 x4) := by
  have keyflt : ∀ (u : State) (x : Faults), OnlyChanges fs s0 u → OnlyChanges fs s0 { u with flt := x } := by
    intro u x hu
    apply OnlyChanges.upd rfl hu <;> first | exact Or.inl rfl | exact Or.inr m_flt | rfl
  have hl : ∀ u : State, OnlyChanges fs s0 u → OnlyChanges fs s0
      ((u.logEvent x1.check clsLasting 0 x1 x1.detail).ladder x3 x4 x1) := by
    intro u hu
    apply State.ladder_frame <;> first | assumption | skip
    exact State.logEvent_frame _ _ _ _ _ _ hu m_flt m_out m_pins
  unfold State.classify
  extract_lets lasting
  split
  · rename_i t e
    rw [Option.bind_eq_some_iff] at e
    obtain ⟨sl, -, e⟩ := e
    have hk := State.logEvent_frame x1.check clsLasting 0 x1 x1.detail s h m_flt m_out m_pins
    apply State.suspendLost_frame _ hk _ _ _ (e := e) <;> assumption
  · split
    · exact hl _ h
    · have hr := State.retry_frame (s.rewritePart x1) (by apply State.rewritePart_frame <;> assumption) x1 x2
        m_acc m_arr m_grp m_sel m_tally
      split
      rename_i s1 again e
      rw [e] at hr
      dsimp only at hr ⊢
      split
      · exact hl _ hr
      · have h2 := State.logEvent_frame x1.check clsTransient 0 x1 x1.detail _ (keyflt s1 (s1.flt.addTrans x1.part) hr) m_flt
          m_out m_pins
        split
        · apply State.enqueueFault_frame <;> assumption
        · exact h2

theorem State.transientLine_frame {fs : List Part} {s0 : State} (x1 : Nat) (s : State) (h : OnlyChanges fs s0 s)
    (m_flt : Part.flt ∈ fs) (m_out : Part.out ∈ fs) (m_pins : Part.pins ∈ fs) :
    OnlyChanges fs s0 (State.transientLine s x1) := by
  unfold State.transientLine
  try dsimp only
  repeat' first
    | with_reducible assumption
    | with_reducible apply State.logEvent_frame
    | with_reducible apply OnlyChanges.foldl
    | split
    | (intro)
    | with_reducible apply OnlyChanges.upd
    | with_reducible rfl
    | exact Or.inl rfl
    | (apply Or.inr; with_reducible assumption)

theorem State.cleanLine_frame {fs : List Part} {s0 : State} (x1 : Nat) (x2 : List Byte) (s : State) (h : OnlyChanges fs s0 s)
    (m_ent : Part.ent ∈ fs) (m_flt : Part.flt ∈ fs) (m_mem : Part.mem ∈ fs) (m_out : Part.out ∈ fs) (m_pins : Part.pins ∈ fs)
    :
    OnlyChanges fs s0 (State.cleanLine s x1 x2) := by
  unfold State.cleanLine
  try dsimp only
  repeat' first
    | with_reducible assumption
    | with_reducible apply State.writeBack_frame
    | with_reducible apply State.transientLine_frame
    | with_reducible apply State.acceptLine_frame
    | with_reducible apply OnlyChanges.foldl
    | split
    | (intro)
    | with_reducible apply OnlyChanges.upd
    | with_reducible rfl
    | exact Or.inl rfl
    | (apply Or.inr; with_reducible assumption)

theorem State.clearAvsErr_frame {fs : List Part} {s0 : State} (x1 : Word) (s : State) (h : OnlyChanges fs s0 s)
    (m_gait : Part.gait ∈ fs) (m_out : Part.out ∈ fs) :
    OnlyChanges fs s0 (State.clearAvsErr s x1) := by
  unfold State.clearAvsErr
  try dsimp only
  repeat' first
    | with_reducible assumption
    | with_reducible apply State.retarget_frame
    | with_reducible apply OnlyChanges.foldl
    | split
    | (intro)
    | with_reducible apply OnlyChanges.upd
    | with_reducible rfl
    | exact Or.inl rfl
    | (apply Or.inr; with_reducible assumption)

theorem State.clearLostBuckets_frame {fs : List Part} {s0 : State}  (s : State) (h : OnlyChanges fs s0 s)
    (m_ent : Part.ent ∈ fs) :
    OnlyChanges fs s0 (State.clearLostBuckets s) := by
  unfold State.clearLostBuckets
  try dsimp only
  repeat' first
    | with_reducible assumption
    | with_reducible apply OnlyChanges.foldl
    | split
    | (intro)
    | with_reducible apply OnlyChanges.upd
    | with_reducible rfl
    | exact Or.inl rfl
    | (apply Or.inr; with_reducible assumption)

theorem State.cold_frame {fs : List Part} {s0 : State}  (s : State) (h : OnlyChanges fs s0 s) (m_acc : Part.acc ∈ fs)
    (m_arr : Part.arr ∈ fs) (m_ent : Part.ent ∈ fs) (m_flt : Part.flt ∈ fs) (m_gait : Part.gait ∈ fs) (m_grp : Part.grp ∈ fs)
    (m_img : Part.img ∈ fs) (m_ing : Part.ing ∈ fs) (m_jobs : Part.jobs ∈ fs) (m_led : Part.led ∈ fs)
    (m_link : Part.link ∈ fs) (m_live : Part.live ∈ fs) (m_mem : Part.mem ∈ fs) (m_mnt : Part.mnt ∈ fs)
    (m_pins : Part.pins ∈ fs) (m_pwr : Part.pwr ∈ fs) (m_rings : Part.rings ∈ fs) (m_sel : Part.sel ∈ fs)
    (m_shadow : Part.shadow ∈ fs) (m_snd : Part.snd ∈ fs) (m_tally : Part.tally ∈ fs) (m_tap : Part.tap ∈ fs) :
    OnlyChanges fs s0 (State.cold s) := by
  unfold State.cold
  try dsimp only
  repeat' first
    | with_reducible assumption
    | with_reducible apply OnlyChanges.foldl
    | split
    | (intro)
    | with_reducible apply OnlyChanges.upd
    | with_reducible rfl
    | exact Or.inl rfl
    | (apply Or.inr; with_reducible assumption)

theorem State.releaseStream_frame {fs : List Part} {s0 : State} (x1 : Nat) (s : State) (h : OnlyChanges fs s0 s)
    (m_acc : Part.acc ∈ fs) (m_ing : Part.ing ∈ fs) (m_out : Part.out ∈ fs) (m_pwr : Part.pwr ∈ fs) :
    OnlyChanges fs s0 (State.releaseStream s x1) := by
  unfold State.releaseStream
  try dsimp only
  repeat' first
    | with_reducible assumption
    | with_reducible apply State.refreshHeld_frame
    | with_reducible apply State.advanceRelease_frame
    | with_reducible apply OnlyChanges.foldl
    | split
    | (intro)

theorem State.committedOne_frame {fs : List Part} {s0 : State} (x1 : Job) (x2 : Bool) (x3 : Bool) (s : State)
    (h : OnlyChanges fs s0 s) (m_acc : Part.acc ∈ fs) (m_gait : Part.gait ∈ fs) (m_ing : Part.ing ∈ fs)
    (m_jobs : Part.jobs ∈ fs) (m_led : Part.led ∈ fs) (m_mem : Part.mem ∈ fs) (m_out : Part.out ∈ fs) (m_pwr : Part.pwr ∈ fs)
    (m_rings : Part.rings ∈ fs) (m_tally : Part.tally ∈ fs) :
    OnlyChanges fs s0 (State.committedOne s x1 x2 x3) := by
  unfold State.committedOne
  try dsimp only
  repeat' first
    | with_reducible assumption
    | with_reducible apply State.modJob_frame
    | with_reducible apply State.releaseStream_frame
    | with_reducible apply State.pay_frame
    | with_reducible apply State.finishJob_frame
    | with_reducible apply State.releaseTiles_frame
    | with_reducible apply OnlyChanges.foldl
    | split
    | (intro)

theorem State.commitPlace_frame {fs : List Part} {s0 : State} (x1 : Job) (x2 : Nat) (x3 : JobPlace) (s : State)
    (h : OnlyChanges fs s0 s) (m_acc : Part.acc ∈ fs) (m_gait : Part.gait ∈ fs) (m_ing : Part.ing ∈ fs)
    (m_jobs : Part.jobs ∈ fs) (m_led : Part.led ∈ fs) (m_mem : Part.mem ∈ fs) (m_out : Part.out ∈ fs) (m_pwr : Part.pwr ∈ fs)
    (m_rings : Part.rings ∈ fs) (m_tally : Part.tally ∈ fs) :
    OnlyChanges fs s0 (State.commitPlace s x1 x2 x3) := by
  unfold State.commitPlace
  try dsimp only
  repeat' first
    | with_reducible assumption
    | with_reducible apply State.modPlace_frame
    | with_reducible apply State.committedOne_frame
    | with_reducible apply State.writeEntry_frame
    | with_reducible apply OnlyChanges.foldl
    | split
    | (intro)

theorem State.commitSpecial_frame {fs : List Part} {s0 : State} (x1 : Job) (x2 : Nat) (x3 : Nat) (s : State)
    (h : OnlyChanges fs s0 s) (m_acc : Part.acc ∈ fs) (m_gait : Part.gait ∈ fs) (m_ing : Part.ing ∈ fs)
    (m_jobs : Part.jobs ∈ fs) (m_led : Part.led ∈ fs) (m_mem : Part.mem ∈ fs) (m_out : Part.out ∈ fs) (m_pwr : Part.pwr ∈ fs)
    (m_rings : Part.rings ∈ fs) (m_tally : Part.tally ∈ fs) :
    OnlyChanges fs s0 (State.commitSpecial s x1 x2 x3) := by
  unfold State.commitSpecial
  try dsimp only
  repeat' first
    | with_reducible assumption
    | with_reducible apply State.committedOne_frame
    | with_reducible apply State.writeEntry_frame
    | with_reducible apply State.countVoided_frame
    | with_reducible apply OnlyChanges.foldl
    | split
    | (intro)

theorem State.completePatch_frame {fs : List Part} {s0 : State} (x1 : PatchJob) (s : State) (h : OnlyChanges fs s0 s)
    (m_arr : Part.arr ∈ fs) (m_gait : Part.gait ∈ fs) (m_grp : Part.grp ∈ fs) (m_img : Part.img ∈ fs)
    (m_jobs : Part.jobs ∈ fs) (m_led : Part.led ∈ fs) (m_mem : Part.mem ∈ fs) (m_out : Part.out ∈ fs)
    (m_rings : Part.rings ∈ fs) :
    OnlyChanges fs s0 (State.completePatch s x1) := by
  unfold State.completePatch
  try dsimp only
  repeat' first
    | with_reducible assumption
    | with_reducible apply State.applyPatch_frame
    | with_reducible apply OnlyChanges.foldl
    | split
    | (intro)

theorem State.requestRelease_frame {fs : List Part} {s0 : State} (x1 : Nat) (x2 : Word32) (s : State)
    (h : OnlyChanges fs s0 s) (m_acc : Part.acc ∈ fs) (m_ing : Part.ing ∈ fs) (m_out : Part.out ∈ fs) (m_pwr : Part.pwr ∈ fs)
    :
    OnlyChanges fs s0 (State.requestRelease s x1 x2) := by
  unfold State.requestRelease
  try dsimp only
  repeat' first
    | with_reducible assumption
    | with_reducible apply State.releaseStream_frame
    | with_reducible apply State.modStream_frame
    | with_reducible apply OnlyChanges.foldl
    | split
    | (intro)

theorem State.completeRelease_frame {fs : List Part} {s0 : State} (x1 : Nat) (s : State) (h : OnlyChanges fs s0 s)
    (m_acc : Part.acc ∈ fs) (m_gait : Part.gait ∈ fs) (m_ing : Part.ing ∈ fs) (m_jobs : Part.jobs ∈ fs)
    (m_led : Part.led ∈ fs) (m_mem : Part.mem ∈ fs) (m_out : Part.out ∈ fs) (m_pwr : Part.pwr ∈ fs)
    (m_rings : Part.rings ∈ fs) :
    OnlyChanges fs s0 (State.completeRelease s x1) := by
  unfold State.completeRelease
  try dsimp only
  repeat' first
    | with_reducible assumption
    | with_reducible apply State.requestRelease_frame
    | with_reducible apply State.finishJob_frame
    | with_reducible apply OnlyChanges.foldl
    | split
    | (intro)

theorem State.copyImage_frame {fs : List Part} {s0 : State} (x1 : Bool) (x2 : List Byte) (s : State)
    (h : OnlyChanges fs s0 s) (m_mem : Part.mem ∈ fs) :
    OnlyChanges fs s0 (State.copyImage s x1 x2) := by
  unfold State.copyImage
  try dsimp only
  repeat' first
    | with_reducible assumption
    | with_reducible apply State.copyWrite_frame
    | with_reducible apply OnlyChanges.foldl
    | split
    | (intro)

theorem State.copyPage_frame {fs : List Part} {s0 : State} (x1 : State) (x2 : Nat) (s : State) (h : OnlyChanges fs s0 s)
    (m_mem : Part.mem ∈ fs) :
    OnlyChanges fs s0 (State.copyPage s x1 x2) := by
  unfold State.copyPage
  split
  · exact h
  · exact State.write_frame _ _ _ (State.write_frame _ _ _ h m_mem) m_mem

theorem State.copyTwin_frame {fs : List Part} {s0 : State} (x1 : Nat) (s : State) (h : OnlyChanges fs s0 s)
    (m_arr : Part.arr ∈ fs) :
    OnlyChanges fs s0 (State.copyTwin s x1) := by
  unfold State.copyTwin
  try dsimp only
  repeat' first
    | with_reducible assumption
    | with_reducible apply State.avoidOn_frame
    | with_reducible apply OnlyChanges.foldl
    | split
    | (intro)
    | with_reducible apply OnlyChanges.upd
    | with_reducible rfl
    | exact Or.inl rfl
    | (apply Or.inr; with_reducible assumption)

theorem State.retirePage_frame {fs : List Part} {s0 : State} (x1 : Nat) (s : State) (h : OnlyChanges fs s0 s)
    (m_flt : Part.flt ∈ fs) (m_mem : Part.mem ∈ fs) (m_out : Part.out ∈ fs) (m_pins : Part.pins ∈ fs) :
    OnlyChanges fs s0 (State.retirePage s x1) := by
  unfold State.retirePage
  try dsimp only
  repeat' first
    | with_reducible assumption
    | with_reducible apply State.logEvent_frame
    | with_reducible apply State.copyPage_frame
    | with_reducible apply OnlyChanges.foldl
    | split
    | (intro)
    | with_reducible apply OnlyChanges.upd
    | with_reducible rfl
    | exact Or.inl rfl
    | (apply Or.inr; with_reducible assumption)

theorem State.lastingLine_frame {fs : List Part} {s0 : State} (x1 : Nat) (s : State) (h : OnlyChanges fs s0 s)
    (m_flt : Part.flt ∈ fs) (m_mem : Part.mem ∈ fs) (m_out : Part.out ∈ fs) (m_pins : Part.pins ∈ fs) :
    OnlyChanges fs s0 (State.lastingLine s x1) := by
  unfold State.lastingLine
  try dsimp only
  repeat' first
    | with_reducible assumption
    | with_reducible apply State.retirePage_frame
    | with_reducible apply State.logEvent_frame
    | with_reducible apply OnlyChanges.foldl
    | split
    | (intro)

theorem State.correctLine_frame {fs : List Part} {s0 : State} (x1 : Nat) (x2 : List Byte) (s : State)
    (h : OnlyChanges fs s0 s) (m_ent : Part.ent ∈ fs) (m_flt : Part.flt ∈ fs) (m_mem : Part.mem ∈ fs) (m_out : Part.out ∈ fs)
    (m_pins : Part.pins ∈ fs) :
    OnlyChanges fs s0 (State.correctLine s x1 x2) := by
  unfold State.correctLine
  try dsimp only
  repeat' first
    | with_reducible assumption
    | with_reducible apply State.writeBack_frame
    | with_reducible apply State.acceptLine_frame
    | with_reducible apply State.lastingLine_frame
    | with_reducible apply State.transientLine_frame
    | with_reducible apply OnlyChanges.foldl
    | split
    | (intro)
    | with_reducible apply OnlyChanges.upd
    | with_reducible rfl
    | exact Or.inl rfl
    | (apply Or.inr; with_reducible assumption)

theorem State.putTally_frame {fs : List Part} {s0 : State} (x1 : Nat) (x2 : TallyWord) (s : State) (h : OnlyChanges fs s0 s)
    (m_tally : Part.tally ∈ fs) :
    OnlyChanges fs s0 (State.putTally s x1 x2) := by
  unfold State.putTally
  try dsimp only
  repeat' first
    | with_reducible assumption
    | with_reducible apply OnlyChanges.foldl
    | split
    | (intro)
    | with_reducible apply OnlyChanges.upd
    | with_reducible rfl
    | exact Or.inl rfl
    | (apply Or.inr; with_reducible assumption)

theorem State.logTally_frame {fs : List Part} {s0 : State} (x1 : Nat) (s : State) (h : OnlyChanges fs s0 s)
    (m_flt : Part.flt ∈ fs) (m_out : Part.out ∈ fs) (m_pins : Part.pins ∈ fs) :
    OnlyChanges fs s0 (State.logTally s x1) := by
  unfold State.logTally
  try dsimp only
  repeat' first
    | with_reducible assumption
    | with_reducible apply State.logEvent_frame
    | with_reducible apply OnlyChanges.foldl
    | split
    | (intro)

theorem State.correctWord_frame {fs : List Part} {s0 : State} (x1 : Nat) (x2 : Word) (s : State) (h : OnlyChanges fs s0 s)
    (m_flt : Part.flt ∈ fs) (m_out : Part.out ∈ fs) (m_pins : Part.pins ∈ fs) (m_tally : Part.tally ∈ fs) :
    OnlyChanges fs s0 (State.correctWord s x1 x2) := by
  unfold State.correctWord
  try dsimp only
  repeat' first
    | with_reducible assumption
    | with_reducible apply State.putTally_frame
    | with_reducible apply State.logTally_frame
    | with_reducible apply OnlyChanges.foldl
    | split
    | (intro)
    | with_reducible apply OnlyChanges.upd
    | with_reducible rfl
    | exact Or.inl rfl
    | (apply Or.inr; with_reducible assumption)

theorem State.countVoid_frame {fs : List Part} {s0 : State} (x1 : Nat) (x2 : Nat) (s : State) (h : OnlyChanges fs s0 s)
    (m_ing : Part.ing ∈ fs) :
    OnlyChanges fs s0 (State.countVoid s x1 x2) := by
  unfold State.countVoid
  try dsimp only
  repeat' first
    | with_reducible assumption
    | with_reducible apply State.modStream_frame
    | with_reducible apply OnlyChanges.foldl
    | split
    | (intro)

theorem State.cutFrame_frame {fs : List Part} {s0 : State} (x1 : Nat) (x2 : List Byte) (s : State) (h : OnlyChanges fs s0 s)
    (m_ing : Part.ing ∈ fs) (m_link : Part.link ∈ fs) :
    OnlyChanges fs s0 (State.cutFrame s x1 x2) := by
  unfold State.cutFrame
  try dsimp only
  repeat' first
    | with_reducible assumption
    | with_reducible apply State.addDiscard_frame
    | with_reducible apply OnlyChanges.foldl
    | split
    | (intro)
    | with_reducible apply OnlyChanges.upd
    | with_reducible rfl
    | exact Or.inl rfl
    | (apply Or.inr; with_reducible assumption)

theorem State.discard_frame {fs : List Part} {s0 : State}  (s : State) (h : OnlyChanges fs s0 s) (m_gait : Part.gait ∈ fs)
    (m_out : Part.out ∈ fs) (m_shadow : Part.shadow ∈ fs) :
    OnlyChanges fs s0 (State.discard s) := by
  unfold State.discard
  try dsimp only
  repeat' first
    | with_reducible assumption
    | with_reducible apply State.retarget_frame
    | with_reducible apply OnlyChanges.foldl
    | split
    | (intro)
    | with_reducible apply OnlyChanges.upd
    | with_reducible rfl
    | exact Or.inl rfl
    | (apply Or.inr; with_reducible assumption)

theorem State.reserve_frame {fs : List Part} {s0 : State} (x1 : Nat) (s : State) (h : OnlyChanges fs s0 s)
    (m_gait : Part.gait ∈ fs) (m_led : Part.led ∈ fs) (m_out : Part.out ∈ fs) :
    OnlyChanges fs s0 (State.reserve s x1) := by
  unfold State.reserve
  try dsimp only
  repeat' first
    | with_reducible assumption
    | with_reducible apply State.ledgerMoved_frame
    | with_reducible apply OnlyChanges.foldl
    | split
    | (intro)
    | with_reducible apply OnlyChanges.upd
    | with_reducible rfl
    | exact Or.inl rfl
    | (apply Or.inr; with_reducible assumption)

theorem State.dispatch_frame {fs : List Part} {s0 : State} (x1 : Nat) (x2 : BitVec 512) (s : State) (h : OnlyChanges fs s0 s)
    (m_acc : Part.acc ∈ fs) (m_ent : Part.ent ∈ fs) (m_gait : Part.gait ∈ fs) (m_ing : Part.ing ∈ fs)
    (m_jobs : Part.jobs ∈ fs) (m_led : Part.led ∈ fs) (m_mem : Part.mem ∈ fs) (m_out : Part.out ∈ fs) (m_pwr : Part.pwr ∈ fs)
    (m_rings : Part.rings ∈ fs) (m_tally : Part.tally ∈ fs) :
    OnlyChanges fs s0 (State.dispatch s x1 x2) := by
  have keyent : ∀ (u : State) (x : Entities), OnlyChanges fs s0 u → OnlyChanges fs s0 { u with ent := x } := by
    intro u x hu
    apply OnlyChanges.upd rfl hu <;> first | exact Or.inl rfl | exact Or.inr m_ent | rfl
  have keyjobs : ∀ (u : State) (x : Jobs), OnlyChanges fs s0 u → OnlyChanges fs s0 { u with jobs := x } := by
    intro u x hu
    apply OnlyChanges.upd rfl hu <;> first | exact Or.inl rfl | exact Or.inr m_jobs | rfl
  unfold State.dispatch
  dsimp only
  have hk : ∀ u : State, OnlyChanges fs s0 u → ∀ (b : Prop) [Decidable b] (m : Nat), OnlyChanges fs s0
      (if b then u.completeRelease m else u) := by
    intro u hu b _ m
    split
    · apply State.completeRelease_frame <;> assumption
    · exact hu
  refine hk _ (State.reserve_frame _ _ ?_ m_gait m_led m_out) _ _
  split
  · refine keyent _ _ ?_
    refine State.acquireTiles_frame _ _ ?_ m_tally
    refine keyjobs _ _ ?_
    exact State.modRing_frame x1 _ _ h m_rings
  · refine State.acquireTiles_frame _ _ ?_ m_tally
    refine keyjobs _ _ ?_
    exact State.modRing_frame x1 _ _ h m_rings

theorem State.retirePlace_frame {fs : List Part} {s0 : State} (x1 : Bool) (x2 : Nat) (s : State) (h : OnlyChanges fs s0 s)
    (m_acc : Part.acc ∈ fs) (m_flt : Part.flt ∈ fs) (m_out : Part.out ∈ fs) (m_pins : Part.pins ∈ fs) :
    OnlyChanges fs s0 (State.retirePlace s x1 x2) := by
  unfold State.retirePlace
  try dsimp only
  repeat' first
    | with_reducible assumption
    | with_reducible apply State.logEvent_frame
    | with_reducible apply OnlyChanges.foldl
    | split
    | (intro)
    | with_reducible apply OnlyChanges.upd
    | with_reducible rfl
    | exact Or.inl rfl
    | (apply Or.inr; with_reducible assumption)

theorem State.voidBuffer_frame {fs : List Part} {s0 : State} (x1 : Head) (s : State) (h : OnlyChanges fs s0 s)
    (m_acc : Part.acc ∈ fs) (m_flt : Part.flt ∈ fs) (m_gait : Part.gait ∈ fs) (m_grp : Part.grp ∈ fs)
    (m_jobs : Part.jobs ∈ fs) (m_led : Part.led ∈ fs) (m_mem : Part.mem ∈ fs) (m_out : Part.out ∈ fs)
    (m_pins : Part.pins ∈ fs) (m_rings : Part.rings ∈ fs) (m_tally : Part.tally ∈ fs) :
    OnlyChanges fs s0 (State.voidBuffer s x1) := by
  unfold State.voidBuffer
  try dsimp only
  repeat' first
    | with_reducible assumption
    | with_reducible apply State.retirePlace_frame
    | with_reducible apply State.bufferPlace_frame
    | with_reducible apply OnlyChanges.foldl
    | split
    | (intro)

theorem State.rereadBuffer_frame {fs : List Part} {s0 : State} (x1 : Head) (s : State) (h : OnlyChanges fs s0 s)
    (m_acc : Part.acc ∈ fs) (m_flt : Part.flt ∈ fs) :
    OnlyChanges fs s0 (State.rereadBuffer s x1) := by
  unfold State.rereadBuffer
  try dsimp only
  repeat' first
    | with_reducible assumption
    | with_reducible apply State.modHead_frame
    | with_reducible apply OnlyChanges.foldl
    | split
    | (intro)
    | with_reducible apply OnlyChanges.upd
    | with_reducible rfl
    | exact Or.inl rfl
    | (apply Or.inr; with_reducible assumption)

theorem State.enter_frame {fs : List Part} {s0 : State} (x1 : Group) (x2 : Job) (x3 : Head) (x4 : Nat) (x5 : Nat) (x6 : Bool)
    (x7 : ModelDef) (x8 : List Upset) (s : State) (h : OnlyChanges fs s0 s) (m_acc : Part.acc ∈ fs) (m_arr : Part.arr ∈ fs)
    (m_flt : Part.flt ∈ fs) (m_grp : Part.grp ∈ fs) (m_tally : Part.tally ∈ fs) :
    OnlyChanges fs s0 (State.enter s x1 x2 x3 x4 x5 x6 x7 x8) := by
  unfold State.enter
  try dsimp only
  repeat' first
    | with_reducible assumption
    | with_reducible apply State.loadBuffers_frame
    | with_reducible apply State.modPlace_frame
    | with_reducible apply State.failAttempt_frame
    | with_reducible apply OnlyChanges.foldl
    | split
    | (intro)
    | with_reducible apply OnlyChanges.upd
    | with_reducible rfl
    | exact Or.inl rfl
    | (apply Or.inr; with_reducible assumption)

theorem State.dispatchPick_frame {fs : List Part} {s0 : State} (x1 : Group) (x2 : Pick) (x3 : Nat) (x4 : Nat) (x5 : Nat)
    (x6 : Bool) (x7 : List Upset) (s : State) (h : OnlyChanges fs s0 s) (m_acc : Part.acc ∈ fs) (m_arr : Part.arr ∈ fs)
    (m_flt : Part.flt ∈ fs) (m_gait : Part.gait ∈ fs) (m_grp : Part.grp ∈ fs) (m_jobs : Part.jobs ∈ fs)
    (m_led : Part.led ∈ fs) (m_mem : Part.mem ∈ fs) (m_out : Part.out ∈ fs) (m_pins : Part.pins ∈ fs)
    (m_rings : Part.rings ∈ fs) (m_tally : Part.tally ∈ fs) :
    OnlyChanges fs s0 (State.dispatchPick s x1 x2 x3 x4 x5 x6 x7) := by
  unfold State.dispatchPick
  try dsimp only
  repeat' first
    | with_reducible assumption
    | with_reducible apply State.modGroup_frame
    | with_reducible apply State.voidBuffer_frame
    | with_reducible apply State.rereadBuffer_frame
    | with_reducible apply State.enter_frame
    | with_reducible apply OnlyChanges.foldl
    | split
    | (intro)

theorem State.sendQ_frame {fs : List Part} {s0 : State} (x1 : Job) (x2 : Nat) (x3 : Head) (s : State)
    (h : OnlyChanges fs s0 s) (m_acc : Part.acc ∈ fs) (m_gait : Part.gait ∈ fs) (m_grp : Part.grp ∈ fs)
    (m_jobs : Part.jobs ∈ fs) (m_led : Part.led ∈ fs) (m_mem : Part.mem ∈ fs) (m_out : Part.out ∈ fs)
    (m_rings : Part.rings ∈ fs) (m_tally : Part.tally ∈ fs) :
    OnlyChanges fs s0 (State.send? s x1 x2 x3) := by
  unfold State.send?
  try dsimp only
  repeat' first
    | with_reducible assumption
    | with_reducible apply State.voidPlace_frame
    | with_reducible apply State.modGroup_frame
    | with_reducible apply State.ensurePlace_frame
    | with_reducible apply OnlyChanges.foldl
    | split
    | (intro)

theorem State.offer_frame {fs : List Part} {s0 : State} (x1 : Nat) (s : State) (h : OnlyChanges fs s0 s)
    (m_acc : Part.acc ∈ fs) (m_gait : Part.gait ∈ fs) (m_grp : Part.grp ∈ fs) (m_jobs : Part.jobs ∈ fs)
    (m_led : Part.led ∈ fs) (m_mem : Part.mem ∈ fs) (m_out : Part.out ∈ fs) (m_rings : Part.rings ∈ fs)
    (m_tally : Part.tally ∈ fs) :
    OnlyChanges fs s0 (State.offer s x1) := by
  unfold State.offer
  try dsimp only
  repeat' first
    | with_reducible assumption
    | with_reducible apply State.modJob_frame
    | with_reducible apply State.pay_frame
    | with_reducible apply State.sendQ_frame
    | with_reducible apply OnlyChanges.foldl
    | split
    | (intro)

theorem State.fillRun_frame {fs : List Part} {s0 : State} (x1 : Group) (x2 : Nat) (x3 : Nat) (s : State)
    (h : OnlyChanges fs s0 s) (m_acc : Part.acc ∈ fs) (m_gait : Part.gait ∈ fs) (m_grp : Part.grp ∈ fs)
    (m_jobs : Part.jobs ∈ fs) (m_led : Part.led ∈ fs) (m_mem : Part.mem ∈ fs) (m_out : Part.out ∈ fs)
    (m_rings : Part.rings ∈ fs) (m_tally : Part.tally ∈ fs) :
    OnlyChanges fs s0 (State.fillRun s x1 x2 x3) := by
  unfold State.fillRun
  extract_lets
  repeat' first
    | with_reducible assumption
    | with_reducible apply State.offer_frame
    | with_reducible apply State.modGroup_frame
    | with_reducible apply OnlyChanges.foldl
    | split
    | (intro)

theorem State.dispatchGroup_frame {fs : List Part} {s0 : State} (x1 : Group) (x2 : Bool) (x3 : List Upset) (s : State)
    (h : OnlyChanges fs s0 s) (m_acc : Part.acc ∈ fs) (m_arr : Part.arr ∈ fs) (m_flt : Part.flt ∈ fs)
    (m_gait : Part.gait ∈ fs) (m_grp : Part.grp ∈ fs) (m_jobs : Part.jobs ∈ fs) (m_led : Part.led ∈ fs)
    (m_mem : Part.mem ∈ fs) (m_out : Part.out ∈ fs) (m_pins : Part.pins ∈ fs) (m_rings : Part.rings ∈ fs)
    (m_tally : Part.tally ∈ fs) :
    OnlyChanges fs s0 (State.dispatchGroup s x1 x2 x3) := by
  unfold State.dispatchGroup
  try dsimp only
  repeat' first
    | with_reducible assumption
    | with_reducible apply State.dispatchPick_frame
    | with_reducible apply State.fillRun_frame
    | with_reducible apply OnlyChanges.foldl
    | split
    | (intro)

theorem State.dropAttempt_frame {fs : List Part} {s0 : State} (x1 : Nat) (s : State) (h : OnlyChanges fs s0 s)
    (m_grp : Part.grp ∈ fs) :
    OnlyChanges fs s0 (State.dropAttempt s x1) := by
  unfold State.dropAttempt
  try dsimp only
  repeat' first
    | with_reducible assumption
    | with_reducible apply OnlyChanges.foldl
    | split
    | (intro)
    | with_reducible apply OnlyChanges.upd
    | with_reducible rfl
    | exact Or.inl rfl
    | (apply Or.inr; with_reducible assumption)

theorem State.endGroup_frame {fs : List Part} {s0 : State} (x1 : Group) (s : State) (h : OnlyChanges fs s0 s)
    (m_arr : Part.arr ∈ fs) (m_flt : Part.flt ∈ fs) (m_grp : Part.grp ∈ fs) (m_img : Part.img ∈ fs) :
    OnlyChanges fs s0 (State.endGroup s x1) := by
  unfold State.endGroup
  try dsimp only
  repeat' first
    | with_reducible assumption
    | with_reducible apply OnlyChanges.foldl
    | split
    | (intro)
    | with_reducible apply OnlyChanges.upd
    | with_reducible rfl
    | exact Or.inl rfl
    | (apply Or.inr; with_reducible assumption)

theorem State.endJob_frame {fs : List Part} {s0 : State} (x1 : Bool) (x2 : Job) (x3 : Nat) (x4 : Nat) (s : State)
    (h : OnlyChanges fs s0 s) (m_gait : Part.gait ∈ fs) (m_jobs : Part.jobs ∈ fs) (m_led : Part.led ∈ fs)
    (m_mem : Part.mem ∈ fs) (m_out : Part.out ∈ fs) (m_rings : Part.rings ∈ fs) (m_tally : Part.tally ∈ fs) :
    OnlyChanges fs s0 (State.endJob s x1 x2 x3 x4) := by
  unfold State.endJob
  try dsimp only
  repeat' first
    | with_reducible assumption
    | with_reducible apply State.dropJob_frame
    | with_reducible apply State.releaseTiles_frame
    | with_reducible apply State.finishJob_frame
    | with_reducible apply State.modJob_frame
    | with_reducible apply OnlyChanges.foldl
    | split
    | (intro)

theorem State.endJobs_frame {fs : List Part} {s0 : State} (x1 : Bool) (s : State) (h : OnlyChanges fs s0 s)
    (m_arr : Part.arr ∈ fs) (m_gait : Part.gait ∈ fs) (m_grp : Part.grp ∈ fs) (m_img : Part.img ∈ fs)
    (m_jobs : Part.jobs ∈ fs) (m_led : Part.led ∈ fs) (m_mem : Part.mem ∈ fs) (m_out : Part.out ∈ fs)
    (m_rings : Part.rings ∈ fs) (m_tally : Part.tally ∈ fs) :
    OnlyChanges fs s0 (State.endJobs s x1) := by
  unfold State.endJobs
  try dsimp only
  repeat' first
    | with_reducible assumption
    | with_reducible apply State.completePatch_frame
    | with_reducible apply State.endJob_frame
    | with_reducible apply OnlyChanges.foldl
    | split
    | (intro)
    | with_reducible apply OnlyChanges.upd
    | with_reducible rfl
    | exact Or.inl rfl
    | (apply Or.inr; with_reducible assumption)

theorem State.endLoad_frame {fs : List Part} {s0 : State} (x1 : Load) (x2 : LoadFail) (x3 : Nat) (x4 : List Byte)
    (x5 : List Byte) (s : State) (h : OnlyChanges fs s0 s) (m_gait : Part.gait ∈ fs) (m_img : Part.img ∈ fs)
    (m_jobs : Part.jobs ∈ fs) (m_led : Part.led ∈ fs) (m_mem : Part.mem ∈ fs) (m_out : Part.out ∈ fs)
    (m_rings : Part.rings ∈ fs) :
    OnlyChanges fs s0 (State.endLoad s x1 x2 x3 x4 x5) := by
  unfold State.endLoad
  try dsimp only
  repeat' first
    | with_reducible assumption
    | with_reducible apply State.write_frame
    | with_reducible apply State.finishJob_frame
    | with_reducible apply OnlyChanges.foldl
    | split
    | (intro)
    | with_reducible apply OnlyChanges.upd
    | with_reducible rfl
    | exact Or.inl rfl
    | (apply Or.inr; with_reducible assumption)

theorem State.endRecord_frame {fs : List Part} {s0 : State} (x1 : Attempt) (s : State) (h : OnlyChanges fs s0 s)
    (m_grp : Part.grp ∈ fs) :
    OnlyChanges fs s0 (State.endRecord s x1) := by
  unfold State.endRecord
  try dsimp only
  repeat' first
    | with_reducible assumption
    | with_reducible apply State.dropAttempt_frame
    | with_reducible apply OnlyChanges.foldl
    | split
    | (intro)
    | with_reducible apply OnlyChanges.upd
    | with_reducible rfl
    | exact Or.inl rfl
    | (apply Or.inr; with_reducible assumption)

theorem State.endRecovery_frame {fs : List Part} {s0 : State} (x1 : Detected) (s : State) (h : OnlyChanges fs s0 s)
    (m_flt : Part.flt ∈ fs) (m_grp : Part.grp ∈ fs) :
    OnlyChanges fs s0 (State.endRecovery s x1) := by
  unfold State.endRecovery
  try dsimp only
  repeat' first
    | with_reducible assumption
    | with_reducible apply State.modGroup_frame
    | with_reducible apply OnlyChanges.foldl
    | split
    | (intro)
    | with_reducible apply OnlyChanges.upd
    | with_reducible rfl
    | exact Or.inl rfl
    | (apply Or.inr; with_reducible assumption)

theorem State.endReplay_frame {fs : List Part} {s0 : State}  (s : State) (h : OnlyChanges fs s0 s) (m_mem : Part.mem ∈ fs)
    (m_pwr : Part.pwr ∈ fs) (m_rings : Part.rings ∈ fs) (m_tally : Part.tally ∈ fs) :
    OnlyChanges fs s0 (State.endReplay s) := by
  unfold State.endReplay
  try dsimp only
  repeat' first
    | with_reducible assumption
    | with_reducible apply State.rewriteFrom_frame
    | with_reducible apply OnlyChanges.foldl
    | split
    | (intro)
    | with_reducible apply OnlyChanges.upd
    | with_reducible rfl
    | exact Or.inl rfl
    | (apply Or.inr; with_reducible assumption)

theorem State.modWindow_frame {fs : List Part} {s0 : State} (x1 : Nat) (x2 : Word32) (x3 : WindowRecord → WindowRecord)
    (s : State) (h : OnlyChanges fs s0 s) (m_ing : Part.ing ∈ fs) :
    OnlyChanges fs s0 (State.modWindow s x1 x2 x3) := by
  unfold State.modWindow
  try dsimp only
  repeat' first
    | with_reducible assumption
    | with_reducible apply OnlyChanges.foldl
    | split
    | (intro)
    | with_reducible apply OnlyChanges.upd
    | with_reducible rfl
    | exact Or.inl rfl
    | (apply Or.inr; with_reducible assumption)

theorem State.enterLane_frame {fs : List Part} {s0 : State} (x1 : Lane) (s : State) (h : OnlyChanges fs s0 s)
    (m_ing : Part.ing ∈ fs) :
    OnlyChanges fs s0 (State.enterLane s x1) := by
  unfold State.enterLane
  try dsimp only
  repeat' first
    | with_reducible assumption
    | with_reducible apply State.modPair_frame
    | with_reducible apply State.modWindow_frame
    | with_reducible apply OnlyChanges.foldl
    | split
    | (intro)

theorem State.enterReset_frame {fs : List Part} {s0 : State}  (s : State) (h : OnlyChanges fs s0 s) (m_link : Part.link ∈ fs)
    (m_pins : Part.pins ∈ fs) (m_pwr : Part.pwr ∈ fs) :
    OnlyChanges fs s0 (State.enterReset s) := by
  unfold State.enterReset
  try dsimp only
  repeat' first
    | with_reducible assumption
    | with_reducible apply State.refreshFault_frame
    | with_reducible apply OnlyChanges.foldl
    | split
    | (intro)
    | with_reducible apply OnlyChanges.upd
    | with_reducible rfl
    | exact Or.inl rfl
    | (apply Or.inr; with_reducible assumption)

theorem State.markLost_frame {fs : List Part} {s0 : State} (x1 : Nat) (s : State) (h : OnlyChanges fs s0 s)
    (m_flt : Part.flt ∈ fs) (m_out : Part.out ∈ fs) (m_pins : Part.pins ∈ fs) :
    OnlyChanges fs s0 (State.markLost s x1) := by
  unfold State.markLost
  try dsimp only
  repeat' first
    | with_reducible assumption
    | with_reducible apply State.logEvent_frame
    | with_reducible apply OnlyChanges.foldl
    | split
    | (intro)
    | with_reducible apply OnlyChanges.upd
    | with_reducible rfl
    | exact Or.inl rfl
    | (apply Or.inr; with_reducible assumption)

theorem State.loseEntity_frame {fs : List Part} {s0 : State} (x1 : Nat) (x2 : Nat) (s : State) (h : OnlyChanges fs s0 s)
    (m_ent : Part.ent ∈ fs) (m_flt : Part.flt ∈ fs) (m_mem : Part.mem ∈ fs) (m_out : Part.out ∈ fs) (m_pins : Part.pins ∈ fs)
    :
    OnlyChanges fs s0 (State.loseEntity s x1 x2) := by
  unfold State.loseEntity
  try dsimp only
  repeat' first
    | with_reducible assumption
    | with_reducible apply State.writeMirror_frame
    | with_reducible apply State.entWrite_frame
    | with_reducible apply State.logEvent_frame
    | with_reducible apply State.markLost_frame
    | with_reducible apply OnlyChanges.foldl
    | split
    | (intro)
    | with_reducible apply OnlyChanges.upd
    | with_reducible rfl
    | exact Or.inl rfl
    | (apply Or.inr; with_reducible assumption)

theorem State.loseHarness_frame {fs : List Part} {s0 : State} (x1 : Nat) (x2 : Nat) (s : State) (h : OnlyChanges fs s0 s)
    (m_flt : Part.flt ∈ fs) (m_mem : Part.mem ∈ fs) (m_out : Part.out ∈ fs) (m_pins : Part.pins ∈ fs) :
    OnlyChanges fs s0 (State.loseHarness s x1 x2) := by
  unfold State.loseHarness
  try dsimp only
  repeat' first
    | with_reducible assumption
    | with_reducible apply State.writeBack_frame
    | with_reducible apply State.logEvent_frame
    | with_reducible apply OnlyChanges.foldl
    | split
    | (intro)
    | with_reducible apply OnlyChanges.upd
    | with_reducible rfl
    | exact Or.inl rfl
    | (apply Or.inr; with_reducible assumption)

theorem State.loseBoth_frame {fs : List Part} {s0 : State} (x1 : Nat) (x2 : Nat) (s : State) (h : OnlyChanges fs s0 s)
    (m_arr : Part.arr ∈ fs) (m_flt : Part.flt ∈ fs) (m_gait : Part.gait ∈ fs) (m_img : Part.img ∈ fs) (m_mem : Part.mem ∈ fs)
    (m_out : Part.out ∈ fs) (m_pins : Part.pins ∈ fs) :
    OnlyChanges fs s0 (State.loseBoth s x1 x2) := by
  unfold State.loseBoth
  try dsimp only
  repeat' first
    | with_reducible assumption
    | with_reducible apply State.loseHarness_frame
    | with_reducible apply State.logEvent_frame
    | with_reducible apply State.breakPending_frame
    | with_reducible apply OnlyChanges.foldl
    | split
    | (intro)

theorem State.issueRead_frame {fs : List Part} {s0 : State} (x1 : Nat) (s : State) (h : OnlyChanges fs s0 s)
    (m_link : Part.link ∈ fs) (m_out : Part.out ∈ fs) :
    OnlyChanges fs s0 (State.issueRead s x1) := by
  unfold State.issueRead
  try dsimp only
  repeat' first
    | with_reducible assumption
    | with_reducible apply State.send_frame
    | with_reducible apply OnlyChanges.foldl
    | split
    | (intro)
    | with_reducible apply OnlyChanges.upd
    | with_reducible rfl
    | exact Or.inl rfl
    | (apply Or.inr; with_reducible assumption)

theorem State.loseCopy_frame {fs : List Part} {s0 : State} (x1 : Nat) (x2 : Nat) (s : State) (h : OnlyChanges fs s0 s)
    (m_arr : Part.arr ∈ fs) (m_flt : Part.flt ∈ fs) (m_gait : Part.gait ∈ fs) (m_img : Part.img ∈ fs)
    (m_link : Part.link ∈ fs) (m_mem : Part.mem ∈ fs) (m_out : Part.out ∈ fs) (m_pins : Part.pins ∈ fs) :
    OnlyChanges fs s0 (State.loseCopy s x1 x2) := by
  unfold State.loseCopy
  try dsimp only
  repeat' first
    | with_reducible assumption
    | with_reducible apply State.loseBoth_frame
    | with_reducible apply State.issueRead_frame
    | with_reducible apply OnlyChanges.foldl
    | split
    | (intro)
    | with_reducible apply OnlyChanges.upd
    | with_reducible rfl
    | exact Or.inl rfl
    | (apply Or.inr; with_reducible assumption)

theorem State.loseLine_frame {fs : List Part} {s0 : State} (x1 : Nat) (s : State) (h : OnlyChanges fs s0 s)
    (m_arr : Part.arr ∈ fs) (m_ent : Part.ent ∈ fs) (m_flt : Part.flt ∈ fs) (m_gait : Part.gait ∈ fs) (m_img : Part.img ∈ fs)
    (m_link : Part.link ∈ fs) (m_mem : Part.mem ∈ fs) (m_out : Part.out ∈ fs) (m_pins : Part.pins ∈ fs) :
    OnlyChanges fs s0 (State.loseLine s x1) := by
  unfold State.loseLine
  try dsimp only
  repeat' first
    | with_reducible assumption
    | with_reducible apply State.loseEntity_frame
    | with_reducible apply State.loseCopy_frame
    | with_reducible apply OnlyChanges.foldl
    | split
    | (intro)

theorem State.failLine_frame {fs : List Part} {s0 : State} (x1 : Nat) (s : State) (h : OnlyChanges fs s0 s)
    (m_arr : Part.arr ∈ fs) (m_ent : Part.ent ∈ fs) (m_flt : Part.flt ∈ fs) (m_gait : Part.gait ∈ fs) (m_img : Part.img ∈ fs)
    (m_link : Part.link ∈ fs) (m_mem : Part.mem ∈ fs) (m_out : Part.out ∈ fs) (m_pins : Part.pins ∈ fs) :
    OnlyChanges fs s0 (State.failLine s x1) := by
  unfold State.failLine
  try dsimp only
  repeat' first
    | with_reducible assumption
    | with_reducible apply State.loseLine_frame
    | with_reducible apply State.lastingLine_frame
    | with_reducible apply State.issueRead_frame
    | with_reducible apply OnlyChanges.foldl
    | split
    | (intro)
    | with_reducible apply OnlyChanges.upd
    | with_reducible rfl
    | exact Or.inl rfl
    | (apply Or.inr; with_reducible assumption)

theorem State.failMount_frame {fs : List Part} {s0 : State} (x1 : MountFail) (s : State) (h : OnlyChanges fs s0 s)
    (m_gait : Part.gait ∈ fs) (m_jobs : Part.jobs ∈ fs) (m_led : Part.led ∈ fs) (m_mem : Part.mem ∈ fs)
    (m_mnt : Part.mnt ∈ fs) (m_out : Part.out ∈ fs) (m_rings : Part.rings ∈ fs) (m_shadow : Part.shadow ∈ fs) :
    OnlyChanges fs s0 (State.failMount s x1) := by
  unfold State.failMount
  try dsimp only
  repeat' first
    | with_reducible assumption
    | with_reducible apply State.endMount_frame
    | with_reducible apply State.retarget_frame
    | with_reducible apply State.thaw_frame
    | with_reducible apply OnlyChanges.foldl
    | split
    | (intro)
    | with_reducible apply OnlyChanges.upd
    | with_reducible rfl
    | exact Or.inl rfl
    | (apply Or.inr; with_reducible assumption)

theorem State.fillLanes_frame {fs : List Part} {s0 : State} (x1 : Nat) (s : State) (h : OnlyChanges fs s0 s)
    (m_ing : Part.ing ∈ fs) :
    OnlyChanges fs s0 (State.fillLanes s x1) := by
  induction x1 generalizing s with
  | zero => exact h
  | succ n ih =>
    unfold State.fillLanes
    try dsimp only
    repeat' first
      | with_reducible assumption
      | with_reducible apply ih
      | with_reducible apply State.enterLane_frame
      | with_reducible apply OnlyChanges.foldl
      | split
      | (intro)
      | with_reducible apply OnlyChanges.upd
      | with_reducible rfl
      | exact Or.inl rfl
      | (apply Or.inr; with_reducible assumption)

theorem State.unstrand_frame {fs : List Part} {s0 : State}  (s : State) (h : OnlyChanges fs s0 s) (m_ent : Part.ent ∈ fs)
    (m_flt : Part.flt ∈ fs) (m_mem : Part.mem ∈ fs) :
    OnlyChanges fs s0 (State.unstrand s) := by
  unfold State.unstrand
  try dsimp only
  repeat' first
    | with_reducible assumption
    | with_reducible apply State.writeKey_frame
    | with_reducible apply OnlyChanges.foldl
    | split
    | (intro)
    | with_reducible apply OnlyChanges.upd
    | with_reducible rfl
    | exact Or.inl rfl
    | (apply Or.inr; with_reducible assumption)

theorem State.finishEvict_frame {fs : List Part} {s0 : State} (x1 : EntityJob) (s : State) (h : OnlyChanges fs s0 s)
    (m_ent : Part.ent ∈ fs) (m_flt : Part.flt ∈ fs) (m_gait : Part.gait ∈ fs) (m_jobs : Part.jobs ∈ fs)
    (m_led : Part.led ∈ fs) (m_mem : Part.mem ∈ fs) (m_out : Part.out ∈ fs) (m_pwr : Part.pwr ∈ fs)
    (m_rings : Part.rings ∈ fs) :
    OnlyChanges fs s0 (State.finishEvict s x1) := by
  unfold State.finishEvict
  try dsimp only
  repeat' first
    | with_reducible assumption
    | with_reducible apply State.clearLostBuckets_frame
    | with_reducible apply State.unstrand_frame
    | with_reducible apply State.applyEvict_frame
    | with_reducible apply State.refreshHeld_frame
    | with_reducible apply State.finishJob_frame
    | with_reducible apply OnlyChanges.foldl
    | split
    | (intro)
    | with_reducible apply OnlyChanges.upd
    | with_reducible rfl
    | exact Or.inl rfl
    | (apply Or.inr; with_reducible assumption)

theorem State.finishUpdate_frame {fs : List Part} {s0 : State} (x1 : EntityJob) (s : State) (h : OnlyChanges fs s0 s)
    (m_ent : Part.ent ∈ fs) (m_flt : Part.flt ∈ fs) (m_gait : Part.gait ∈ fs) (m_jobs : Part.jobs ∈ fs)
    (m_led : Part.led ∈ fs) (m_mem : Part.mem ∈ fs) (m_out : Part.out ∈ fs) (m_pwr : Part.pwr ∈ fs)
    (m_rings : Part.rings ∈ fs) :
    OnlyChanges fs s0 (State.finishUpdate s x1) := by
  unfold State.finishUpdate
  try dsimp only
  repeat' first
    | with_reducible assumption
    | with_reducible apply State.unstrand_frame
    | with_reducible apply State.applyUpdate_frame
    | with_reducible apply State.refreshHeld_frame
    | with_reducible apply State.finishJob_frame
    | with_reducible apply OnlyChanges.foldl
    | split
    | (intro)
    | with_reducible apply OnlyChanges.upd
    | with_reducible rfl
    | exact Or.inl rfl
    | (apply Or.inr; with_reducible assumption)

theorem State.freeLane_frame {fs : List Part} {s0 : State} (x1 : Nat) (s : State) (h : OnlyChanges fs s0 s)
    (m_ing : Part.ing ∈ fs) :
    OnlyChanges fs s0 (State.freeLane s x1) := by
  unfold State.freeLane
  try dsimp only
  repeat' first
    | with_reducible assumption
    | with_reducible apply OnlyChanges.foldl
    | split
    | (intro)
    | with_reducible apply OnlyChanges.upd
    | with_reducible rfl
    | exact Or.inl rfl
    | (apply Or.inr; with_reducible assumption)

theorem State.requestMount_frame {fs : List Part} {s0 : State} (x1 : MountRequest) (s : State) (h : OnlyChanges fs s0 s)
    (m_mnt : Part.mnt ∈ fs) :
    OnlyChanges fs s0 (State.requestMount s x1) := by
  unfold State.requestMount
  try dsimp only
  repeat' first
    | with_reducible assumption
    | with_reducible apply State.nextMount_frame
    | with_reducible apply OnlyChanges.foldl
    | split
    | (intro)
    | with_reducible apply OnlyChanges.upd
    | with_reducible rfl
    | exact Or.inl rfl
    | (apply Or.inr; with_reducible assumption)

theorem State.goMount_frame {fs : List Part} {s0 : State}  (s : State) (h : OnlyChanges fs s0 s) (m_mnt : Part.mnt ∈ fs) :
    OnlyChanges fs s0 (State.goMount s) := by
  unfold State.goMount
  try dsimp only
  repeat' first
    | with_reducible assumption
    | with_reducible apply State.requestMount_frame
    | with_reducible apply OnlyChanges.foldl
    | split
    | (intro)
    | with_reducible apply OnlyChanges.upd
    | with_reducible rfl
    | exact Or.inl rfl
    | (apply Or.inr; with_reducible assumption)

theorem State.readHead_frame {fs : List Part} {s0 : State} (x1 : Nat) (s : State) (h : OnlyChanges fs s0 s)
    (m_rings : Part.rings ∈ fs) :
    OnlyChanges fs s0 (State.readHead s x1) := by
  unfold State.readHead
  try dsimp only
  repeat' first
    | with_reducible assumption
    | with_reducible apply State.modRing_frame
    | with_reducible apply OnlyChanges.foldl
    | split
    | (intro)

theorem State.haltBad_frame {fs : List Part} {s0 : State}  (s : State) (h : OnlyChanges fs s0 s) (m_rings : Part.rings ∈ fs)
    :
    OnlyChanges fs s0 (State.haltBad s) := by
  unfold State.haltBad
  try dsimp only
  repeat' first
    | with_reducible assumption
    | with_reducible apply State.readHead_frame
    | with_reducible apply OnlyChanges.foldl
    | split
    | (intro)

theorem State.holdPlace_frame {fs : List Part} {s0 : State} (x1 : Job) (x2 : JobPlace) (s : State) (h : OnlyChanges fs s0 s)
    (m_acc : Part.acc ∈ fs) (m_mem : Part.mem ∈ fs) (m_rings : Part.rings ∈ fs) (m_tally : Part.tally ∈ fs) :
    OnlyChanges fs s0 (State.holdPlace s x1 x2) := by
  unfold State.holdPlace
  try dsimp only
  repeat' first
    | with_reducible assumption
    | with_reducible apply State.countVoided_frame
    | with_reducible apply State.modPlace_frame
    | with_reducible apply State.settle_frame
    | with_reducible apply OnlyChanges.foldl
    | split
    | (intro)

theorem State.voidEntity_frame {fs : List Part} {s0 : State} (x1 : WindowRecord) (s : State) (h : OnlyChanges fs s0 s)
    (m_ent : Part.ent ∈ fs) (m_ing : Part.ing ∈ fs) :
    OnlyChanges fs s0 (State.voidEntity s x1) := by
  unfold State.voidEntity
  try dsimp only
  repeat' first
    | with_reducible assumption
    | with_reducible apply State.modWindow_frame
    | with_reducible apply OnlyChanges.foldl
    | split
    | (intro)
    | with_reducible apply OnlyChanges.upd
    | with_reducible rfl
    | exact Or.inl rfl
    | (apply Or.inr; with_reducible assumption)

theorem State.joined_frame {fs : List Part} {s0 : State} (x1 : WindowRecord) (x2 : EntityRow) (s : State)
    (h : OnlyChanges fs s0 s) (m_ing : Part.ing ∈ fs) :
    OnlyChanges fs s0 (State.joined s x1 x2) := by
  unfold State.joined
  try dsimp only
  repeat' first
    | with_reducible assumption
    | with_reducible apply State.modWindow_frame
    | with_reducible apply OnlyChanges.foldl
    | split
    | (intro)

theorem State.joinEntry_frame {fs : List Part} {s0 : State} (x1 : WindowRecord) (x2 : EntityEntry) (s : State)
    (h : OnlyChanges fs s0 s) (m_ent : Part.ent ∈ fs) (m_flt : Part.flt ∈ fs) (m_ing : Part.ing ∈ fs) (m_mem : Part.mem ∈ fs)
    :
    OnlyChanges fs s0 (State.joinEntry s x1 x2) := by
  unfold State.joinEntry
  try dsimp only
  repeat' first
    | with_reducible assumption
    | with_reducible apply State.voidEntity_frame
    | with_reducible apply State.joined_frame
    | with_reducible apply State.cacheRow_frame
    | with_reducible apply State.writeKey_frame
    | with_reducible apply OnlyChanges.foldl
    | split
    | (intro)
    | with_reducible apply OnlyChanges.upd
    | with_reducible rfl
    | exact Or.inl rfl
    | (apply Or.inr; with_reducible assumption)

theorem State.kept_frame {fs : List Part} {s0 : State}  (s : State) (h : OnlyChanges fs s0 s) (m_ent : Part.ent ∈ fs)
    (m_flt : Part.flt ∈ fs) (m_gait : Part.gait ∈ fs) (m_grp : Part.grp ∈ fs) (m_img : Part.img ∈ fs) (m_ing : Part.ing ∈ fs)
    (m_jobs : Part.jobs ∈ fs) (m_led : Part.led ∈ fs) (m_link : Part.link ∈ fs) (m_live : Part.live ∈ fs)
    (m_mnt : Part.mnt ∈ fs) (m_pwr : Part.pwr ∈ fs) (m_sel : Part.sel ∈ fs) (m_shadow : Part.shadow ∈ fs)
    (m_snd : Part.snd ∈ fs) (m_tally : Part.tally ∈ fs) :
    OnlyChanges fs s0 (State.kept s) := by
  unfold State.kept
  try dsimp only
  repeat' first
    | with_reducible assumption
    | with_reducible apply OnlyChanges.foldl
    | split
    | (intro)
    | with_reducible apply OnlyChanges.upd
    | with_reducible rfl
    | exact Or.inl rfl
    | (apply Or.inr; with_reducible assumption)

theorem State.leaveLane_frame {fs : List Part} {s0 : State} (x1 : WindowRecord) (x2 : Nat) (x3 : Supplied) (s : State)
    (h : OnlyChanges fs s0 s) (m_ing : Part.ing ∈ fs) :
    OnlyChanges fs s0 (State.leaveLane s x1 x2 x3) := by
  unfold State.leaveLane
  try dsimp only
  repeat' first
    | with_reducible assumption
    | with_reducible apply State.countVoid_frame
    | with_reducible apply State.modWindow_frame
    | with_reducible apply State.blockRecordDone_frame
    | with_reducible apply OnlyChanges.foldl
    | split
    | (intro)

theorem State.unseat_frame {fs : List Part} {s0 : State} (x1 : Nat) (x2 : Nat) (x3 : Option Nat) (x4 : Option Nat)
    (x5 : Bool) (x6 : Bool) (s : State) (h : OnlyChanges fs s0 s) (m_ing : Part.ing ∈ fs) (m_out : Part.out ∈ fs) :
    OnlyChanges fs s0 (State.unseat s x1 x2 x3 x4 x5 x6) := by
  unfold State.unseat
  try dsimp only
  repeat' first
    | with_reducible assumption
    | with_reducible apply State.modPair_frame
    | with_reducible apply State.modStream_frame
    | with_reducible apply State.notifyIf_frame
    | with_reducible apply OnlyChanges.foldl
    | split
    | (intro)

theorem State.scaleFailed_frame {fs : List Part} {s0 : State} (x1 : Nat) (x2 : Nat) (x3 : Nat) (s : State)
    (h : OnlyChanges fs s0 s) (m_ing : Part.ing ∈ fs) (m_out : Part.out ∈ fs) :
    OnlyChanges fs s0 (State.scaleFailed s x1 x2 x3) := by
  unfold State.scaleFailed
  try dsimp only
  repeat' first
    | with_reducible assumption
    | with_reducible apply State.unseat_frame
    | with_reducible apply OnlyChanges.foldl
    | split
    | (intro)

theorem State.leaveScale_frame {fs : List Part} {s0 : State} (x1 : Lane) (x2 : Bool) (s : State) (h : OnlyChanges fs s0 s)
    (m_ing : Part.ing ∈ fs) (m_out : Part.out ∈ fs) :
    OnlyChanges fs s0 (State.leaveScale s x1 x2) := by
  unfold State.leaveScale
  try dsimp only
  repeat' first
    | with_reducible assumption
    | with_reducible apply State.scaleFailed_frame
    | with_reducible apply State.modPair_frame
    | with_reducible apply OnlyChanges.foldl
    | split
    | (intro)

theorem State.loadGroup_frame {fs : List Part} {s0 : State} (x1 : Image) (x2 : List Disposition) (x3 : GroupDef) (s : State)
    (h : OnlyChanges fs s0 s) (m_arr : Part.arr ∈ fs) :
    OnlyChanges fs s0 (State.loadGroup s x1 x2 x3) := by
  unfold State.loadGroup
  try dsimp only
  repeat' first
    | with_reducible assumption
    | with_reducible apply OnlyChanges.foldl
    | split
    | (intro)
    | with_reducible apply OnlyChanges.upd
    | with_reducible rfl
    | exact Or.inl rfl
    | (apply Or.inr; with_reducible assumption)

theorem State.loadTwin_frame {fs : List Part} {s0 : State} (x1 : List (Nat × Nat)) (x2 : Nat) (x3 : Nat) (s : State)
    (h : OnlyChanges fs s0 s) (m_acc : Part.acc ∈ fs) (m_arr : Part.arr ∈ fs) (m_flt : Part.flt ∈ fs)
    (m_gait : Part.gait ∈ fs) (m_grp : Part.grp ∈ fs) (m_img : Part.img ∈ fs) (m_jobs : Part.jobs ∈ fs)
    (m_led : Part.led ∈ fs) (m_mem : Part.mem ∈ fs) (m_out : Part.out ∈ fs) (m_pins : Part.pins ∈ fs)
    (m_rings : Part.rings ∈ fs) (m_tally : Part.tally ∈ fs) :
    OnlyChanges fs s0 (State.loadTwin s x1 x2 x3) := by
  unfold State.loadTwin
  try dsimp only
  repeat' first
    | with_reducible assumption
    | with_reducible apply State.checkTwin_frame
    | with_reducible apply State.copyTwin_frame
    | with_reducible apply OnlyChanges.foldl
    | split
    | (intro)

theorem State.lookupJoin_frame {fs : List Part} {s0 : State} (x1 : WindowRecord) (x2 : Bool) (s : State)
    (h : OnlyChanges fs s0 s) (m_ent : Part.ent ∈ fs) (m_flt : Part.flt ∈ fs) (m_ing : Part.ing ∈ fs) (m_mem : Part.mem ∈ fs)
    (m_out : Part.out ∈ fs) (m_pins : Part.pins ∈ fs) :
    OnlyChanges fs s0 (State.lookupJoin s x1 x2) := by
  unfold State.lookupJoin
  try dsimp only
  repeat' first
    | with_reducible assumption
    | with_reducible apply State.joined_frame
    | with_reducible apply State.cacheRow_frame
    | with_reducible apply State.checkParity_frame
    | with_reducible apply State.voidEntity_frame
    | with_reducible apply State.joinEntry_frame
    | with_reducible apply OnlyChanges.foldl
    | split
    | (intro)

theorem State.loseWord_frame {fs : List Part} {s0 : State} (x1 : Nat) (s : State) (h : OnlyChanges fs s0 s)
    (m_flt : Part.flt ∈ fs) (m_out : Part.out ∈ fs) (m_pins : Part.pins ∈ fs) (m_tally : Part.tally ∈ fs) :
    OnlyChanges fs s0 (State.loseWord s x1) := by
  unfold State.loseWord
  try dsimp only
  repeat' first
    | with_reducible assumption
    | with_reducible apply State.modTile_frame
    | with_reducible apply State.logTally_frame
    | with_reducible apply OnlyChanges.foldl
    | split
    | (intro)
    | with_reducible apply OnlyChanges.upd
    | with_reducible rfl
    | exact Or.inl rfl
    | (apply Or.inr; with_reducible assumption)

theorem State.markReplay_frame {fs : List Part} {s0 : State} (x1 : Bool) (s : State) (h : OnlyChanges fs s0 s)
    (m_acc : Part.acc ∈ fs) (m_jobs : Part.jobs ∈ fs) :
    OnlyChanges fs s0 (State.markReplay s x1) := by
  unfold State.markReplay
  try dsimp only
  repeat' first
    | with_reducible assumption
    | with_reducible apply State.claimAll_frame
    | with_reducible apply OnlyChanges.foldl
    | split
    | (intro)
    | with_reducible apply OnlyChanges.upd
    | with_reducible rfl
    | exact Or.inl rfl
    | (apply Or.inr; with_reducible assumption)

theorem State.modModule_frame {fs : List Part} {s0 : State} (x1 : Nat) (x2 : LinkModule → LinkModule) (s : State)
    (h : OnlyChanges fs s0 s) (m_link : Part.link ∈ fs) :
    OnlyChanges fs s0 (State.modModule s x1 x2) := by
  unfold State.modModule
  try dsimp only
  repeat' first
    | with_reducible assumption
    | with_reducible apply OnlyChanges.foldl
    | split
    | (intro)
    | with_reducible apply OnlyChanges.upd
    | with_reducible rfl
    | exact Or.inl rfl
    | (apply Or.inr; with_reducible assumption)

theorem State.nextOrder_frame {fs : List Part} {s0 : State}  (s : State) (h : OnlyChanges fs s0 s) (m_ing : Part.ing ∈ fs) :
    OnlyChanges fs s0 (State.nextOrder s) := by
  unfold State.nextOrder
  try dsimp only
  repeat' first
    | with_reducible assumption
    | with_reducible apply OnlyChanges.foldl
    | split
    | (intro)
    | with_reducible apply OnlyChanges.upd
    | with_reducible rfl
    | exact Or.inl rfl
    | (apply Or.inr; with_reducible assumption)

theorem State.pairWith_frame {fs : List Part} {s0 : State} (x1 : Nat) (x2 : Nat) (x3 : Word32) (x4 : HeldScale) (s : State)
    (h : OnlyChanges fs s0 s) (m_ing : Part.ing ∈ fs) :
    OnlyChanges fs s0 (State.pairWith s x1 x2 x3 x4) := by
  unfold State.pairWith
  try dsimp only
  repeat' first
    | with_reducible assumption
    | with_reducible apply State.modPair_frame
    | with_reducible apply State.modStream_frame
    | with_reducible apply OnlyChanges.foldl
    | split
    | (intro)

theorem State.startStream_frame {fs : List Part} {s0 : State} (x1 : Nat) (x2 : Word32) (s : State) (h : OnlyChanges fs s0 s)
    (m_ing : Part.ing ∈ fs) :
    OnlyChanges fs s0 (State.startStream s x1 x2) := by
  unfold State.startStream
  try dsimp only
  repeat' first
    | with_reducible assumption
    | with_reducible apply State.modStream_frame
    | with_reducible apply OnlyChanges.foldl
    | split
    | (intro)

theorem State.takePlace_frame {fs : List Part} {s0 : State} (x1 : Nat) (x2 : Word32) (x3 : Word) (x4 : Nat)
    (x5 : WindowPhase) (x6 : List Byte) (x7 : Nat) (x8 : Option BlockRef) (s : State) (h : OnlyChanges fs s0 s)
    (m_ing : Part.ing ∈ fs) :
    OnlyChanges fs s0 (State.takePlace s x1 x2 x3 x4 x5 x6 x7 x8) := by
  unfold State.takePlace
  try dsimp only
  repeat' first
    | with_reducible assumption
    | with_reducible apply State.nextOrder_frame
    | with_reducible apply State.modStream_frame
    | with_reducible apply State.startStream_frame
    | with_reducible apply OnlyChanges.foldl
    | split
    | (intro)
    | with_reducible apply OnlyChanges.upd
    | with_reducible rfl
    | exact Or.inl rfl
    | (apply Or.inr; with_reducible assumption)

theorem State.placeRecord_frame {fs : List Part} {s0 : State} (x1 : FrameHeader) (x2 : List Byte) (x3 : Nat) (x4 : Bool)
    (x5 : Option BlockRef) (s : State) (h : OnlyChanges fs s0 s) (m_ing : Part.ing ∈ fs) :
    OnlyChanges fs s0 (State.placeRecord s x1 x2 x3 x4 x5) := by
  unfold State.placeRecord
  try dsimp only
  repeat' first
    | with_reducible assumption
    | with_reducible apply State.takePlace_frame
    | with_reducible apply State.countVoid_frame
    | with_reducible apply State.blockRecordDone_frame
    | with_reducible apply OnlyChanges.foldl
    | split
    | (intro)

theorem State.pollStatus_frame {fs : List Part} {s0 : State} (x1 : Bool) (x2 : Bool) (s : State) (h : OnlyChanges fs s0 s)
    (m_gait : Part.gait ∈ fs) (m_out : Part.out ∈ fs) :
    OnlyChanges fs s0 (State.pollStatus s x1 x2) := by
  unfold State.pollStatus
  try dsimp only
  repeat' first
    | with_reducible assumption
    | with_reducible apply State.send_frame
    | with_reducible apply OnlyChanges.foldl
    | split
    | (intro)
    | with_reducible apply OnlyChanges.upd
    | with_reducible rfl
    | exact Or.inl rfl
    | (apply Or.inr; with_reducible assumption)

theorem State.pairBlock_frame {fs : List Part} {s0 : State} (s : State) (h : OnlyChanges fs s0 s) (a b : Nat) (q : Word32)
    (k : Nat) (m_ing : Part.ing ∈ fs) (m_out : Part.out ∈ fs) :
    OnlyChanges fs s0 (s.pairBlock a b q k).2 := by
  unfold State.pairBlock
  repeat' first
    | with_reducible assumption
    | with_reducible apply State.unseat_frame
    | with_reducible apply State.pairWith_frame
    | with_reducible apply OnlyChanges.foldl
    | split
    | (intro)

theorem State.admitScale_frame {fs : List Part} {s0 : State} (s : State) (h : OnlyChanges fs s0 s) (r : Route)
    (x : FrameHeader) (f : List Byte) (c : Bool) (m_ing : Part.ing ∈ fs) (m_out : Part.out ∈ fs) (t : State)
    (e : s.admitScale r x f c = .done t) : OnlyChanges fs s0 t := by
  unfold State.admitScale at e
  dsimp only at e
  repeat' split at e
  all_goals first
    | (cases e; done)
    | (injection e with e; subst e)
  repeat' first
    | with_reducible assumption
    | with_reducible apply State.addDiscard_frame
    | with_reducible apply State.addHdrErr_frame
    | with_reducible apply State.blockRecordDone_frame
    | with_reducible apply State.countVoid_frame
    | with_reducible apply State.takePlace_frame
    | with_reducible apply State.startStream_frame
    | with_reducible apply State.scaleFailed_frame
    | with_reducible apply State.nextOrder_frame
    | with_reducible apply State.modStream_frame
    | with_reducible apply State.modPair_frame
    | with_reducible apply OnlyChanges.foldl
    | split
    | (intro)

theorem State.admitRecord_frame {fs : List Part} {s0 : State} (s : State) (h : OnlyChanges fs s0 s) (r : Route)
    (x : FrameHeader) (f : List Byte) (c b : Bool) (m_ing : Part.ing ∈ fs) (m_out : Part.out ∈ fs) (t : State)
    (e : s.admitRecord r x f c b = .done t) : OnlyChanges fs s0 t := by
  have hp : ∀ u : State, OnlyChanges fs s0 u → ∀ a b q k, OnlyChanges fs s0 (u.pairBlock a b q k).2 :=
    fun u hu a b q k => State.pairBlock_frame u hu a b q k m_ing m_out
  have hl : ∀ u : State, OnlyChanges fs s0 u → ∀ v y b, OnlyChanges fs s0 (u.placeRecord x f v y b) := by
    intro u hu v y b
    apply State.placeRecord_frame <;> assumption
  have hs : OnlyChanges fs s0 (s.startStream x.stream x.seq) := State.startStream_frame _ _ s h m_ing
  unfold State.admitRecord at e
  extract_lets st p isData void v paired at e
  split at e
  · injection e with e; subst e; exact State.addDiscard_frame _ _ h m_ing
  split at e
  · injection e with e; subst e; exact State.addDiscard_frame _ _ h m_ing
  split at e
  · injection e with e; subst e
    split
    · exact State.addHdrErr_frame _ h m_ing
    · exact State.addDiscard_frame _ _ h m_ing
  split at e
  · injection e with e; subst e; exact State.addDiscard_frame _ _ h m_ing
  split at e
  · cases e
  split at e
  · have hq : OnlyChanges fs s0 paired.2 := by
      show OnlyChanges fs s0 (Prod.snd (ite _ _ _))
      split
      · exact hp _ hs _ _ _ _
      · exact hs
    clear_value paired
    obtain ⟨q, u⟩ := paired
    cases q
    · injection e with e; subst e; exact hq
    · dsimp only at e hq
      split at e
      · injection e with e; subst e; exact State.addDiscard_frame _ _ hq m_ing
      · injection e with e; subst e; exact hl _ hq _ _ _
  · injection e with e; subst e; exact hl _ h _ _ _

theorem State.admitFrame_frame {fs : List Part} {s0 : State} (s : State) (h : OnlyChanges fs s0 s) (f : List Byte) (c : Bool)
    (m_ing : Part.ing ∈ fs) (m_out : Part.out ∈ fs) (t : State)
    (e : s.admitFrame f c = .done t) : OnlyChanges fs s0 t := by
  unfold State.admitFrame at e
  dsimp only at e
  repeat' split at e
  all_goals first
    | exact State.admitScale_frame s h _ _ _ _ m_ing m_out t e
    | exact State.admitRecord_frame s h _ _ _ _ _ m_ing m_out t e
    | (injection e with e; subst e)
  repeat' first
    | with_reducible assumption
    | with_reducible apply State.addBadGen_frame
    | with_reducible apply State.addHdrErr_frame
    | with_reducible apply State.addUnrouted_frame
    | with_reducible apply State.addDiscard_frame
    | with_reducible apply OnlyChanges.foldl
    | split
    | (intro)

theorem State.pumpModule_frame {fs : List Part} {s0 : State} (x1 : Nat) (x2 : Nat) (s : State) (h : OnlyChanges fs s0 s)
    (m_ing : Part.ing ∈ fs) (m_out : Part.out ∈ fs) :
    OnlyChanges fs s0 (State.pumpModule s x1 x2) := by
  induction x2 generalizing s with
  | zero => exact h
  | succ n ih =>
    unfold State.pumpModule
    split
    · exact h
    · split
      · exact h
      · split
        · exact h
        · rename_i e
          apply ih
          have := State.admitFrame_frame s h _ _ m_ing m_out _ e
          apply OnlyChanges.upd rfl this <;> first | exact Or.inl rfl | exact Or.inr m_ing | rfl

theorem State.pump_frame {fs : List Part} {s0 : State}  (s : State) (h : OnlyChanges fs s0 s) (m_ing : Part.ing ∈ fs)
    (m_out : Part.out ∈ fs) (m_pwr : Part.pwr ∈ fs) :
    OnlyChanges fs s0 (State.pump s) := by
  unfold State.pump
  try dsimp only
  repeat' first
    | with_reducible assumption
    | with_reducible apply State.refreshHeld_frame
    | with_reducible apply State.fillLanes_frame
    | with_reducible apply State.pumpModule_frame
    | with_reducible apply OnlyChanges.foldl
    | split
    | (intro)

theorem State.putAttempt_frame {fs : List Part} {s0 : State} (x1 : Attempt) (x2 : Option Detected) (s : State)
    (h : OnlyChanges fs s0 s) (m_flt : Part.flt ∈ fs) (m_grp : Part.grp ∈ fs) :
    OnlyChanges fs s0 (State.putAttempt s x1 x2) := by
  unfold State.putAttempt
  try dsimp only
  repeat' first
    | with_reducible assumption
    | with_reducible apply State.modAttempt_frame
    | with_reducible apply State.failAttempt_frame
    | with_reducible apply OnlyChanges.foldl
    | split
    | (intro)

theorem State.putGathered_frame {fs : List Part} {s0 : State} (x1 : Gathered) (s : State) (h : OnlyChanges fs s0 s)
    (m_grp : Part.grp ∈ fs) :
    OnlyChanges fs s0 (State.putGathered s x1) := by
  unfold State.putGathered
  try dsimp only
  repeat' first
    | with_reducible assumption
    | with_reducible apply OnlyChanges.foldl
    | split
    | (intro)
    | with_reducible apply OnlyChanges.upd
    | with_reducible rfl
    | exact Or.inl rfl
    | (apply Or.inr; with_reducible assumption)

theorem State.refuseEntity_frame {fs : List Part} {s0 : State} (x1 : Job) (x2 : Nat × Nat × Bool) (s : State)
    (h : OnlyChanges fs s0 s) (m_ent : Part.ent ∈ fs) (m_gait : Part.gait ∈ fs) (m_jobs : Part.jobs ∈ fs)
    (m_led : Part.led ∈ fs) (m_mem : Part.mem ∈ fs) (m_out : Part.out ∈ fs) (m_rings : Part.rings ∈ fs) :
    OnlyChanges fs s0 (State.refuseEntity s x1 x2) := by
  unfold State.refuseEntity
  try dsimp only
  repeat' first
    | with_reducible assumption
    | with_reducible apply State.finishJob_frame
    | with_reducible apply OnlyChanges.foldl
    | split
    | (intro)
    | with_reducible apply OnlyChanges.upd
    | with_reducible rfl
    | exact Or.inl rfl
    | (apply Or.inr; with_reducible assumption)

theorem State.reissue_frame {fs : List Part} {s0 : State} (x1 : Nat) (x2 : Nat) (s : State) (h : OnlyChanges fs s0 s)
    (m_link : Part.link ∈ fs) (m_out : Part.out ∈ fs) (m_rings : Part.rings ∈ fs) :
    OnlyChanges fs s0 (State.reissue s x1 x2) := by
  unfold State.reissue
  try dsimp only
  repeat' first
    | with_reducible assumption
    | with_reducible apply State.modModule_frame
    | with_reducible apply State.send_frame
    | with_reducible apply OnlyChanges.foldl
    | split
    | (intro)
    | with_reducible apply OnlyChanges.upd
    | with_reducible rfl
    | exact Or.inl rfl
    | (apply Or.inr; with_reducible assumption)

theorem State.reload_frame {fs : List Part} {s0 : State}  (s : State) (h : OnlyChanges fs s0 s) (m_arr : Part.arr ∈ fs)
    (m_grp : Part.grp ∈ fs) :
    OnlyChanges fs s0 (State.reload s) := by
  unfold State.reload
  try dsimp only
  repeat' first
    | with_reducible assumption
    | with_reducible apply State.fillPosition_frame
    | with_reducible apply OnlyChanges.foldl
    | split
    | (intro)
    | with_reducible apply OnlyChanges.upd
    | with_reducible rfl
    | exact Or.inl rfl
    | (apply Or.inr; with_reducible assumption)

theorem State.repayVoids_frame {fs : List Part} {s0 : State} (x1 : Job) (s : State) (h : OnlyChanges fs s0 s)
    (m_jobs : Part.jobs ∈ fs) (m_tally : Part.tally ∈ fs) :
    OnlyChanges fs s0 (State.repayVoids s x1) := by
  unfold State.repayVoids
  try dsimp only
  repeat' first
    | with_reducible assumption
    | with_reducible apply State.modJob_frame
    | with_reducible apply State.countVoided_frame
    | with_reducible apply OnlyChanges.foldl
    | split
    | (intro)

theorem State.replayOne_frame {fs : List Part} {s0 : State} (x0 : Bool) (x2 : Job × Head × JobPlace) (s : State)
    (h : OnlyChanges fs s0 s) (m_acc : Part.acc ∈ fs) (m_flt : Part.flt ∈ fs) (m_gait : Part.gait ∈ fs)
    (m_grp : Part.grp ∈ fs) (m_jobs : Part.jobs ∈ fs) (m_led : Part.led ∈ fs) (m_mem : Part.mem ∈ fs) (m_out : Part.out ∈ fs)
    (m_pins : Part.pins ∈ fs) (m_rings : Part.rings ∈ fs) (m_tally : Part.tally ∈ fs) :
    OnlyChanges fs s0 (State.replayOne x0 s x2) := by
  unfold State.replayOne
  try dsimp only
  repeat' first
    | with_reducible assumption
    | with_reducible apply State.voidBuffer_frame
    | with_reducible apply State.holdPlace_frame
    | with_reducible apply State.voidPlace_frame
    | with_reducible apply State.modGroup_frame
    | with_reducible apply OnlyChanges.foldl
    | split
    | (intro)

theorem State.reportThermal_frame {fs : List Part} {s0 : State} (x1 : Bool) (s : State) (h : OnlyChanges fs s0 s)
    (m_flt : Part.flt ∈ fs) (m_grp : Part.grp ∈ fs) (m_out : Part.out ∈ fs) (m_pins : Part.pins ∈ fs) :
    OnlyChanges fs s0 (State.reportThermal s x1) := by
  unfold State.reportThermal
  try dsimp only
  repeat' first
    | with_reducible assumption
    | with_reducible apply State.notifyIf_frame
    | with_reducible apply State.logEvent_frame
    | with_reducible apply OnlyChanges.foldl
    | split
    | (intro)
    | with_reducible apply OnlyChanges.upd
    | with_reducible rfl
    | exact Or.inl rfl
    | (apply Or.inr; with_reducible assumption)

theorem State.restore_frame {fs : List Part} {s0 : State} (x1 : Save) (x2 : Bool) (s : State) (h : OnlyChanges fs s0 s)
    (m_acc : Part.acc ∈ fs) (m_arr : Part.arr ∈ fs) (m_bag : Part.bag ∈ fs) (m_ent : Part.ent ∈ fs) (m_flt : Part.flt ∈ fs)
    (m_gait : Part.gait ∈ fs) (m_grp : Part.grp ∈ fs) (m_img : Part.img ∈ fs) (m_ing : Part.ing ∈ fs)
    (m_jobs : Part.jobs ∈ fs) (m_led : Part.led ∈ fs) (m_link : Part.link ∈ fs) (m_live : Part.live ∈ fs)
    (m_mem : Part.mem ∈ fs) (m_mnt : Part.mnt ∈ fs) (m_pins : Part.pins ∈ fs) (m_pwr : Part.pwr ∈ fs)
    (m_rings : Part.rings ∈ fs) (m_sel : Part.sel ∈ fs) (m_shadow : Part.shadow ∈ fs) (m_snd : Part.snd ∈ fs)
    (m_tally : Part.tally ∈ fs) (m_tap : Part.tap ∈ fs) :
    OnlyChanges fs s0 (State.restore s x1 x2) := by
  unfold State.restore
  try dsimp only
  repeat' first
    | with_reducible assumption
    | with_reducible apply State.cold_frame
    | with_reducible apply OnlyChanges.foldl
    | split
    | (intro)
    | with_reducible apply OnlyChanges.upd
    | with_reducible rfl
    | exact Or.inl rfl
    | (apply Or.inr; with_reducible assumption)

theorem State.runAhead_frame {fs : List Part} {s0 : State} (x1 : Word) (s : State) (h : OnlyChanges fs s0 s)
    (m_ent : Part.ent ∈ fs) :
    OnlyChanges fs s0 (State.runAhead s x1) := by
  unfold State.runAhead
  try dsimp only
  repeat' first
    | with_reducible assumption
    | with_reducible apply State.cacheRow_frame
    | with_reducible apply OnlyChanges.foldl
    | split
    | (intro)
    | with_reducible apply OnlyChanges.upd
    | with_reducible rfl
    | exact Or.inl rfl
    | (apply Or.inr; with_reducible assumption)

theorem State.scoreStep_frame {fs : List Part} {s0 : State} (x1 : Nat) (x2 : Nat) (s : State) (h : OnlyChanges fs s0 s)
    (m_acc : Part.acc ∈ fs) (m_gait : Part.gait ∈ fs) (m_grp : Part.grp ∈ fs) (m_jobs : Part.jobs ∈ fs)
    (m_led : Part.led ∈ fs) (m_mem : Part.mem ∈ fs) (m_out : Part.out ∈ fs) (m_rings : Part.rings ∈ fs)
    (m_tally : Part.tally ∈ fs) :
    OnlyChanges fs s0 (State.scoreStep s x1 x2) := by
  unfold State.scoreStep
  try dsimp only
  repeat' first
    | with_reducible assumption
    | with_reducible apply State.offer_frame
    | with_reducible apply State.modJob_frame
    | with_reducible apply OnlyChanges.foldl
    | split
    | (intro)

theorem State.secondPass_frame {fs : List Part} {s0 : State} (x1 : Load) (x2 : Option (Nat × Nat × Nat × Nat)) (s : State)
    (h : OnlyChanges fs s0 s) (m_arr : Part.arr ∈ fs) (m_gait : Part.gait ∈ fs) (m_img : Part.img ∈ fs)
    (m_jobs : Part.jobs ∈ fs) (m_led : Part.led ∈ fs) (m_mem : Part.mem ∈ fs) (m_out : Part.out ∈ fs)
    (m_rings : Part.rings ∈ fs) :
    OnlyChanges fs s0 (State.secondPass s x1 x2) := by
  unfold State.secondPass
  extract_lets b d x img build u rs now
  have hu : OnlyChanges fs s0 u := State.dropPending_frame _ h m_arr m_img
  clear_value b d x img build u rs now
  split
  · apply State.endLoad_frame <;> assumption
  · split
    · apply State.endLoad_frame <;> assumption
    · split
      · apply State.endLoad_frame <;> assumption
      · split
        · apply State.endLoad_frame <;> assumption
        · split
          · apply State.endLoad_frame <;> assumption
          · apply State.endLoad_frame <;> first | assumption | skip
            have hg := OnlyChanges.foldl (f := fun (t : State) g => t.loadGroup img x1.disp g) (newGroups img.tables x1.disp)
                hu
              (fun x t ht => State.loadGroup_frame _ _ _ _ ht m_arr)
            refine State.copyImage_frame _ _ _ ?_ m_mem
            apply OnlyChanges.upd rfl hg <;> first | exact Or.inl rfl | exact Or.inr m_img | rfl

theorem State.selectTap_frame {fs : List Part} {s0 : State} (x1 : Tap) (s : State) (h : OnlyChanges fs s0 s)
    (m_pins : Part.pins ∈ fs) (m_tap : Part.tap ∈ fs) :
    OnlyChanges fs s0 (State.selectTap s x1) := by
  unfold State.selectTap
  try dsimp only
  repeat' first
    | with_reducible assumption
    | with_reducible apply State.refreshFault_frame
    | with_reducible apply OnlyChanges.foldl
    | split
    | (intro)
    | with_reducible apply OnlyChanges.upd
    | with_reducible rfl
    | exact Or.inl rfl
    | (apply Or.inr; with_reducible assumption)

theorem State.setSaturated_frame {fs : List Part} {s0 : State} (x1 : Nat) (s : State) (h : OnlyChanges fs s0 s)
    (m_tally : Part.tally ∈ fs) :
    OnlyChanges fs s0 (State.setSaturated s x1) := by
  unfold State.setSaturated
  try dsimp only
  repeat' first
    | with_reducible assumption
    | with_reducible apply State.modTile_frame
    | with_reducible apply OnlyChanges.foldl
    | split
    | (intro)

theorem State.stageWrite_frame {fs : List Part} {s0 : State} (x1 : Nat) (x2 : Word) (s : State) (h : OnlyChanges fs s0 s)
    (m_gait : Part.gait ∈ fs) (m_mnt : Part.mnt ∈ fs) (m_out : Part.out ∈ fs) (m_shadow : Part.shadow ∈ fs) :
    OnlyChanges fs s0 (State.stageWrite s x1 x2) := by
  unfold State.stageWrite
  try dsimp only
  repeat' first
    | with_reducible assumption
    | with_reducible apply State.retarget_frame
    | with_reducible apply OnlyChanges.foldl
    | split
    | (intro)
    | with_reducible apply OnlyChanges.upd
    | with_reducible rfl
    | exact Or.inl rfl
    | (apply Or.inr; with_reducible assumption)

theorem State.writeRows_frame {fs : List Part} {s0 : State} (x1 : List UpdateEntry) (s : State) (h : OnlyChanges fs s0 s)
    (m_ent : Part.ent ∈ fs) (m_flt : Part.flt ∈ fs) (m_mem : Part.mem ∈ fs) :
    OnlyChanges fs s0 (State.writeRows s x1) := by
  induction x1 generalizing s with
  | nil => exact h
  | cons u us ih =>
    unfold State.writeRows
    split
    · exact h
    · extract_lets
      apply ih
      apply State.entWrite_frame _ _ _ _ m_flt m_mem
      apply OnlyChanges.upd rfl h <;> first | exact Or.inl rfl | exact Or.inr m_ent | rfl

theorem State.startEntity_frame {fs : List Part} {s0 : State} (x1 : Job) (x2 : Bool) (s : State) (h : OnlyChanges fs s0 s)
    (m_ent : Part.ent ∈ fs) (m_flt : Part.flt ∈ fs) (m_gait : Part.gait ∈ fs) (m_jobs : Part.jobs ∈ fs)
    (m_led : Part.led ∈ fs) (m_mem : Part.mem ∈ fs) (m_out : Part.out ∈ fs) (m_pins : Part.pins ∈ fs)
    (m_rings : Part.rings ∈ fs) :
    OnlyChanges fs s0 (State.startEntity s x1 x2) := by
  unfold State.startEntity
  try dsimp only
  repeat' first
    | with_reducible assumption
    | with_reducible apply State.modJob_frame
    | with_reducible apply State.checkKeys_frame
    | with_reducible apply State.refuseEntity_frame
    | with_reducible apply State.writeRows_frame
    | with_reducible apply OnlyChanges.foldl
    | split
    | (intro)
    | with_reducible apply OnlyChanges.upd
    | with_reducible rfl
    | exact Or.inl rfl
    | (apply Or.inr; with_reducible assumption)

theorem State.startRetrain_frame {fs : List Part} {s0 : State} (x1 : Nat) (s : State) (h : OnlyChanges fs s0 s)
    (m_link : Part.link ∈ fs) :
    OnlyChanges fs s0 (State.startRetrain s x1) := by
  unfold State.startRetrain
  try dsimp only
  repeat' first
    | with_reducible assumption
    | with_reducible apply OnlyChanges.foldl
    | split
    | (intro)
    | with_reducible apply OnlyChanges.upd
    | with_reducible rfl
    | exact Or.inl rfl
    | (apply Or.inr; with_reducible assumption)

theorem State.storeTally_frame {fs : List Part} {s0 : State} (x1 : List Nat) (x2 : Nat) (x3 : Word) (s : State)
    (h : OnlyChanges fs s0 s) (m_tally : Part.tally ∈ fs) :
    OnlyChanges fs s0 (State.storeTally s x1 x2 x3) := by
  unfold State.storeTally
  try dsimp only
  repeat' first
    | with_reducible assumption
    | with_reducible apply State.putTally_frame
    | with_reducible apply State.modTile_frame
    | with_reducible apply OnlyChanges.foldl
    | split
    | (intro)

theorem State.submit_frame {fs : List Part} {s0 : State} (x1 : Nat) (x2 : Word32) (s : State) (h : OnlyChanges fs s0 s)
    (m_jobs : Part.jobs ∈ fs) (m_rings : Part.rings ∈ fs) :
    OnlyChanges fs s0 (State.submit s x1 x2) := by
  unfold State.submit
  try dsimp only
  repeat' first
    | with_reducible assumption
    | with_reducible apply State.readHead_frame
    | with_reducible apply State.modRing_frame
    | with_reducible apply OnlyChanges.foldl
    | split
    | (intro)
    | with_reducible apply OnlyChanges.upd
    | with_reducible rfl
    | exact Or.inl rfl
    | (apply Or.inr; with_reducible assumption)

theorem State.switchGroup_frame {fs : List Part} {s0 : State} (x1 : Group) (x2 : List (Nat × Nat)) (s : State)
    (h : OnlyChanges fs s0 s) (m_acc : Part.acc ∈ fs) (m_arr : Part.arr ∈ fs) (m_flt : Part.flt ∈ fs)
    (m_gait : Part.gait ∈ fs) (m_grp : Part.grp ∈ fs) (m_img : Part.img ∈ fs) (m_jobs : Part.jobs ∈ fs)
    (m_led : Part.led ∈ fs) (m_mem : Part.mem ∈ fs) (m_out : Part.out ∈ fs) (m_pins : Part.pins ∈ fs)
    (m_rings : Part.rings ∈ fs) (m_tally : Part.tally ∈ fs) :
    OnlyChanges fs s0 (State.switchGroup s x1 x2) := by
  unfold State.switchGroup
  try dsimp only
  repeat' first
    | with_reducible assumption
    | with_reducible apply State.modGroup_frame
    | with_reducible apply State.loadTwin_frame
    | with_reducible apply State.freeTwin_frame
    | with_reducible apply State.retarget_frame
    | with_reducible apply OnlyChanges.foldl
    | split
    | (intro)

theorem State.takeHead_frame {fs : List Part} {s0 : State} (x1 : Nat) (x2 : Word32) (s : State) (h : OnlyChanges fs s0 s)
    (m_rings : Part.rings ∈ fs) :
    OnlyChanges fs s0 (State.takeHead s x1 x2) := by
  unfold State.takeHead
  try dsimp only
  repeat' first
    | with_reducible assumption
    | with_reducible apply State.modRing_frame
    | with_reducible apply OnlyChanges.foldl
    | split
    | (intro)

theorem State.readTally_frame {fs : List Part} {s0 : State} (s : State) (h : OnlyChanges fs s0 s) (w : Nat)
    (m_tally : Part.tally ∈ fs) (m_flt : Part.flt ∈ fs) (m_out : Part.out ∈ fs) (m_pins : Part.pins ∈ fs) : OnlyChanges fs s0
    (s.readTally w).2 := by
  unfold State.readTally
  dsimp only
  repeat' first
    | with_reducible assumption
    | with_reducible apply State.correctWord_frame
    | with_reducible apply State.loseWord_frame
    | with_reducible apply OnlyChanges.foldl
    | split
    | (intro)
    | with_reducible apply OnlyChanges.upd
    | with_reducible rfl
    | exact Or.inl rfl
    | (apply Or.inr; with_reducible assumption)

theorem State.noteSaturation_frame {fs : List Part} {s0 : State} (s : State) (h : OnlyChanges fs s0 s) (k : Kept) (w : Nat)
    (b : Bool) (m_tally : Part.tally ∈ fs) :
    OnlyChanges fs s0 (s.noteSaturation k w b).1 := by
  unfold State.noteSaturation
  repeat' first
    | with_reducible assumption
    | with_reducible apply State.setSaturated_frame
    | with_reducible apply OnlyChanges.foldl
    | split
    | (intro)

theorem State.addStandard_frame {fs : List Part} {s0 : State} (s : State) (h : OnlyChanges fs s0 s) (a : Bool) (b : List Nat)
    (x : Addend) (k : Kept) (m_tally : Part.tally ∈ fs) (m_flt : Part.flt ∈ fs) (m_out : Part.out ∈ fs)
    (m_pins : Part.pins ∈ fs) :
    OnlyChanges fs s0 (s.addStandard a b x k).1 := by
  unfold State.addStandard
  dsimp only
  repeat' first
    | with_reducible assumption
    | with_reducible apply State.noteSaturation_frame
    | with_reducible apply State.storeTally_frame
    | with_reducible apply State.readTally_frame
    | with_reducible apply OnlyChanges.foldl
    | split
    | (intro)

theorem State.addWide_frame {fs : List Part} {s0 : State} (s : State) (h : OnlyChanges fs s0 s) (a : Bool) (b : List Nat)
    (x : Addend) (k : Kept) (m_tally : Part.tally ∈ fs) (m_flt : Part.flt ∈ fs) (m_out : Part.out ∈ fs)
    (m_pins : Part.pins ∈ fs) :
    OnlyChanges fs s0 (s.addWide a b x k).1 := by
  unfold State.addWide
  dsimp only
  repeat' first
    | with_reducible assumption
    | with_reducible apply State.noteSaturation_frame
    | with_reducible apply State.storeTally_frame
    | with_reducible apply State.readTally_frame
    | with_reducible apply OnlyChanges.foldl
    | split
    | (intro)

theorem State.addAll_frame {fs : List Part} {s0 : State} (s : State) (h : OnlyChanges fs s0 s) (a : Bool) (b : List Nat)
    (xs : List Addend) (m_tally : Part.tally ∈ fs) (m_flt : Part.flt ∈ fs) (m_out : Part.out ∈ fs) (m_pins : Part.pins ∈ fs)
    :
    OnlyChanges fs s0 (s.addAll a b xs).1 := by
  unfold State.addAll
  generalize (⟨[], []⟩ : Kept) = k
  induction xs generalizing s k with
  | nil => exact h
  | cons x xs ih =>
    rw [List.foldl_cons]
    split
    · exact ih _ (State.addWide_frame s h _ _ _ _ m_tally m_flt m_out m_pins) _
    · exact ih _ (State.addStandard_frame s h _ _ _ _ m_tally m_flt m_out m_pins) _

theorem State.writeHalf_frame {fs : List Part} {s0 : State} (x1 : Job) (x2 : Nat) (x3 : JobPlace) (x4 : List Addend)
    (s : State) (h : OnlyChanges fs s0 s) (m_acc : Part.acc ∈ fs) (m_flt : Part.flt ∈ fs) (m_out : Part.out ∈ fs)
    (m_pins : Part.pins ∈ fs) (m_tally : Part.tally ∈ fs) :
    OnlyChanges fs s0 (State.writeHalf s x1 x2 x3 x4) := by
  unfold State.writeHalf
  try dsimp only
  repeat' first
    | with_reducible assumption
    | with_reducible apply State.modPlace_frame
    | with_reducible apply State.addAll_frame
    | with_reducible apply OnlyChanges.foldl
    | split
    | (intro)

theorem State.writeLast_frame {fs : List Part} {s0 : State} (x1 : Job) (x2 : Nat) (x3 : JobPlace) (x4 : Bool)
    (x5 : List Addend) (x6 : Gathered) (s : State) (h : OnlyChanges fs s0 s) (m_acc : Part.acc ∈ fs) (m_flt : Part.flt ∈ fs)
    (m_mem : Part.mem ∈ fs) (m_out : Part.out ∈ fs) (m_pins : Part.pins ∈ fs) (m_rings : Part.rings ∈ fs)
    (m_tally : Part.tally ∈ fs) :
    OnlyChanges fs s0 (State.writeLast s x1 x2 x3 x4 x5 x6) := by
  unfold State.writeLast
  try dsimp only
  repeat' first
    | with_reducible assumption
    | with_reducible apply State.modPlace_frame
    | with_reducible apply State.settle_frame
    | with_reducible apply State.addAll_frame
    | with_reducible apply OnlyChanges.foldl
    | split
    | (intro)

theorem State.tallyStage_frame {fs : List Part} {s0 : State} (x1 : Attempt) (x2 : Job) (x3 : ModelDef) (x4 : JobPlace)
    (s : State) (h : OnlyChanges fs s0 s) (m_acc : Part.acc ∈ fs) (m_flt : Part.flt ∈ fs) (m_gait : Part.gait ∈ fs)
    (m_grp : Part.grp ∈ fs) (m_jobs : Part.jobs ∈ fs) (m_led : Part.led ∈ fs) (m_mem : Part.mem ∈ fs) (m_out : Part.out ∈ fs)
    (m_pins : Part.pins ∈ fs) (m_rings : Part.rings ∈ fs) (m_tally : Part.tally ∈ fs) :
    OnlyChanges fs s0 (State.tallyStage s x1 x2 x3 x4) := by
  unfold State.tallyStage
  try dsimp only
  repeat' first
    | with_reducible assumption
    | with_reducible apply State.writeHalf_frame
    | with_reducible apply State.putGathered_frame
    | with_reducible apply State.dropAttempt_frame
    | with_reducible apply State.endRecord_frame
    | with_reducible apply State.voidPlace_frame
    | with_reducible apply State.writeLast_frame
    | with_reducible apply OnlyChanges.foldl
    | split
    | (intro)

theorem State.thermal_frame {fs : List Part} {s0 : State}  (s : State) (h : OnlyChanges fs s0 s) (m_flt : Part.flt ∈ fs)
    (m_gait : Part.gait ∈ fs) (m_grp : Part.grp ∈ fs) (m_out : Part.out ∈ fs) (m_pins : Part.pins ∈ fs) :
    OnlyChanges fs s0 (State.thermal s) := by
  unfold State.thermal
  try dsimp only
  repeat' first
    | with_reducible assumption
    | with_reducible apply State.reportThermal_frame
    | with_reducible apply OnlyChanges.foldl
    | split
    | (intro)
    | with_reducible apply OnlyChanges.upd
    | with_reducible rfl
    | exact Or.inl rfl
    | (apply Or.inr; with_reducible assumption)

theorem State.tripped_frame {fs : List Part} {s0 : State} (x1 : SagSource) (s : State) (h : OnlyChanges fs s0 s)
    (m_pins : Part.pins ∈ fs) (m_pwr : Part.pwr ∈ fs) :
    OnlyChanges fs s0 (State.tripped s x1) := by
  unfold State.tripped
  try dsimp only
  repeat' first
    | with_reducible assumption
    | with_reducible apply OnlyChanges.foldl
    | split
    | (intro)
    | with_reducible apply OnlyChanges.upd
    | with_reducible rfl
    | exact Or.inl rfl
    | (apply Or.inr; with_reducible assumption)

theorem State.tunePass_frame {fs : List Part} {s0 : State} (x1 : Attempt) (x2 : ModelDef) (x3 : Nat) (s : State)
    (h : OnlyChanges fs s0 s) (m_grp : Part.grp ∈ fs) :
    OnlyChanges fs s0 (State.tunePass s x1 x2 x3) := by
  unfold State.tunePass
  try dsimp only
  repeat' first
    | with_reducible assumption
    | with_reducible apply State.putGathered_frame
    | with_reducible apply State.dropAttempt_frame
    | with_reducible apply OnlyChanges.foldl
    | split
    | (intro)

theorem State.upsetIndex_frame {fs : List Part} {s0 : State} (x1 : List Upset) (s : State) (h : OnlyChanges fs s0 s)
    (m_ent : Part.ent ∈ fs) :
    OnlyChanges fs s0 (State.upsetIndex s x1) := by
  unfold State.upsetIndex
  try dsimp only
  repeat' first
    | with_reducible assumption
    | with_reducible apply OnlyChanges.foldl
    | split
    | (intro)
    | with_reducible apply OnlyChanges.upd
    | with_reducible rfl
    | exact Or.inl rfl
    | (apply Or.inr; with_reducible assumption)

theorem State.writeAccept_frame {fs : List Part} {s0 : State} (x1 : Nat) (s : State) (h : OnlyChanges fs s0 s)
    (m_ing : Part.ing ∈ fs) (m_mem : Part.mem ∈ fs) :
    OnlyChanges fs s0 (State.writeAccept s x1) := by
  unfold State.writeAccept
  try dsimp only
  repeat' first
    | with_reducible assumption
    | with_reducible apply State.modStream_frame
    | with_reducible apply State.write_frame
    | with_reducible apply OnlyChanges.foldl
    | split
    | (intro)

theorem State.writeExpect_frame {fs : List Part} {s0 : State} (x1 : Nat) (x2 : Nat) (x3 : Word) (s : State)
    (h : OnlyChanges fs s0 s) (m_gait : Part.gait ∈ fs) (m_img : Part.img ∈ fs) (m_mnt : Part.mnt ∈ fs)
    (m_out : Part.out ∈ fs) (m_shadow : Part.shadow ∈ fs) :
    OnlyChanges fs s0 (State.writeExpect s x1 x2 x3) := by
  unfold State.writeExpect
  try dsimp only
  repeat' first
    | with_reducible assumption
    | with_reducible apply State.stageWrite_frame
    | with_reducible apply OnlyChanges.foldl
    | split
    | (intro)
    | with_reducible apply OnlyChanges.upd
    | with_reducible rfl
    | exact Or.inl rfl
    | (apply Or.inr; with_reducible assumption)

theorem State.writeFailed_frame {fs : List Part} {s0 : State}  (s : State) (h : OnlyChanges fs s0 s)
    (m_gait : Part.gait ∈ fs) (m_out : Part.out ∈ fs) :
    OnlyChanges fs s0 (State.writeFailed s) := by
  unfold State.writeFailed
  try dsimp only
  repeat' first
    | with_reducible assumption
    | with_reducible apply State.send_frame
    | with_reducible apply OnlyChanges.foldl
    | split
    | (intro)
    | with_reducible apply OnlyChanges.upd
    | with_reducible rfl
    | exact Or.inl rfl
    | (apply Or.inr; with_reducible assumption)

theorem State.zeroTiles_frame {fs : List Part} {s0 : State} (x1 : Job) (x2 : Nat) (x3 : Nat) (s : State)
    (h : OnlyChanges fs s0 s) (m_tally : Part.tally ∈ fs) :
    OnlyChanges fs s0 (State.zeroTiles s x1 x2 x3) := by
  unfold State.zeroTiles
  try dsimp only
  repeat' first
    | with_reducible assumption
    | with_reducible apply State.clearTiles_frame
    | with_reducible apply OnlyChanges.foldl
    | split
    | (intro)

end Sys2Proof.Laws
end

