-- ==== Sys2Proof/Laws/Sparse.lean ====
section
/-! SUPPORT. The laws of sparse stores and of memory: a read after a write, and that every operation keeps the canonical form. -/

-- Each theorem is checked before the next one, which bounds the threads that the compiler takes.
set_option Elab.async false

namespace Sys2Proof.Laws
open Sys2Proof.Machine

variable {α : Type} [DecidableEq α] {d : α} {m : Sparse α} {lo hi j k : Nat} {x : α}

theorem sget_sput (m : Sparse α) : sget d (sput m k x) j = if j = k then x else sget d m j := by
  induction m with
  | nil => by_cases h : k = j <;> simp [sput, sget, h, eq_comm (a := j)]
  | cons c m ih =>
    obtain ⟨i, y⟩ := c
    simp only [sput]
    split
    · simp only [sget, ih]; split <;> split <;> first | rfl | omega
    · split
      · subst i; simp only [sget]; by_cases h : k = j <;> simp [h, eq_comm (a := j)]
      · simp only [sget]; by_cases h : k = j <;> simp [h, eq_comm (a := j)]

theorem sparseFrom_mono (h : sparseFrom d hi m = true) (l : lo ≤ hi) : sparseFrom d lo m = true := by
  cases m with
  | nil => rfl
  | cons c m =>
    simp only [sparseFrom, Bool.and_eq_true, decide_eq_true_eq] at h ⊢
    exact ⟨⟨by omega, h.1.2⟩, h.2⟩

theorem sget_below (h : sparseFrom d hi m = true) (l : j < hi) : sget d m j = d := by
  induction m generalizing hi with
  | nil => rfl
  | cons c m ih =>
    simp only [sparseFrom, Bool.and_eq_true, decide_eq_true_eq] at h
    simp only [sget]
    rw [if_neg (by omega)]
    exact ih h.2 (by omega)

theorem sget_sdel (h : sparseFrom d lo m = true) : sget d (sdel m k) j = if j = k then d else sget d m j := by
  induction m generalizing lo with
  | nil => simp [sdel, sget]
  | cons c m ih =>
    obtain ⟨i, y⟩ := c
    simp only [sparseFrom, Bool.and_eq_true, decide_eq_true_eq] at h
    simp only [sdel]
    split
    · simp only [sget, ih h.2]; split <;> split <;> first | rfl | omega
    · split
      · subst i
        by_cases hj : j = k
        · subst hj; simpa using sget_below h.2 (Nat.lt_succ_self _)
        · rw [if_neg hj]; simp only [sget]; rw [if_neg (by omega)]
      · by_cases hj : j = k
        · subst hj
          rw [if_pos rfl]
          simp only [sget]
          rw [if_neg (by omega)]
          exact sget_below h.2 (by omega)
        · rw [if_neg hj]

/-- A read after a write of a canonical store. -/
theorem sget_sset (h : sparseOk d m = true) : sget d (sset d m k x) j = if j = k then x else sget d m j := by
  unfold sset
  split
  · subst x; exact sget_sdel h
  · exact sget_sput m

theorem sparseFrom_sput (h : sparseFrom d lo m = true) (l : lo ≤ k) (hx : x ≠ d) : sparseFrom d lo (sput m k x) = true := by
  induction m generalizing lo with
  | nil => simp [sput, sparseFrom, l, hx]
  | cons c m ih =>
    obtain ⟨i, y⟩ := c
    simp only [sparseFrom, Bool.and_eq_true, decide_eq_true_eq] at h
    simp only [sput]
    split
    · simp only [sparseFrom, Bool.and_eq_true, decide_eq_true_eq]
      exact ⟨h.1, ih h.2 (by omega)⟩
    · split
      · subst i
        simp only [sparseFrom, Bool.and_eq_true, decide_eq_true_eq]
        exact ⟨⟨l, hx⟩, h.2⟩
      · simp only [sparseFrom, Bool.and_eq_true, decide_eq_true_eq]
        exact ⟨⟨l, hx⟩, ⟨by omega, h.1.2⟩, h.2⟩

theorem sparseFrom_sdel (h : sparseFrom d lo m = true) : sparseFrom d lo (sdel m k) = true := by
  induction m generalizing lo with
  | nil => rfl
  | cons c m ih =>
    obtain ⟨i, y⟩ := c
    have h' := h
    simp only [sparseFrom, Bool.and_eq_true, decide_eq_true_eq] at h
    simp only [sdel]
    split
    · simp only [sparseFrom, Bool.and_eq_true, decide_eq_true_eq]
      exact ⟨h.1, ih h.2⟩
    · split
      · exact sparseFrom_mono h.2 (by omega)
      · exact h'

/-- A write keeps the canonical form of a store. -/
theorem sparseOk_sset (h : sparseOk d m = true) : sparseOk d (sset d m k x) = true := by
  unfold sset
  split
  · exact sparseFrom_sdel h
  · rename_i hx; exact sparseFrom_sput h (Nat.zero_le _) hx

/-- A change of an item keeps the canonical form of a store. -/
theorem sparseOk_smod {f : α → α} (h : sparseOk d m = true) : sparseOk d (smod d m k f) = true := sparseOk_sset h

theorem sget_smod {f : α → α} (h : sparseOk d m = true) :
    sget d (smod d m k f) j = if j = k then f (sget d m k) else sget d m j := sget_sset h

/-! ## Memory -/

/-- A byte written keeps the canonical form of memory. -/
theorem memSet_wf {m : List Host.Cell} (a : Nat) (b : Byte) (h : Memory.wf m = true) : Memory.wf (memSet m a b) = true :=
  sparseOk_sset h

/-- Bytes written keep the canonical form of memory. -/
theorem memWriteEach_wf {m : List Host.Cell} (a : Nat) (bs : List Byte) (h : Memory.wf m = true) : Memory.wf (memWriteEach m a bs) = true := by
  induction bs generalizing m a with
  | nil => exact h
  | cons b bs ih => exact ih _ (memSet_wf a b h)

/-- A byte read after a byte is written. -/
theorem memByte_memSet {m : List Host.Cell} (a c : Nat) (b : Byte) (h : Memory.wf m = true) :
    memByte (memSet m a b) c = if portAddr c = portAddr a then b else memByte m c := sget_sset h

/-- A write leaves every byte alone whose address it does not name. -/
theorem memByte_memWriteEach_other {m : List Host.Cell} (a c : Nat) (bs : List Byte) (h : Memory.wf m = true)
    (ne : ∀ i, i < bs.length → portAddr c ≠ portAddr (a + i)) : memByte (memWriteEach m a bs) c = memByte m c := by
  induction bs generalizing m a with
  | nil => rfl
  | cons b bs ih =>
    simp only [memWriteEach]
    rw [ih (a + 1) (memSet_wf a b h), memByte_memSet a c b h, if_neg (by simpa using ne 0 (by simp))]
    intro i hi
    have := ne (i + 1) (by simpa using hi)
    rwa [show a + (i + 1) = a + 1 + i by omega] at this

/-- A byte that a write names reads as written, when the write is shorter than the address space. -/
theorem memByte_memWriteEach {m : List Host.Cell} (a i : Nat) (bs : List Byte) (h : Memory.wf m = true) (hi : i < bs.length)
    (hl : bs.length ≤ 2 ^ 48) : memByte (memWriteEach m a bs) (a + i) = bs[i] := by
  induction bs generalizing m a i with
  | nil => simp at hi
  | cons b bs ih =>
    simp only [memWriteEach]
    cases i with
    | zero =>
      rw [memByte_memWriteEach_other _ _ _ (memSet_wf a b h), Nat.add_zero, memByte_memSet a a b h]
      · simp
      · intro i hi e
        simp only [portAddr, List.length_cons] at *
        omega
    | succ i =>
      have := ih (a + 1) i (memSet_wf a b h) (by simpa using hi) (by simp at hl; omega)
      rw [show a + (i + 1) = a + 1 + i by omega, this]
      simp

/-! ### A run of bytes -/

section Splice
variable {m : List Host.Cell} {lo hi j k a : Nat} {bs : List Byte}


theorem sget_below_takeWhile (h : j < a) (hm : sparseFrom memDefault lo m = true) (r : List Host.Cell) (hr : ∀ c ∈ r, a ≤ c.1) :
    sget memDefault (m.takeWhile (fun c => decide (c.1 < a)) ++ r) j = sget memDefault m j := by
  induction m generalizing lo with
  | nil =>
    induction r with
    | nil => rfl
    | cons c r ih =>
      have := hr c (by simp)
      simp only [List.takeWhile_nil, List.nil_append, sget] at ih ⊢
      rw [if_neg (by omega)]
      exact ih (fun c hc => hr c (by simp [hc]))
  | cons c m ih =>
    simp only [sparseFrom, Bool.and_eq_true, decide_eq_true_eq] at hm
    simp only [List.takeWhile_cons]
    by_cases hc : c.1 < a
    · simp only [hc, decide_true, if_true, List.cons_append, sget]
      rw [ih hm.2]
    · simp only [hc, decide_false, Bool.false_eq_true, if_false, List.nil_append]
      have e : sget memDefault (c :: m) j = memDefault := by
        refine sget_below (hi := c.1) ?_ (by omega)
        simp only [sparseFrom, Bool.and_eq_true, decide_eq_true_eq]
        exact ⟨⟨Nat.le_refl _, hm.1.2⟩, hm.2⟩
      rw [e]
      clear ih e
      induction r with
      | nil => rfl
      | cons c r ih =>
        have := hr c (by simp)
        simp only [sget]
        rw [if_neg (by omega)]
        exact ih (fun c hc => hr c (by simp [hc]))

theorem sget_append_above (xs r : List Host.Cell) (h : ∀ c ∈ xs, c.1 ≠ j) : sget memDefault (xs ++ r) j = sget memDefault r j := by
  induction xs with
  | nil => rfl
  | cons c xs ih =>
    simp only [List.cons_append, sget]
    rw [if_neg (h c (by simp)), ih (fun c hc => h c (by simp [hc]))]

theorem cellsFrom_bounds : ∀ c ∈ cellsFrom a bs, a ≤ c.1 ∧ c.1 < a + bs.length := by
  induction bs generalizing a with
  | nil => simp [cellsFrom]
  | cons b bs ih =>
    intro c hc
    simp only [cellsFrom] at hc
    split at hc
    · have := ih c hc; simp; omega
    · simp only [List.mem_cons] at hc
      rcases hc with rfl | hc
      · simp
      · have := ih c hc; simp; omega

theorem sget_cellsFrom (i : Nat) (hi : i < bs.length) (r : List Host.Cell) (hr : ∀ c ∈ r, a + bs.length ≤ c.1) :
    sget memDefault (cellsFrom a bs ++ r) (a + i) = bs[i] := by
  induction bs generalizing a i with
  | nil => simp at hi
  | cons b bs ih =>
    simp only [cellsFrom]
    have hr' : ∀ c ∈ r, a + 1 + bs.length ≤ c.1 := fun c hc => by have := hr c hc; simp at this; omega
    cases i with
    | zero =>
      split
      · rename_i e
        rw [Nat.add_zero, List.getElem_cons_zero, e, sget_append_above _ _ (fun c hc => by have := cellsFrom_bounds c hc; omega)]
        have h2 := sget_append_above (j := a) r [] (fun c hc => by have := hr' c hc; omega)
        simpa [sget] using h2
      · simp [sget]
    | succ i =>
      have hi' : i < bs.length := by simpa using hi
      have e := ih (a := a + 1) i hi' hr'
      rw [show a + 1 + i = a + (i + 1) by omega] at e
      split
      · simpa using e
      · simp only [List.cons_append, sget]
        rw [if_neg (by omega)]
        simpa using e

theorem dropWhile_bounds (hm : sparseFrom memDefault lo m = true) : ∀ c ∈ m.dropWhile (fun c => decide (c.1 < a)), a ≤ c.1 := by
  induction m generalizing lo with
  | nil => simp
  | cons c m ih =>
    simp only [sparseFrom, Bool.and_eq_true, decide_eq_true_eq] at hm
    simp only [List.dropWhile_cons]
    split
    · exact ih hm.2
    · rename_i hc
      simp only [decide_eq_true_eq] at hc
      have key : ∀ (l : List Host.Cell) (h : Nat), sparseFrom memDefault h l = true → ∀ c ∈ l, h ≤ c.1 := by
        intro l
        induction l with
        | nil => simp
        | cons d l ih =>
          intro h hl c hc
          simp only [sparseFrom, Bool.and_eq_true, decide_eq_true_eq] at hl
          simp only [List.mem_cons] at hc
          rcases hc with rfl | hc
          · omega
          · have := ih _ hl.2 c hc; omega
      intro x hx
      simp only [List.mem_cons] at hx
      rcases hx with rfl | hx
      · omega
      · have := key m _ hm.2 x hx; omega

theorem sget_dropWhile (hm : sparseFrom memDefault lo m = true) (h : a ≤ j) :
    sget memDefault (m.dropWhile (fun c => decide (c.1 < a))) j = sget memDefault m j := by
  induction m generalizing lo with
  | nil => rfl
  | cons c m ih =>
    simp only [sparseFrom, Bool.and_eq_true, decide_eq_true_eq] at hm
    simp only [List.dropWhile_cons]
    split
    · rename_i hc
      simp only [decide_eq_true_eq] at hc
      rw [ih hm.2]
      simp only [sget]
      rw [if_neg (by omega)]
    · rfl

theorem sparseFrom_append (xs r : List Host.Cell) (hx : sparseFrom memDefault lo xs = true) (hr : sparseFrom memDefault hi r = true)
    (hb : ∀ c ∈ xs, c.1 < hi) (hl : lo ≤ hi) : sparseFrom memDefault lo (xs ++ r) = true := by
  induction xs generalizing lo with
  | nil => exact sparseFrom_mono hr hl
  | cons c xs ih =>
    simp only [sparseFrom, Bool.and_eq_true, decide_eq_true_eq, List.cons_append] at hx ⊢
    have := hb c (by simp)
    exact ⟨hx.1, ih hx.2 (fun c hc => hb c (by simp [hc])) (by omega)⟩

theorem sparseFrom_cellsFrom : sparseFrom memDefault a (cellsFrom a bs) = true := by
  induction bs generalizing a with
  | nil => rfl
  | cons b bs ih =>
    simp only [cellsFrom]
    split
    · exact sparseFrom_mono ih (by omega)
    · rename_i hb
      simp only [sparseFrom, Bool.and_eq_true, decide_eq_true_eq]
      exact ⟨⟨Nat.le_refl _, hb⟩, ih⟩

theorem sparseFrom_takeWhile (hm : sparseFrom memDefault lo m = true) (p : Host.Cell → Bool) :
    sparseFrom memDefault lo (m.takeWhile p) = true := by
  induction m generalizing lo with
  | nil => rfl
  | cons c m ih =>
    simp only [sparseFrom, Bool.and_eq_true, decide_eq_true_eq] at hm
    simp only [List.takeWhile_cons]
    split
    · simp only [sparseFrom, Bool.and_eq_true, decide_eq_true_eq]; exact ⟨hm.1, ih hm.2⟩
    · rfl

theorem sparseFrom_dropWhile (hm : sparseFrom memDefault lo m = true) :
    sparseFrom memDefault a (m.dropWhile (fun c => decide (c.1 < a))) = true := by
  induction m generalizing lo with
  | nil => rfl
  | cons c m ih =>
    simp only [sparseFrom, Bool.and_eq_true, decide_eq_true_eq] at hm
    simp only [List.dropWhile_cons]
    split
    · exact ih hm.2
    · rename_i hc
      simp only [decide_eq_true_eq, Nat.not_lt] at hc
      simp only [sparseFrom, Bool.and_eq_true, decide_eq_true_eq]
      exact ⟨⟨hc, hm.1.2⟩, hm.2⟩

theorem takeWhile_bounds : ∀ c ∈ m.takeWhile (fun c => decide (c.1 < a)), c.1 < a := by
  induction m with
  | nil => simp
  | cons d m ih =>
    intro c hc
    simp only [List.takeWhile_cons] at hc
    split at hc
    · rename_i hd
      simp only [List.mem_cons] at hc
      rcases hc with rfl | hc
      · simpa using hd
      · exact ih c hc
    · simp at hc

/-- Bytes spliced in keep the canonical form. -/
theorem memSplice_wf (h : Memory.wf m = true) : Memory.wf (memSplice m a bs) = true := by
  refine sparseFrom_append (hi := a) _ _ (sparseFrom_takeWhile h _) ?_ takeWhile_bounds (by omega)
  exact sparseFrom_append (hi := a + bs.length) _ _ sparseFrom_cellsFrom (sparseFrom_dropWhile h)
    (fun c hc => (cellsFrom_bounds c hc).2) (by omega)

theorem sget_memSplice_inside (h : Memory.wf m = true) (i : Nat) (hi : i < bs.length) :
    sget memDefault (memSplice m a bs) (a + i) = bs[i] := by
  unfold memSplice
  rw [sget_append_above _ _ (fun c hc => by have := takeWhile_bounds c hc; omega)]
  exact sget_cellsFrom i hi _ (dropWhile_bounds h)

theorem sget_memSplice_outside (h : Memory.wf m = true) (hj : j < a ∨ a + bs.length ≤ j) :
    sget memDefault (memSplice m a bs) j = sget memDefault m j := by
  unfold memSplice
  rcases hj with hj | hj
  · apply sget_below_takeWhile hj h
    intro c hc
    simp only [List.mem_append] at hc
    rcases hc with hc | hc
    · exact (cellsFrom_bounds c hc).1
    · have := dropWhile_bounds h c hc; omega
  · rw [sget_append_above _ _ (fun c hc => by have := takeWhile_bounds c hc; omega),
      sget_append_above _ _ (fun c hc => by have := cellsFrom_bounds c hc; omega)]
    exact sget_dropWhile h hj

end Splice

/-- Bytes written keep the canonical form of memory. -/
theorem memWrite_wf {m : List Host.Cell} (a : Nat) (bs : List Byte) (h : Memory.wf m = true) : Memory.wf (memWrite m a bs) = true := by
  unfold memWrite
  split
  · exact memSplice_wf h
  · exact memWriteEach_wf a bs h

/-- A write leaves every byte alone whose address it does not name. -/
theorem memByte_memWrite_other {m : List Host.Cell} (a c : Nat) (bs : List Byte) (h : Memory.wf m = true)
    (ne : ∀ i, i < bs.length → portAddr c ≠ portAddr (a + i)) : memByte (memWrite m a bs) c = memByte m c := by
  unfold memWrite
  split
  · rename_i hl
    apply sget_memSplice_outside h
    rcases Nat.lt_or_ge (portAddr c) (portAddr a) with hc | hc
    · exact .inl hc
    · refine .inr (Nat.le_of_not_lt fun hlt => ne (portAddr c - portAddr a) (by omega) ?_)
      simp only [portAddr] at *
      omega
  · exact memByte_memWriteEach_other a c bs h ne

/-- A byte that a write names reads as written, when the write is shorter than the address space. -/
theorem memByte_memWrite {m : List Host.Cell} (a i : Nat) (bs : List Byte) (h : Memory.wf m = true) (hi : i < bs.length)
    (hl : bs.length ≤ 2 ^ 48) : memByte (memWrite m a bs) (a + i) = bs[i] := by
  unfold memWrite
  split
  · rename_i hs
    have e : portAddr (a + i) = portAddr a + i := by simp only [portAddr] at *; omega
    unfold memByte
    rw [e]
    exact sget_memSplice_inside h i hi
  · exact memByte_memWriteEach a i bs h hi hl

/-- The bytes of a write read back. -/
theorem memRead_memWrite {m : List Host.Cell} (a : Nat) (bs : List Byte) (h : Memory.wf m = true) (hl : bs.length ≤ 2 ^ 48) :
    memRead (memWrite m a bs) a bs.length = bs := by
  apply List.ext_getElem
  · simp [memRead]
  · intro i h1 h2
    simp only [memRead, List.getElem_map, List.getElem_range]
    exact memByte_memWrite a i bs h h2 hl

/-! ## Slices -/

theorem sparseFrom_le (h : sparseFrom d lo m = true) : ∀ c ∈ m, lo ≤ c.1 := by
  induction m generalizing lo with
  | nil => simp
  | cons c m ih =>
    simp only [sparseFrom, Bool.and_eq_true, decide_eq_true_eq] at h
    intro x hx
    rcases List.mem_cons.mp hx with rfl | hx
    · exact h.1.1
    · exact Nat.le_trans h.1.1 (Nat.le_of_succ_le (ih h.2 x hx))

/-- A cell has place i of a slice just when it is at the i-th address. -/
theorem sliceOff (c a i : Nat) (hc : c < 2 ^ 48) (hi : i < 2 ^ 48) : (c + 2 ^ 48 - portAddr a) % 2 ^ 48 = i ↔ c = portAddr (a + i) := by
  unfold portAddr
  omega

/-- One cell put into a slice. -/
theorem slicePut (a : Nat) (c : Host.Cell) (x : Array Byte) (hc : c.1 < 2 ^ 48) (hn : n ≤ 2 ^ 48) (hi : i < n) (hx : x.size = n) :
    (if (c.1 + 2 ^ 48 - portAddr a) % 2 ^ 48 < n then x.setIfInBounds ((c.1 + 2 ^ 48 - portAddr a) % 2 ^ 48) c.2 else x)[i]? =
      if c.1 = portAddr (a + i) then some c.2 else x[i]? := by
  have at_i := sliceOff c.1 a i hc (Nat.lt_of_lt_of_le hi hn)
  generalize (c.1 + 2 ^ 48 - portAddr a) % 2 ^ 48 = off at at_i ⊢
  by_cases e : off = i
  · rw [if_pos (at_i.mp e), e, if_pos hi, Array.getElem?_setIfInBounds_self_of_lt (hx ▸ hi)]
  · rw [if_neg (fun h => e (at_i.mpr h))]
    split
    · rw [Array.getElem?_setIfInBounds_ne e]
    · rfl

theorem memSlice_fold (m : List Host.Cell) (x : Array Byte) (hm : sparseFrom memDefault lo m = true) (hb : ∀ c ∈ m, c.1 < 2 ^ 48)
    (hn : n ≤ 2 ^ 48) (hi : i < n) (hx : x.size = n) :
    (m.foldl (fun (acc : Array Byte) c =>
      let off := (c.1 + 2 ^ 48 - portAddr a) % 2 ^ 48
      if off < n then acc.setIfInBounds off c.2 else acc) x)[i]? =
      if m.any (fun c => c.1 == portAddr (a + i)) then some (sget memDefault m (portAddr (a + i))) else x[i]? := by
  induction m generalizing lo x with
  | nil => rfl
  | cons c m ih =>
    simp only [sparseFrom, Bool.and_eq_true, decide_eq_true_eq] at hm
    rw [List.foldl_cons, ih _ hm.2 (fun y hy => hb y (List.mem_cons_of_mem _ hy)) (by simp only []; split <;> simp only [Array.size_setIfInBounds, hx])]
    have put := slicePut a c x (hb c List.mem_cons_self) hn hi hx
    simp only [] at put ⊢
    rw [put, List.any_cons, sget]
    by_cases e : c.1 = portAddr (a + i)
    · have later : m.any (fun c => c.1 == portAddr (a + i)) = false := by
        simp only [← e, List.any_eq_false, beq_iff_eq]
        exact fun y hy ye => by have := sparseFrom_le hm.2 y hy; omega
      rw [later, if_pos e, if_pos e, beq_iff_eq.mpr e]
      rfl
    · rw [if_neg e, if_neg e, beq_eq_false_iff_ne.mpr e, Bool.false_or]

omit [DecidableEq α] in
theorem sget_of_none (h : m.any (fun c => c.1 == k) = false) : sget d m k = d := by
  induction m with
  | nil => rfl
  | cons c m ih =>
    simp only [List.any_cons, Bool.or_eq_false_iff, beq_eq_false_iff_ne] at h
    simp [sget, h.1, ih h.2]

/-- A slice holds the bytes that memory reads as, in order. -/
theorem memSlice_toList (m : List Host.Cell) (a n : Nat) (hm : Memory.wf m = true) (hb : ∀ c ∈ m, c.1 < 2 ^ 48) (hn : n ≤ 2 ^ 48) :
    (memSlice m a n).toList = memRead m a n := by
  have size : ∀ (m : List Host.Cell) (x : Array Byte), (m.foldl (fun (acc : Array Byte) c =>
      let off := (c.1 + 2 ^ 48 - portAddr a) % 2 ^ 48
      if off < n then acc.setIfInBounds off c.2 else acc) x).size = x.size := by
    intro m
    induction m with
    | nil => exact fun _ => rfl
    | cons c m ih => intro x; rw [List.foldl_cons, ih]; simp only []; split <;> simp
  apply List.ext_getElem?
  intro i
  rcases Nat.lt_or_ge i n with hi | hi
  · rw [Array.getElem?_toList]
    unfold memSlice
    rw [memSlice_fold m _ hm hb hn hi (by simp)]
    simp only [memRead, List.getElem?_map, List.getElem?_range hi, Option.map_some, memByte]
    split
    · rfl
    · rename_i h
      simp [hi, sget_of_none (Bool.eq_false_iff.mpr h)]
  · rw [List.getElem?_eq_none (by unfold memSlice; rw [Array.length_toList, size, Array.size_replicate]; exact hi), List.getElem?_eq_none (by simpa [memRead] using hi)]

end Sys2Proof.Laws
end

