-- ==== Sys2Proof/Laws/Protect.lean ====
section
/-! SUPPORT. Writes into protected memory: they keep the canonical form of memory, and change no byte but those they name and the
check bytes of their lines. -/

-- Each theorem is checked before the next one, which bounds the threads that the compiler takes.
set_option Elab.async false

namespace Sys2Proof.Laws
open Sys2Proof.Machine Sys2Proof.Safety

variable {s : State}

theorem write_wf (a : Nat) (bs : List Byte) (h : Memory.wf s.mem = true) : Memory.wf (s.write a bs).mem = true := memWrite_wf a bs h

/-- A write leaves every byte alone that its bytes do not take in. -/
theorem write_other (a c : Nat) (bs : List Byte) (h : Memory.wf s.mem = true) (out : Apart a bs.length c) :
    memByte (s.write a bs).mem c = memByte s.mem c := memByte_memWrite_other a c bs h out

/-! ## Pages -/

theorem rsStep_length (g r : List Nat) (x : Byte) (h : r.length = 8) (hg : g.length = 8) : (rsStep g r x).length = 8 := by
  simp only [rsStep, List.length_zipWith, List.length_append, List.length_drop, List.length_singleton, h, hg]
  decide

theorem rsCheck_length (data : List Byte) : (rsCheck data).length = 8 := by
  have step : ∀ (ds : List Byte) (r : List Nat), r.length = 8 → (ds.foldl (rsStep rsGenerator) r).length = 8 := by
    intro ds
    induction ds with
    | nil => exact fun r hr => hr
    | cons d ds ih => exact fun r hr => ih _ (rsStep_length _ _ _ hr (by decide +kernel))
  simpa [rsCheck] using step data (List.replicate 8 0) rfl

theorem pageWrite_wf (base size a : Nat) (bs : List Byte) (h : Memory.wf s.mem = true) : Memory.wf (s.pageWrite base size a bs).mem = true :=
  write_wf _ _ (write_wf _ _ h)

theorem pagesWrite_wf (base size n a : Nat) (bs : List Byte) (h : Memory.wf s.mem = true) :
    Memory.wf (s.pagesWrite base size n a bs).mem = true := by
  induction n generalizing s a bs with
  | zero => exact h
  | succ n ih => exact ih _ _ (pageWrite_wf base size a _ h)

theorem shelterWrite_wf (base size a : Nat) (bs : List Byte) (h : Memory.wf s.mem = true) :
    Memory.wf (s.shelterWrite base size a bs).mem = true := pagesWrite_wf _ _ _ _ _ h

/-- Pages stand where they stood. -/
theorem pageWrite_home (base size a : Nat) (bs : List Byte) (b z page : Nat) :
    (s.pageWrite base size a bs).pageHome b z page = s.pageHome b z page := rfl

/-- The check bytes of k lines. -/
theorem checks_length (ls : List Nat) (f : Nat → List Byte) : (ls.flatMap (fun l => rsCheck (f l))).length = 8 * ls.length := by
  induction ls with
  | nil => rfl
  | cons l ls ih => rw [List.flatMap_cons, List.length_append, rsCheck_length, ih, List.length_cons]; omega

theorem pageWrite_other (base size a c : Nat) (bs : List Byte) (h : Memory.wf s.mem = true) (ne : 0 < bs.length)
    (fits : a % 4096 + bs.length ≤ 4096) (out : OffShelter s base size a bs.length c) :
    memByte (s.pageWrite base size a bs).mem c = memByte s.mem c := by
  have page : ∀ i, i < bs.length → (a + i) / 4096 = a / 4096 ∧ (a + i) % 4096 = a % 4096 + i := fun i hi => by omega
  have lines : Apart ((s.pageHome base size (a / 4096)).1 + a % 4096) bs.length c := fun i hi => by
    have o := (out (a + i) (by omega) (by omega)).1 0 (by omega)
    rw [(page i hi).1, (page i hi).2] at o
    rwa [show (s.pageHome base size (a / 4096)).1 + (a % 4096 + i) + 0 = (s.pageHome base size (a / 4096)).1 + a % 4096 + i by omega] at o
  refine (write_other _ c _ (write_wf _ _ h) ?_).trans (write_other _ c _ h lines)
  intro k hk
  rw [checks_length, List.length_range'] at hk
  -- The byte of a line that the write takes in.
  let i := 128 * (k / 8) - a % 4096 % 128
  have hi : i < bs.length := by omega
  have o := (out (a + i) (by omega) (by omega)).2 (k % 8) (by omega)
  rw [(page i hi).1, (page i hi).2, show (a % 4096 + i) / 128 = a % 4096 / 128 + k / 8 by omega] at o
  rwa [show (s.pageHome base size (a / 4096)).2 + 8 * (a % 4096 / 128 + k / 8) + k % 8 =
    (s.pageHome base size (a / 4096)).2 + 8 * (a % 4096 / 128) + k by omega] at o

theorem pagesWrite_other (base size n a c : Nat) (bs : List Byte) (h : Memory.wf s.mem = true) (ne : n = 0 ∨ 0 < bs.length)
    (pages : 4096 * n < a % 4096 + bs.length + 4096) (out : OffShelter s base size a bs.length c) :
    memByte (s.pagesWrite base size n a bs).mem c = memByte s.mem c := by
  induction n generalizing s a bs with
  | zero => rfl
  | succ n ih =>
    refine (ih _ _ (pageWrite_wf base size a _ h) ?_ ?_ ?_).trans (pageWrite_other base size a c _ h ?_ ?_ ?_)
    · rw [List.length_drop]; omega
    · rw [List.length_drop]; omega
    · intro b lo hi
      unfold OffShelter at out
      rw [List.length_drop] at hi
      exact out b (by omega) (by omega)
    · rw [List.length_take]; omega
    · rw [List.length_take]; omega
    · intro b lo hi
      rw [List.length_take] at hi
      exact out b lo (by omega)

/-- A write into a protected region changes only the bytes that it names, where their pages stand, and the check bytes of their
lines (R399, R404). -/
theorem shelterWrite_other (base size a c : Nat) (bs : List Byte) (h : Memory.wf s.mem = true) (ne : 0 < bs.length)
    (out : OffShelter s base size a bs.length c) : memByte (s.shelterWrite base size a bs).mem c = memByte s.mem c :=
  pagesWrite_other base size _ a c bs h (.inr ne) (by omega) out

/-! ## The harness copy -/

theorem pagesWrite_parts (base size n a : Nat) (bs : List Byte) :
    (s.pagesWrite base size n a bs).live = s.live ∧ (s.pagesWrite base size n a bs).flt = s.flt := by
  induction n generalizing s a bs with
  | zero => exact ⟨rfl, rfl⟩
  | succ n ih => exact ih _ _

theorem copyWrite_wf (off : Nat) (bs : List Byte) (h : Memory.wf s.mem = true) : Memory.wf (s.copyWrite off bs).mem = true := by
  unfold State.copyWrite
  dsimp only
  split
  · exact shelterWrite_wf _ _ _ _ (shelterWrite_wf _ _ _ _ h)
  · exact shelterWrite_wf _ _ _ _ h

/-- A write into the harness copy changes only its bytes, those of the mirror, and their check bytes (R399, R405). -/
theorem copyWrite_other (off c : Nat) (bs : List Byte) (h : Memory.wf s.mem = true) (ne : 0 < bs.length) (out : OffCopy s off bs.length c) :
    memByte (s.copyWrite off bs).mem c = memByte s.mem c := by
  unfold State.copyWrite
  dsimp only
  split
  · rename_i en
    refine (shelterWrite_other _ _ _ _ _ (shelterWrite_wf _ _ _ _ h) ne ?_).trans (shelterWrite_other _ _ _ _ _ h ne out.1)
    obtain ⟨live, flt⟩ := pagesWrite_parts (s := s) s.live.hcopyAddr s.live.copySize
      (((s.live.hcopyAddr + off) % 4096 + bs.length + 4095) / 4096) (s.live.hcopyAddr + off) bs
    intro b lo hi
    have o := out.2 en b lo hi
    unfold State.pageHome State.shelterWrite at *
    rw [live, flt]
    exact o
  · exact shelterWrite_other _ _ _ _ _ h ne out.1

theorem copyImage_wf (second : Bool) (image : List Byte) (h : Memory.wf s.mem = true) : Memory.wf (s.copyImage second image).mem = true :=
  copyWrite_wf _ _ (copyWrite_wf _ _ h)

theorem copyJournal_wf (second : Bool) (length place : Nat) (es : List JournalEntry) (h : Memory.wf s.mem = true) :
    Memory.wf (s.copyJournal second length place es).mem = true := by
  unfold State.copyJournal
  split
  · exact h
  · exact copyWrite_wf _ _ h

end Sys2Proof.Laws
end

