-- ==== Sys2Proof/Laws/State.lean ====
section
/-! SUPPORT. What each update of one part of the state leaves as it is, field by field, and what it puts there. -/

-- Each theorem is checked before the next one, which bounds the threads that the compiler takes.
set_option Elab.async false

namespace Sys2Proof.Laws
open Sys2Proof.Machine

variable (s : State)

@[simp] theorem State.modStream_pkg (st : Nat) (f : Stream → Stream) : (s.modStream st f).pkg = s.pkg := rfl
@[simp] theorem State.modStream_live (st : Nat) (f : Stream → Stream) : (s.modStream st f).live = s.live := rfl
@[simp] theorem State.modStream_shadow (st : Nat) (f : Stream → Stream) : (s.modStream st f).shadow = s.shadow := rfl
@[simp] theorem State.modStream_sel (st : Nat) (f : Stream → Stream) : (s.modStream st f).sel = s.sel := rfl
@[simp] theorem State.modStream_img (st : Nat) (f : Stream → Stream) : (s.modStream st f).img = s.img := rfl
@[simp] theorem State.modStream_ent (st : Nat) (f : Stream → Stream) : (s.modStream st f).ent = s.ent := rfl
@[simp] theorem State.modStream_snd (st : Nat) (f : Stream → Stream) : (s.modStream st f).snd = s.snd := rfl
@[simp] theorem State.modStream_acc (st : Nat) (f : Stream → Stream) : (s.modStream st f).acc = s.acc := rfl
@[simp] theorem State.modStream_rings (st : Nat) (f : Stream → Stream) : (s.modStream st f).rings = s.rings := rfl
@[simp] theorem State.modStream_jobs (st : Nat) (f : Stream → Stream) : (s.modStream st f).jobs = s.jobs := rfl
@[simp] theorem State.modStream_arr (st : Nat) (f : Stream → Stream) : (s.modStream st f).arr = s.arr := rfl
@[simp] theorem State.modStream_grp (st : Nat) (f : Stream → Stream) : (s.modStream st f).grp = s.grp := rfl
@[simp] theorem State.modStream_tally (st : Nat) (f : Stream → Stream) : (s.modStream st f).tally = s.tally := rfl
@[simp] theorem State.modStream_mnt (st : Nat) (f : Stream → Stream) : (s.modStream st f).mnt = s.mnt := rfl
@[simp] theorem State.modStream_led (st : Nat) (f : Stream → Stream) : (s.modStream st f).led = s.led := rfl
@[simp] theorem State.modStream_gait (st : Nat) (f : Stream → Stream) : (s.modStream st f).gait = s.gait := rfl
@[simp] theorem State.modStream_flt (st : Nat) (f : Stream → Stream) : (s.modStream st f).flt = s.flt := rfl
@[simp] theorem State.modStream_pwr (st : Nat) (f : Stream → Stream) : (s.modStream st f).pwr = s.pwr := rfl
@[simp] theorem State.modStream_bag (st : Nat) (f : Stream → Stream) : (s.modStream st f).bag = s.bag := rfl
@[simp] theorem State.modStream_link (st : Nat) (f : Stream → Stream) : (s.modStream st f).link = s.link := rfl
@[simp] theorem State.modStream_tele (st : Nat) (f : Stream → Stream) : (s.modStream st f).tele = s.tele := rfl
@[simp] theorem State.modStream_tap (st : Nat) (f : Stream → Stream) : (s.modStream st f).tap = s.tap := rfl
@[simp] theorem State.modStream_pins (st : Nat) (f : Stream → Stream) : (s.modStream st f).pins = s.pins := rfl
@[simp] theorem State.modStream_mem (st : Nat) (f : Stream → Stream) : (s.modStream st f).mem = s.mem := rfl
@[simp] theorem State.modStream_out (st : Nat) (f : Stream → Stream) : (s.modStream st f).out = s.out := rfl
@[simp] theorem State.modStream_pending (st : Nat) (f : Stream → Stream) : (s.modStream st f).pending = s.pending := rfl
@[simp] theorem State.modStream_ing_rx (st : Nat) (f : Stream → Stream) : (s.modStream st f).ing.rx = s.ing.rx := rfl
@[simp] theorem State.modStream_ing_order (st : Nat) (f : Stream → Stream) : (s.modStream st f).ing.order = s.ing.order := rfl
@[simp] theorem State.modStream_ing_window (st : Nat) (f : Stream → Stream) : (s.modStream st f).ing.window = s.ing.window := rfl
@[simp] theorem State.modStream_ing_lanes (st : Nat) (f : Stream → Stream) : (s.modStream st f).ing.lanes = s.ing.lanes := rfl
@[simp] theorem State.modStream_ing_pairs (st : Nat) (f : Stream → Stream) : (s.modStream st f).ing.pairs = s.ing.pairs := rfl
@[simp] theorem State.modStream_ing_badGen (st : Nat) (f : Stream → Stream) : (s.modStream st f).ing.badGen = s.ing.badGen := rfl
@[simp] theorem State.modStream_ing_hdrErr (st : Nat) (f : Stream → Stream) : (s.modStream st f).ing.hdrErr = s.ing.hdrErr := rfl
@[simp] theorem State.modStream_ing_unrouted (st : Nat) (f : Stream → Stream) : (s.modStream st f).ing.unrouted = s.ing.unrouted := rfl

@[simp] theorem State.modPair_pkg (st : Nat) (f : Pair → Pair) : (s.modPair st f).pkg = s.pkg := rfl
@[simp] theorem State.modPair_live (st : Nat) (f : Pair → Pair) : (s.modPair st f).live = s.live := rfl
@[simp] theorem State.modPair_shadow (st : Nat) (f : Pair → Pair) : (s.modPair st f).shadow = s.shadow := rfl
@[simp] theorem State.modPair_sel (st : Nat) (f : Pair → Pair) : (s.modPair st f).sel = s.sel := rfl
@[simp] theorem State.modPair_img (st : Nat) (f : Pair → Pair) : (s.modPair st f).img = s.img := rfl
@[simp] theorem State.modPair_ent (st : Nat) (f : Pair → Pair) : (s.modPair st f).ent = s.ent := rfl
@[simp] theorem State.modPair_snd (st : Nat) (f : Pair → Pair) : (s.modPair st f).snd = s.snd := rfl
@[simp] theorem State.modPair_acc (st : Nat) (f : Pair → Pair) : (s.modPair st f).acc = s.acc := rfl
@[simp] theorem State.modPair_rings (st : Nat) (f : Pair → Pair) : (s.modPair st f).rings = s.rings := rfl
@[simp] theorem State.modPair_jobs (st : Nat) (f : Pair → Pair) : (s.modPair st f).jobs = s.jobs := rfl
@[simp] theorem State.modPair_arr (st : Nat) (f : Pair → Pair) : (s.modPair st f).arr = s.arr := rfl
@[simp] theorem State.modPair_grp (st : Nat) (f : Pair → Pair) : (s.modPair st f).grp = s.grp := rfl
@[simp] theorem State.modPair_tally (st : Nat) (f : Pair → Pair) : (s.modPair st f).tally = s.tally := rfl
@[simp] theorem State.modPair_mnt (st : Nat) (f : Pair → Pair) : (s.modPair st f).mnt = s.mnt := rfl
@[simp] theorem State.modPair_led (st : Nat) (f : Pair → Pair) : (s.modPair st f).led = s.led := rfl
@[simp] theorem State.modPair_gait (st : Nat) (f : Pair → Pair) : (s.modPair st f).gait = s.gait := rfl
@[simp] theorem State.modPair_flt (st : Nat) (f : Pair → Pair) : (s.modPair st f).flt = s.flt := rfl
@[simp] theorem State.modPair_pwr (st : Nat) (f : Pair → Pair) : (s.modPair st f).pwr = s.pwr := rfl
@[simp] theorem State.modPair_bag (st : Nat) (f : Pair → Pair) : (s.modPair st f).bag = s.bag := rfl
@[simp] theorem State.modPair_link (st : Nat) (f : Pair → Pair) : (s.modPair st f).link = s.link := rfl
@[simp] theorem State.modPair_tele (st : Nat) (f : Pair → Pair) : (s.modPair st f).tele = s.tele := rfl
@[simp] theorem State.modPair_tap (st : Nat) (f : Pair → Pair) : (s.modPair st f).tap = s.tap := rfl
@[simp] theorem State.modPair_pins (st : Nat) (f : Pair → Pair) : (s.modPair st f).pins = s.pins := rfl
@[simp] theorem State.modPair_mem (st : Nat) (f : Pair → Pair) : (s.modPair st f).mem = s.mem := rfl
@[simp] theorem State.modPair_out (st : Nat) (f : Pair → Pair) : (s.modPair st f).out = s.out := rfl
@[simp] theorem State.modPair_pending (st : Nat) (f : Pair → Pair) : (s.modPair st f).pending = s.pending := rfl
@[simp] theorem State.modPair_ing_rx (st : Nat) (f : Pair → Pair) : (s.modPair st f).ing.rx = s.ing.rx := rfl
@[simp] theorem State.modPair_ing_order (st : Nat) (f : Pair → Pair) : (s.modPair st f).ing.order = s.ing.order := rfl
@[simp] theorem State.modPair_ing_window (st : Nat) (f : Pair → Pair) : (s.modPair st f).ing.window = s.ing.window := rfl
@[simp] theorem State.modPair_ing_lanes (st : Nat) (f : Pair → Pair) : (s.modPair st f).ing.lanes = s.ing.lanes := rfl
@[simp] theorem State.modPair_ing_streams (st : Nat) (f : Pair → Pair) : (s.modPair st f).ing.streams = s.ing.streams := rfl
@[simp] theorem State.modPair_ing_badGen (st : Nat) (f : Pair → Pair) : (s.modPair st f).ing.badGen = s.ing.badGen := rfl
@[simp] theorem State.modPair_ing_hdrErr (st : Nat) (f : Pair → Pair) : (s.modPair st f).ing.hdrErr = s.ing.hdrErr := rfl
@[simp] theorem State.modPair_ing_unrouted (st : Nat) (f : Pair → Pair) : (s.modPair st f).ing.unrouted = s.ing.unrouted := rfl

@[simp] theorem State.modWindow_pkg (st : Nat) (sq : Word32) (f : WindowRecord → WindowRecord) : (s.modWindow st sq f).pkg = s.pkg := rfl
@[simp] theorem State.modWindow_live (st : Nat) (sq : Word32) (f : WindowRecord → WindowRecord) : (s.modWindow st sq f).live = s.live := rfl
@[simp] theorem State.modWindow_shadow (st : Nat) (sq : Word32) (f : WindowRecord → WindowRecord) : (s.modWindow st sq f).shadow = s.shadow := rfl
@[simp] theorem State.modWindow_sel (st : Nat) (sq : Word32) (f : WindowRecord → WindowRecord) : (s.modWindow st sq f).sel = s.sel := rfl
@[simp] theorem State.modWindow_img (st : Nat) (sq : Word32) (f : WindowRecord → WindowRecord) : (s.modWindow st sq f).img = s.img := rfl
@[simp] theorem State.modWindow_ent (st : Nat) (sq : Word32) (f : WindowRecord → WindowRecord) : (s.modWindow st sq f).ent = s.ent := rfl
@[simp] theorem State.modWindow_snd (st : Nat) (sq : Word32) (f : WindowRecord → WindowRecord) : (s.modWindow st sq f).snd = s.snd := rfl
@[simp] theorem State.modWindow_acc (st : Nat) (sq : Word32) (f : WindowRecord → WindowRecord) : (s.modWindow st sq f).acc = s.acc := rfl
@[simp] theorem State.modWindow_rings (st : Nat) (sq : Word32) (f : WindowRecord → WindowRecord) : (s.modWindow st sq f).rings = s.rings := rfl
@[simp] theorem State.modWindow_jobs (st : Nat) (sq : Word32) (f : WindowRecord → WindowRecord) : (s.modWindow st sq f).jobs = s.jobs := rfl
@[simp] theorem State.modWindow_arr (st : Nat) (sq : Word32) (f : WindowRecord → WindowRecord) : (s.modWindow st sq f).arr = s.arr := rfl
@[simp] theorem State.modWindow_grp (st : Nat) (sq : Word32) (f : WindowRecord → WindowRecord) : (s.modWindow st sq f).grp = s.grp := rfl
@[simp] theorem State.modWindow_tally (st : Nat) (sq : Word32) (f : WindowRecord → WindowRecord) : (s.modWindow st sq f).tally = s.tally := rfl
@[simp] theorem State.modWindow_mnt (st : Nat) (sq : Word32) (f : WindowRecord → WindowRecord) : (s.modWindow st sq f).mnt = s.mnt := rfl
@[simp] theorem State.modWindow_led (st : Nat) (sq : Word32) (f : WindowRecord → WindowRecord) : (s.modWindow st sq f).led = s.led := rfl
@[simp] theorem State.modWindow_gait (st : Nat) (sq : Word32) (f : WindowRecord → WindowRecord) : (s.modWindow st sq f).gait = s.gait := rfl
@[simp] theorem State.modWindow_flt (st : Nat) (sq : Word32) (f : WindowRecord → WindowRecord) : (s.modWindow st sq f).flt = s.flt := rfl
@[simp] theorem State.modWindow_pwr (st : Nat) (sq : Word32) (f : WindowRecord → WindowRecord) : (s.modWindow st sq f).pwr = s.pwr := rfl
@[simp] theorem State.modWindow_bag (st : Nat) (sq : Word32) (f : WindowRecord → WindowRecord) : (s.modWindow st sq f).bag = s.bag := rfl
@[simp] theorem State.modWindow_link (st : Nat) (sq : Word32) (f : WindowRecord → WindowRecord) : (s.modWindow st sq f).link = s.link := rfl
@[simp] theorem State.modWindow_tele (st : Nat) (sq : Word32) (f : WindowRecord → WindowRecord) : (s.modWindow st sq f).tele = s.tele := rfl
@[simp] theorem State.modWindow_tap (st : Nat) (sq : Word32) (f : WindowRecord → WindowRecord) : (s.modWindow st sq f).tap = s.tap := rfl
@[simp] theorem State.modWindow_pins (st : Nat) (sq : Word32) (f : WindowRecord → WindowRecord) : (s.modWindow st sq f).pins = s.pins := rfl
@[simp] theorem State.modWindow_mem (st : Nat) (sq : Word32) (f : WindowRecord → WindowRecord) : (s.modWindow st sq f).mem = s.mem := rfl
@[simp] theorem State.modWindow_out (st : Nat) (sq : Word32) (f : WindowRecord → WindowRecord) : (s.modWindow st sq f).out = s.out := rfl
@[simp] theorem State.modWindow_pending (st : Nat) (sq : Word32) (f : WindowRecord → WindowRecord) : (s.modWindow st sq f).pending = s.pending := rfl
@[simp] theorem State.modWindow_ing_rx (st : Nat) (sq : Word32) (f : WindowRecord → WindowRecord) : (s.modWindow st sq f).ing.rx = s.ing.rx := rfl
@[simp] theorem State.modWindow_ing_order (st : Nat) (sq : Word32) (f : WindowRecord → WindowRecord) : (s.modWindow st sq f).ing.order = s.ing.order := rfl
@[simp] theorem State.modWindow_ing_lanes (st : Nat) (sq : Word32) (f : WindowRecord → WindowRecord) : (s.modWindow st sq f).ing.lanes = s.ing.lanes := rfl
@[simp] theorem State.modWindow_ing_streams (st : Nat) (sq : Word32) (f : WindowRecord → WindowRecord) : (s.modWindow st sq f).ing.streams = s.ing.streams := rfl
@[simp] theorem State.modWindow_ing_pairs (st : Nat) (sq : Word32) (f : WindowRecord → WindowRecord) : (s.modWindow st sq f).ing.pairs = s.ing.pairs := rfl
@[simp] theorem State.modWindow_ing_badGen (st : Nat) (sq : Word32) (f : WindowRecord → WindowRecord) : (s.modWindow st sq f).ing.badGen = s.ing.badGen := rfl
@[simp] theorem State.modWindow_ing_hdrErr (st : Nat) (sq : Word32) (f : WindowRecord → WindowRecord) : (s.modWindow st sq f).ing.hdrErr = s.ing.hdrErr := rfl
@[simp] theorem State.modWindow_ing_unrouted (st : Nat) (sq : Word32) (f : WindowRecord → WindowRecord) : (s.modWindow st sq f).ing.unrouted = s.ing.unrouted := rfl

@[simp] theorem State.modRing_pkg (r : Nat) (f : Ring → Ring) : (s.modRing r f).pkg = s.pkg := rfl
@[simp] theorem State.modRing_live (r : Nat) (f : Ring → Ring) : (s.modRing r f).live = s.live := rfl
@[simp] theorem State.modRing_shadow (r : Nat) (f : Ring → Ring) : (s.modRing r f).shadow = s.shadow := rfl
@[simp] theorem State.modRing_sel (r : Nat) (f : Ring → Ring) : (s.modRing r f).sel = s.sel := rfl
@[simp] theorem State.modRing_img (r : Nat) (f : Ring → Ring) : (s.modRing r f).img = s.img := rfl
@[simp] theorem State.modRing_ing (r : Nat) (f : Ring → Ring) : (s.modRing r f).ing = s.ing := rfl
@[simp] theorem State.modRing_ent (r : Nat) (f : Ring → Ring) : (s.modRing r f).ent = s.ent := rfl
@[simp] theorem State.modRing_snd (r : Nat) (f : Ring → Ring) : (s.modRing r f).snd = s.snd := rfl
@[simp] theorem State.modRing_acc (r : Nat) (f : Ring → Ring) : (s.modRing r f).acc = s.acc := rfl
@[simp] theorem State.modRing_jobs (r : Nat) (f : Ring → Ring) : (s.modRing r f).jobs = s.jobs := rfl
@[simp] theorem State.modRing_arr (r : Nat) (f : Ring → Ring) : (s.modRing r f).arr = s.arr := rfl
@[simp] theorem State.modRing_grp (r : Nat) (f : Ring → Ring) : (s.modRing r f).grp = s.grp := rfl
@[simp] theorem State.modRing_tally (r : Nat) (f : Ring → Ring) : (s.modRing r f).tally = s.tally := rfl
@[simp] theorem State.modRing_mnt (r : Nat) (f : Ring → Ring) : (s.modRing r f).mnt = s.mnt := rfl
@[simp] theorem State.modRing_led (r : Nat) (f : Ring → Ring) : (s.modRing r f).led = s.led := rfl
@[simp] theorem State.modRing_gait (r : Nat) (f : Ring → Ring) : (s.modRing r f).gait = s.gait := rfl
@[simp] theorem State.modRing_flt (r : Nat) (f : Ring → Ring) : (s.modRing r f).flt = s.flt := rfl
@[simp] theorem State.modRing_pwr (r : Nat) (f : Ring → Ring) : (s.modRing r f).pwr = s.pwr := rfl
@[simp] theorem State.modRing_bag (r : Nat) (f : Ring → Ring) : (s.modRing r f).bag = s.bag := rfl
@[simp] theorem State.modRing_link (r : Nat) (f : Ring → Ring) : (s.modRing r f).link = s.link := rfl
@[simp] theorem State.modRing_tele (r : Nat) (f : Ring → Ring) : (s.modRing r f).tele = s.tele := rfl
@[simp] theorem State.modRing_tap (r : Nat) (f : Ring → Ring) : (s.modRing r f).tap = s.tap := rfl
@[simp] theorem State.modRing_pins (r : Nat) (f : Ring → Ring) : (s.modRing r f).pins = s.pins := rfl
@[simp] theorem State.modRing_mem (r : Nat) (f : Ring → Ring) : (s.modRing r f).mem = s.mem := rfl
@[simp] theorem State.modRing_out (r : Nat) (f : Ring → Ring) : (s.modRing r f).out = s.out := rfl
@[simp] theorem State.modRing_pending (r : Nat) (f : Ring → Ring) : (s.modRing r f).pending = s.pending := rfl

@[simp] theorem State.modJob_pkg (i : Nat) (f : Job → Job) : (s.modJob i f).pkg = s.pkg := rfl
@[simp] theorem State.modJob_live (i : Nat) (f : Job → Job) : (s.modJob i f).live = s.live := rfl
@[simp] theorem State.modJob_shadow (i : Nat) (f : Job → Job) : (s.modJob i f).shadow = s.shadow := rfl
@[simp] theorem State.modJob_sel (i : Nat) (f : Job → Job) : (s.modJob i f).sel = s.sel := rfl
@[simp] theorem State.modJob_img (i : Nat) (f : Job → Job) : (s.modJob i f).img = s.img := rfl
@[simp] theorem State.modJob_ing (i : Nat) (f : Job → Job) : (s.modJob i f).ing = s.ing := rfl
@[simp] theorem State.modJob_ent (i : Nat) (f : Job → Job) : (s.modJob i f).ent = s.ent := rfl
@[simp] theorem State.modJob_snd (i : Nat) (f : Job → Job) : (s.modJob i f).snd = s.snd := rfl
@[simp] theorem State.modJob_acc (i : Nat) (f : Job → Job) : (s.modJob i f).acc = s.acc := rfl
@[simp] theorem State.modJob_rings (i : Nat) (f : Job → Job) : (s.modJob i f).rings = s.rings := rfl
@[simp] theorem State.modJob_arr (i : Nat) (f : Job → Job) : (s.modJob i f).arr = s.arr := rfl
@[simp] theorem State.modJob_grp (i : Nat) (f : Job → Job) : (s.modJob i f).grp = s.grp := rfl
@[simp] theorem State.modJob_tally (i : Nat) (f : Job → Job) : (s.modJob i f).tally = s.tally := rfl
@[simp] theorem State.modJob_mnt (i : Nat) (f : Job → Job) : (s.modJob i f).mnt = s.mnt := rfl
@[simp] theorem State.modJob_led (i : Nat) (f : Job → Job) : (s.modJob i f).led = s.led := rfl
@[simp] theorem State.modJob_gait (i : Nat) (f : Job → Job) : (s.modJob i f).gait = s.gait := rfl
@[simp] theorem State.modJob_flt (i : Nat) (f : Job → Job) : (s.modJob i f).flt = s.flt := rfl
@[simp] theorem State.modJob_pwr (i : Nat) (f : Job → Job) : (s.modJob i f).pwr = s.pwr := rfl
@[simp] theorem State.modJob_bag (i : Nat) (f : Job → Job) : (s.modJob i f).bag = s.bag := rfl
@[simp] theorem State.modJob_link (i : Nat) (f : Job → Job) : (s.modJob i f).link = s.link := rfl
@[simp] theorem State.modJob_tele (i : Nat) (f : Job → Job) : (s.modJob i f).tele = s.tele := rfl
@[simp] theorem State.modJob_tap (i : Nat) (f : Job → Job) : (s.modJob i f).tap = s.tap := rfl
@[simp] theorem State.modJob_pins (i : Nat) (f : Job → Job) : (s.modJob i f).pins = s.pins := rfl
@[simp] theorem State.modJob_mem (i : Nat) (f : Job → Job) : (s.modJob i f).mem = s.mem := rfl
@[simp] theorem State.modJob_out (i : Nat) (f : Job → Job) : (s.modJob i f).out = s.out := rfl
@[simp] theorem State.modJob_pending (i : Nat) (f : Job → Job) : (s.modJob i f).pending = s.pending := rfl
@[simp] theorem State.modJob_jobs_nextId (i : Nat) (f : Job → Job) : (s.modJob i f).jobs.nextId = s.jobs.nextId := rfl
@[simp] theorem State.modJob_jobs_doorbells (i : Nat) (f : Job → Job) : (s.modJob i f).jobs.doorbells = s.jobs.doorbells := rfl
@[simp] theorem State.modJob_jobs_patches (i : Nat) (f : Job → Job) : (s.modJob i f).jobs.patches = s.jobs.patches := rfl

@[simp] theorem State.modGroup_pkg (n : Nat) (f : Group → Group) : (s.modGroup n f).pkg = s.pkg := rfl
@[simp] theorem State.modGroup_live (n : Nat) (f : Group → Group) : (s.modGroup n f).live = s.live := rfl
@[simp] theorem State.modGroup_shadow (n : Nat) (f : Group → Group) : (s.modGroup n f).shadow = s.shadow := rfl
@[simp] theorem State.modGroup_sel (n : Nat) (f : Group → Group) : (s.modGroup n f).sel = s.sel := rfl
@[simp] theorem State.modGroup_img (n : Nat) (f : Group → Group) : (s.modGroup n f).img = s.img := rfl
@[simp] theorem State.modGroup_ing (n : Nat) (f : Group → Group) : (s.modGroup n f).ing = s.ing := rfl
@[simp] theorem State.modGroup_ent (n : Nat) (f : Group → Group) : (s.modGroup n f).ent = s.ent := rfl
@[simp] theorem State.modGroup_snd (n : Nat) (f : Group → Group) : (s.modGroup n f).snd = s.snd := rfl
@[simp] theorem State.modGroup_acc (n : Nat) (f : Group → Group) : (s.modGroup n f).acc = s.acc := rfl
@[simp] theorem State.modGroup_rings (n : Nat) (f : Group → Group) : (s.modGroup n f).rings = s.rings := rfl
@[simp] theorem State.modGroup_jobs (n : Nat) (f : Group → Group) : (s.modGroup n f).jobs = s.jobs := rfl
@[simp] theorem State.modGroup_arr (n : Nat) (f : Group → Group) : (s.modGroup n f).arr = s.arr := rfl
@[simp] theorem State.modGroup_tally (n : Nat) (f : Group → Group) : (s.modGroup n f).tally = s.tally := rfl
@[simp] theorem State.modGroup_mnt (n : Nat) (f : Group → Group) : (s.modGroup n f).mnt = s.mnt := rfl
@[simp] theorem State.modGroup_led (n : Nat) (f : Group → Group) : (s.modGroup n f).led = s.led := rfl
@[simp] theorem State.modGroup_gait (n : Nat) (f : Group → Group) : (s.modGroup n f).gait = s.gait := rfl
@[simp] theorem State.modGroup_flt (n : Nat) (f : Group → Group) : (s.modGroup n f).flt = s.flt := rfl
@[simp] theorem State.modGroup_pwr (n : Nat) (f : Group → Group) : (s.modGroup n f).pwr = s.pwr := rfl
@[simp] theorem State.modGroup_bag (n : Nat) (f : Group → Group) : (s.modGroup n f).bag = s.bag := rfl
@[simp] theorem State.modGroup_link (n : Nat) (f : Group → Group) : (s.modGroup n f).link = s.link := rfl
@[simp] theorem State.modGroup_tele (n : Nat) (f : Group → Group) : (s.modGroup n f).tele = s.tele := rfl
@[simp] theorem State.modGroup_tap (n : Nat) (f : Group → Group) : (s.modGroup n f).tap = s.tap := rfl
@[simp] theorem State.modGroup_pins (n : Nat) (f : Group → Group) : (s.modGroup n f).pins = s.pins := rfl
@[simp] theorem State.modGroup_mem (n : Nat) (f : Group → Group) : (s.modGroup n f).mem = s.mem := rfl
@[simp] theorem State.modGroup_out (n : Nat) (f : Group → Group) : (s.modGroup n f).out = s.out := rfl
@[simp] theorem State.modGroup_pending (n : Nat) (f : Group → Group) : (s.modGroup n f).pending = s.pending := rfl
@[simp] theorem State.modGroup_grp_nextGroup (n : Nat) (f : Group → Group) : (s.modGroup n f).grp.nextGroup = s.grp.nextGroup := rfl
@[simp] theorem State.modGroup_grp_attempts (n : Nat) (f : Group → Group) : (s.modGroup n f).grp.attempts = s.grp.attempts := rfl
@[simp] theorem State.modGroup_grp_nextAttempt (n : Nat) (f : Group → Group) : (s.modGroup n f).grp.nextAttempt = s.grp.nextAttempt := rfl
@[simp] theorem State.modGroup_grp_gathered (n : Nat) (f : Group → Group) : (s.modGroup n f).grp.gathered = s.grp.gathered := rfl
@[simp] theorem State.modGroup_grp_multi (n : Nat) (f : Group → Group) : (s.modGroup n f).grp.multi = s.grp.multi := rfl
@[simp] theorem State.modGroup_grp_over (n : Nat) (f : Group → Group) : (s.modGroup n f).grp.overs = s.grp.overs := rfl
@[simp] theorem State.modGroup_grp_miss (n : Nat) (f : Group → Group) : (s.modGroup n f).grp.miss = s.grp.miss := rfl

@[simp] theorem State.modAttempt_pkg (i : Nat) (f : Attempt → Attempt) : (s.modAttempt i f).pkg = s.pkg := rfl
@[simp] theorem State.modAttempt_live (i : Nat) (f : Attempt → Attempt) : (s.modAttempt i f).live = s.live := rfl
@[simp] theorem State.modAttempt_shadow (i : Nat) (f : Attempt → Attempt) : (s.modAttempt i f).shadow = s.shadow := rfl
@[simp] theorem State.modAttempt_sel (i : Nat) (f : Attempt → Attempt) : (s.modAttempt i f).sel = s.sel := rfl
@[simp] theorem State.modAttempt_img (i : Nat) (f : Attempt → Attempt) : (s.modAttempt i f).img = s.img := rfl
@[simp] theorem State.modAttempt_ing (i : Nat) (f : Attempt → Attempt) : (s.modAttempt i f).ing = s.ing := rfl
@[simp] theorem State.modAttempt_ent (i : Nat) (f : Attempt → Attempt) : (s.modAttempt i f).ent = s.ent := rfl
@[simp] theorem State.modAttempt_snd (i : Nat) (f : Attempt → Attempt) : (s.modAttempt i f).snd = s.snd := rfl
@[simp] theorem State.modAttempt_acc (i : Nat) (f : Attempt → Attempt) : (s.modAttempt i f).acc = s.acc := rfl
@[simp] theorem State.modAttempt_rings (i : Nat) (f : Attempt → Attempt) : (s.modAttempt i f).rings = s.rings := rfl
@[simp] theorem State.modAttempt_jobs (i : Nat) (f : Attempt → Attempt) : (s.modAttempt i f).jobs = s.jobs := rfl
@[simp] theorem State.modAttempt_arr (i : Nat) (f : Attempt → Attempt) : (s.modAttempt i f).arr = s.arr := rfl
@[simp] theorem State.modAttempt_tally (i : Nat) (f : Attempt → Attempt) : (s.modAttempt i f).tally = s.tally := rfl
@[simp] theorem State.modAttempt_mnt (i : Nat) (f : Attempt → Attempt) : (s.modAttempt i f).mnt = s.mnt := rfl
@[simp] theorem State.modAttempt_led (i : Nat) (f : Attempt → Attempt) : (s.modAttempt i f).led = s.led := rfl
@[simp] theorem State.modAttempt_gait (i : Nat) (f : Attempt → Attempt) : (s.modAttempt i f).gait = s.gait := rfl
@[simp] theorem State.modAttempt_flt (i : Nat) (f : Attempt → Attempt) : (s.modAttempt i f).flt = s.flt := rfl
@[simp] theorem State.modAttempt_pwr (i : Nat) (f : Attempt → Attempt) : (s.modAttempt i f).pwr = s.pwr := rfl
@[simp] theorem State.modAttempt_bag (i : Nat) (f : Attempt → Attempt) : (s.modAttempt i f).bag = s.bag := rfl
@[simp] theorem State.modAttempt_link (i : Nat) (f : Attempt → Attempt) : (s.modAttempt i f).link = s.link := rfl
@[simp] theorem State.modAttempt_tele (i : Nat) (f : Attempt → Attempt) : (s.modAttempt i f).tele = s.tele := rfl
@[simp] theorem State.modAttempt_tap (i : Nat) (f : Attempt → Attempt) : (s.modAttempt i f).tap = s.tap := rfl
@[simp] theorem State.modAttempt_pins (i : Nat) (f : Attempt → Attempt) : (s.modAttempt i f).pins = s.pins := rfl
@[simp] theorem State.modAttempt_mem (i : Nat) (f : Attempt → Attempt) : (s.modAttempt i f).mem = s.mem := rfl
@[simp] theorem State.modAttempt_out (i : Nat) (f : Attempt → Attempt) : (s.modAttempt i f).out = s.out := rfl
@[simp] theorem State.modAttempt_pending (i : Nat) (f : Attempt → Attempt) : (s.modAttempt i f).pending = s.pending := rfl
@[simp] theorem State.modAttempt_grp_groups (i : Nat) (f : Attempt → Attempt) : (s.modAttempt i f).grp.groups = s.grp.groups := rfl
@[simp] theorem State.modAttempt_grp_nextGroup (i : Nat) (f : Attempt → Attempt) : (s.modAttempt i f).grp.nextGroup = s.grp.nextGroup := rfl
@[simp] theorem State.modAttempt_grp_nextAttempt (i : Nat) (f : Attempt → Attempt) : (s.modAttempt i f).grp.nextAttempt = s.grp.nextAttempt := rfl
@[simp] theorem State.modAttempt_grp_gathered (i : Nat) (f : Attempt → Attempt) : (s.modAttempt i f).grp.gathered = s.grp.gathered := rfl
@[simp] theorem State.modAttempt_grp_multi (i : Nat) (f : Attempt → Attempt) : (s.modAttempt i f).grp.multi = s.grp.multi := rfl
@[simp] theorem State.modAttempt_grp_over (i : Nat) (f : Attempt → Attempt) : (s.modAttempt i f).grp.overs = s.grp.overs := rfl
@[simp] theorem State.modAttempt_grp_miss (i : Nat) (f : Attempt → Attempt) : (s.modAttempt i f).grp.miss = s.grp.miss := rfl

@[simp] theorem State.dropAttempt_pkg (i : Nat) : (s.dropAttempt i).pkg = s.pkg := rfl
@[simp] theorem State.dropAttempt_live (i : Nat) : (s.dropAttempt i).live = s.live := rfl
@[simp] theorem State.dropAttempt_shadow (i : Nat) : (s.dropAttempt i).shadow = s.shadow := rfl
@[simp] theorem State.dropAttempt_sel (i : Nat) : (s.dropAttempt i).sel = s.sel := rfl
@[simp] theorem State.dropAttempt_img (i : Nat) : (s.dropAttempt i).img = s.img := rfl
@[simp] theorem State.dropAttempt_ing (i : Nat) : (s.dropAttempt i).ing = s.ing := rfl
@[simp] theorem State.dropAttempt_ent (i : Nat) : (s.dropAttempt i).ent = s.ent := rfl
@[simp] theorem State.dropAttempt_snd (i : Nat) : (s.dropAttempt i).snd = s.snd := rfl
@[simp] theorem State.dropAttempt_acc (i : Nat) : (s.dropAttempt i).acc = s.acc := rfl
@[simp] theorem State.dropAttempt_rings (i : Nat) : (s.dropAttempt i).rings = s.rings := rfl
@[simp] theorem State.dropAttempt_jobs (i : Nat) : (s.dropAttempt i).jobs = s.jobs := rfl
@[simp] theorem State.dropAttempt_arr (i : Nat) : (s.dropAttempt i).arr = s.arr := rfl
@[simp] theorem State.dropAttempt_tally (i : Nat) : (s.dropAttempt i).tally = s.tally := rfl
@[simp] theorem State.dropAttempt_mnt (i : Nat) : (s.dropAttempt i).mnt = s.mnt := rfl
@[simp] theorem State.dropAttempt_led (i : Nat) : (s.dropAttempt i).led = s.led := rfl
@[simp] theorem State.dropAttempt_gait (i : Nat) : (s.dropAttempt i).gait = s.gait := rfl
@[simp] theorem State.dropAttempt_flt (i : Nat) : (s.dropAttempt i).flt = s.flt := rfl
@[simp] theorem State.dropAttempt_pwr (i : Nat) : (s.dropAttempt i).pwr = s.pwr := rfl
@[simp] theorem State.dropAttempt_bag (i : Nat) : (s.dropAttempt i).bag = s.bag := rfl
@[simp] theorem State.dropAttempt_link (i : Nat) : (s.dropAttempt i).link = s.link := rfl
@[simp] theorem State.dropAttempt_tele (i : Nat) : (s.dropAttempt i).tele = s.tele := rfl
@[simp] theorem State.dropAttempt_tap (i : Nat) : (s.dropAttempt i).tap = s.tap := rfl
@[simp] theorem State.dropAttempt_pins (i : Nat) : (s.dropAttempt i).pins = s.pins := rfl
@[simp] theorem State.dropAttempt_mem (i : Nat) : (s.dropAttempt i).mem = s.mem := rfl
@[simp] theorem State.dropAttempt_out (i : Nat) : (s.dropAttempt i).out = s.out := rfl
@[simp] theorem State.dropAttempt_pending (i : Nat) : (s.dropAttempt i).pending = s.pending := rfl
@[simp] theorem State.dropAttempt_grp_groups (i : Nat) : (s.dropAttempt i).grp.groups = s.grp.groups := rfl
@[simp] theorem State.dropAttempt_grp_nextGroup (i : Nat) : (s.dropAttempt i).grp.nextGroup = s.grp.nextGroup := rfl
@[simp] theorem State.dropAttempt_grp_nextAttempt (i : Nat) : (s.dropAttempt i).grp.nextAttempt = s.grp.nextAttempt := rfl
@[simp] theorem State.dropAttempt_grp_gathered (i : Nat) : (s.dropAttempt i).grp.gathered = s.grp.gathered := rfl
@[simp] theorem State.dropAttempt_grp_multi (i : Nat) : (s.dropAttempt i).grp.multi = s.grp.multi := rfl
@[simp] theorem State.dropAttempt_grp_over (i : Nat) : (s.dropAttempt i).grp.overs = s.grp.overs := rfl
@[simp] theorem State.dropAttempt_grp_miss (i : Nat) : (s.dropAttempt i).grp.miss = s.grp.miss := rfl

@[simp] theorem State.modHead_pkg (st : Nat) (sq : Word32) (f : Head → Head) : (s.modHead st sq f).pkg = s.pkg := rfl
@[simp] theorem State.modHead_live (st : Nat) (sq : Word32) (f : Head → Head) : (s.modHead st sq f).live = s.live := rfl
@[simp] theorem State.modHead_shadow (st : Nat) (sq : Word32) (f : Head → Head) : (s.modHead st sq f).shadow = s.shadow := rfl
@[simp] theorem State.modHead_sel (st : Nat) (sq : Word32) (f : Head → Head) : (s.modHead st sq f).sel = s.sel := rfl
@[simp] theorem State.modHead_img (st : Nat) (sq : Word32) (f : Head → Head) : (s.modHead st sq f).img = s.img := rfl
@[simp] theorem State.modHead_ing (st : Nat) (sq : Word32) (f : Head → Head) : (s.modHead st sq f).ing = s.ing := rfl
@[simp] theorem State.modHead_ent (st : Nat) (sq : Word32) (f : Head → Head) : (s.modHead st sq f).ent = s.ent := rfl
@[simp] theorem State.modHead_snd (st : Nat) (sq : Word32) (f : Head → Head) : (s.modHead st sq f).snd = s.snd := rfl
@[simp] theorem State.modHead_rings (st : Nat) (sq : Word32) (f : Head → Head) : (s.modHead st sq f).rings = s.rings := rfl
@[simp] theorem State.modHead_jobs (st : Nat) (sq : Word32) (f : Head → Head) : (s.modHead st sq f).jobs = s.jobs := rfl
@[simp] theorem State.modHead_arr (st : Nat) (sq : Word32) (f : Head → Head) : (s.modHead st sq f).arr = s.arr := rfl
@[simp] theorem State.modHead_grp (st : Nat) (sq : Word32) (f : Head → Head) : (s.modHead st sq f).grp = s.grp := rfl
@[simp] theorem State.modHead_tally (st : Nat) (sq : Word32) (f : Head → Head) : (s.modHead st sq f).tally = s.tally := rfl
@[simp] theorem State.modHead_mnt (st : Nat) (sq : Word32) (f : Head → Head) : (s.modHead st sq f).mnt = s.mnt := rfl
@[simp] theorem State.modHead_led (st : Nat) (sq : Word32) (f : Head → Head) : (s.modHead st sq f).led = s.led := rfl
@[simp] theorem State.modHead_gait (st : Nat) (sq : Word32) (f : Head → Head) : (s.modHead st sq f).gait = s.gait := rfl
@[simp] theorem State.modHead_flt (st : Nat) (sq : Word32) (f : Head → Head) : (s.modHead st sq f).flt = s.flt := rfl
@[simp] theorem State.modHead_pwr (st : Nat) (sq : Word32) (f : Head → Head) : (s.modHead st sq f).pwr = s.pwr := rfl
@[simp] theorem State.modHead_bag (st : Nat) (sq : Word32) (f : Head → Head) : (s.modHead st sq f).bag = s.bag := rfl
@[simp] theorem State.modHead_link (st : Nat) (sq : Word32) (f : Head → Head) : (s.modHead st sq f).link = s.link := rfl
@[simp] theorem State.modHead_tele (st : Nat) (sq : Word32) (f : Head → Head) : (s.modHead st sq f).tele = s.tele := rfl
@[simp] theorem State.modHead_tap (st : Nat) (sq : Word32) (f : Head → Head) : (s.modHead st sq f).tap = s.tap := rfl
@[simp] theorem State.modHead_pins (st : Nat) (sq : Word32) (f : Head → Head) : (s.modHead st sq f).pins = s.pins := rfl
@[simp] theorem State.modHead_mem (st : Nat) (sq : Word32) (f : Head → Head) : (s.modHead st sq f).mem = s.mem := rfl
@[simp] theorem State.modHead_out (st : Nat) (sq : Word32) (f : Head → Head) : (s.modHead st sq f).out = s.out := rfl
@[simp] theorem State.modHead_pending (st : Nat) (sq : Word32) (f : Head → Head) : (s.modHead st sq f).pending = s.pending := rfl
@[simp] theorem State.modHead_acc_retiredHeads (st : Nat) (sq : Word32) (f : Head → Head) : (s.modHead st sq f).acc.retiredHeads = s.acc.retiredHeads := rfl
@[simp] theorem State.modHead_acc_retiredBlocks (st : Nat) (sq : Word32) (f : Head → Head) : (s.modHead st sq f).acc.retiredBlocks = s.acc.retiredBlocks := rfl

@[simp] theorem State.modPlace_pkg (st : Nat) (sq : Word32) (j : Nat) (f : JobPlace → JobPlace) : (s.modPlace st sq j f).pkg = s.pkg := rfl
@[simp] theorem State.modPlace_live (st : Nat) (sq : Word32) (j : Nat) (f : JobPlace → JobPlace) : (s.modPlace st sq j f).live = s.live := rfl
@[simp] theorem State.modPlace_shadow (st : Nat) (sq : Word32) (j : Nat) (f : JobPlace → JobPlace) : (s.modPlace st sq j f).shadow = s.shadow := rfl
@[simp] theorem State.modPlace_sel (st : Nat) (sq : Word32) (j : Nat) (f : JobPlace → JobPlace) : (s.modPlace st sq j f).sel = s.sel := rfl
@[simp] theorem State.modPlace_img (st : Nat) (sq : Word32) (j : Nat) (f : JobPlace → JobPlace) : (s.modPlace st sq j f).img = s.img := rfl
@[simp] theorem State.modPlace_ing (st : Nat) (sq : Word32) (j : Nat) (f : JobPlace → JobPlace) : (s.modPlace st sq j f).ing = s.ing := rfl
@[simp] theorem State.modPlace_ent (st : Nat) (sq : Word32) (j : Nat) (f : JobPlace → JobPlace) : (s.modPlace st sq j f).ent = s.ent := rfl
@[simp] theorem State.modPlace_snd (st : Nat) (sq : Word32) (j : Nat) (f : JobPlace → JobPlace) : (s.modPlace st sq j f).snd = s.snd := rfl
@[simp] theorem State.modPlace_rings (st : Nat) (sq : Word32) (j : Nat) (f : JobPlace → JobPlace) : (s.modPlace st sq j f).rings = s.rings := rfl
@[simp] theorem State.modPlace_jobs (st : Nat) (sq : Word32) (j : Nat) (f : JobPlace → JobPlace) : (s.modPlace st sq j f).jobs = s.jobs := rfl
@[simp] theorem State.modPlace_arr (st : Nat) (sq : Word32) (j : Nat) (f : JobPlace → JobPlace) : (s.modPlace st sq j f).arr = s.arr := rfl
@[simp] theorem State.modPlace_grp (st : Nat) (sq : Word32) (j : Nat) (f : JobPlace → JobPlace) : (s.modPlace st sq j f).grp = s.grp := rfl
@[simp] theorem State.modPlace_tally (st : Nat) (sq : Word32) (j : Nat) (f : JobPlace → JobPlace) : (s.modPlace st sq j f).tally = s.tally := rfl
@[simp] theorem State.modPlace_mnt (st : Nat) (sq : Word32) (j : Nat) (f : JobPlace → JobPlace) : (s.modPlace st sq j f).mnt = s.mnt := rfl
@[simp] theorem State.modPlace_led (st : Nat) (sq : Word32) (j : Nat) (f : JobPlace → JobPlace) : (s.modPlace st sq j f).led = s.led := rfl
@[simp] theorem State.modPlace_gait (st : Nat) (sq : Word32) (j : Nat) (f : JobPlace → JobPlace) : (s.modPlace st sq j f).gait = s.gait := rfl
@[simp] theorem State.modPlace_flt (st : Nat) (sq : Word32) (j : Nat) (f : JobPlace → JobPlace) : (s.modPlace st sq j f).flt = s.flt := rfl
@[simp] theorem State.modPlace_pwr (st : Nat) (sq : Word32) (j : Nat) (f : JobPlace → JobPlace) : (s.modPlace st sq j f).pwr = s.pwr := rfl
@[simp] theorem State.modPlace_bag (st : Nat) (sq : Word32) (j : Nat) (f : JobPlace → JobPlace) : (s.modPlace st sq j f).bag = s.bag := rfl
@[simp] theorem State.modPlace_link (st : Nat) (sq : Word32) (j : Nat) (f : JobPlace → JobPlace) : (s.modPlace st sq j f).link = s.link := rfl
@[simp] theorem State.modPlace_tele (st : Nat) (sq : Word32) (j : Nat) (f : JobPlace → JobPlace) : (s.modPlace st sq j f).tele = s.tele := rfl
@[simp] theorem State.modPlace_tap (st : Nat) (sq : Word32) (j : Nat) (f : JobPlace → JobPlace) : (s.modPlace st sq j f).tap = s.tap := rfl
@[simp] theorem State.modPlace_pins (st : Nat) (sq : Word32) (j : Nat) (f : JobPlace → JobPlace) : (s.modPlace st sq j f).pins = s.pins := rfl
@[simp] theorem State.modPlace_mem (st : Nat) (sq : Word32) (j : Nat) (f : JobPlace → JobPlace) : (s.modPlace st sq j f).mem = s.mem := rfl
@[simp] theorem State.modPlace_out (st : Nat) (sq : Word32) (j : Nat) (f : JobPlace → JobPlace) : (s.modPlace st sq j f).out = s.out := rfl
@[simp] theorem State.modPlace_pending (st : Nat) (sq : Word32) (j : Nat) (f : JobPlace → JobPlace) : (s.modPlace st sq j f).pending = s.pending := rfl
@[simp] theorem State.modPlace_acc_retiredHeads (st : Nat) (sq : Word32) (j : Nat) (f : JobPlace → JobPlace) : (s.modPlace st sq j f).acc.retiredHeads = s.acc.retiredHeads := rfl
@[simp] theorem State.modPlace_acc_retiredBlocks (st : Nat) (sq : Word32) (j : Nat) (f : JobPlace → JobPlace) : (s.modPlace st sq j f).acc.retiredBlocks = s.acc.retiredBlocks := rfl

@[simp] theorem State.modTile_pkg (n : Nat) (f : Tile → Tile) : (s.modTile n f).pkg = s.pkg := rfl
@[simp] theorem State.modTile_live (n : Nat) (f : Tile → Tile) : (s.modTile n f).live = s.live := rfl
@[simp] theorem State.modTile_shadow (n : Nat) (f : Tile → Tile) : (s.modTile n f).shadow = s.shadow := rfl
@[simp] theorem State.modTile_sel (n : Nat) (f : Tile → Tile) : (s.modTile n f).sel = s.sel := rfl
@[simp] theorem State.modTile_img (n : Nat) (f : Tile → Tile) : (s.modTile n f).img = s.img := rfl
@[simp] theorem State.modTile_ing (n : Nat) (f : Tile → Tile) : (s.modTile n f).ing = s.ing := rfl
@[simp] theorem State.modTile_ent (n : Nat) (f : Tile → Tile) : (s.modTile n f).ent = s.ent := rfl
@[simp] theorem State.modTile_snd (n : Nat) (f : Tile → Tile) : (s.modTile n f).snd = s.snd := rfl
@[simp] theorem State.modTile_acc (n : Nat) (f : Tile → Tile) : (s.modTile n f).acc = s.acc := rfl
@[simp] theorem State.modTile_rings (n : Nat) (f : Tile → Tile) : (s.modTile n f).rings = s.rings := rfl
@[simp] theorem State.modTile_jobs (n : Nat) (f : Tile → Tile) : (s.modTile n f).jobs = s.jobs := rfl
@[simp] theorem State.modTile_arr (n : Nat) (f : Tile → Tile) : (s.modTile n f).arr = s.arr := rfl
@[simp] theorem State.modTile_grp (n : Nat) (f : Tile → Tile) : (s.modTile n f).grp = s.grp := rfl
@[simp] theorem State.modTile_mnt (n : Nat) (f : Tile → Tile) : (s.modTile n f).mnt = s.mnt := rfl
@[simp] theorem State.modTile_led (n : Nat) (f : Tile → Tile) : (s.modTile n f).led = s.led := rfl
@[simp] theorem State.modTile_gait (n : Nat) (f : Tile → Tile) : (s.modTile n f).gait = s.gait := rfl
@[simp] theorem State.modTile_flt (n : Nat) (f : Tile → Tile) : (s.modTile n f).flt = s.flt := rfl
@[simp] theorem State.modTile_pwr (n : Nat) (f : Tile → Tile) : (s.modTile n f).pwr = s.pwr := rfl
@[simp] theorem State.modTile_bag (n : Nat) (f : Tile → Tile) : (s.modTile n f).bag = s.bag := rfl
@[simp] theorem State.modTile_link (n : Nat) (f : Tile → Tile) : (s.modTile n f).link = s.link := rfl
@[simp] theorem State.modTile_tele (n : Nat) (f : Tile → Tile) : (s.modTile n f).tele = s.tele := rfl
@[simp] theorem State.modTile_tap (n : Nat) (f : Tile → Tile) : (s.modTile n f).tap = s.tap := rfl
@[simp] theorem State.modTile_pins (n : Nat) (f : Tile → Tile) : (s.modTile n f).pins = s.pins := rfl
@[simp] theorem State.modTile_mem (n : Nat) (f : Tile → Tile) : (s.modTile n f).mem = s.mem := rfl
@[simp] theorem State.modTile_out (n : Nat) (f : Tile → Tile) : (s.modTile n f).out = s.out := rfl
@[simp] theorem State.modTile_pending (n : Nat) (f : Tile → Tile) : (s.modTile n f).pending = s.pending := rfl
@[simp] theorem State.modTile_tally_words (n : Nat) (f : Tile → Tile) : (s.modTile n f).tally.words = s.tally.words := rfl
@[simp] theorem State.modTile_tally_corrected (n : Nat) (f : Tile → Tile) : (s.modTile n f).tally.corrected = s.tally.corrected := rfl
@[simp] theorem State.modTile_tally_sparing (n : Nat) (f : Tile → Tile) : (s.modTile n f).tally.sparing = s.tally.sparing := rfl
@[simp] theorem State.modTile_tally_spared (n : Nat) (f : Tile → Tile) : (s.modTile n f).tally.spared = s.tally.spared := rfl
@[simp] theorem State.modTile_tally_unkept (n : Nat) (f : Tile → Tile) : (s.modTile n f).tally.unkept = s.tally.unkept := rfl

@[simp] theorem State.modChannel_pkg (i : Nat) (f : Channel → Channel) : (s.modChannel i f).pkg = s.pkg := rfl
@[simp] theorem State.modChannel_live (i : Nat) (f : Channel → Channel) : (s.modChannel i f).live = s.live := rfl
@[simp] theorem State.modChannel_shadow (i : Nat) (f : Channel → Channel) : (s.modChannel i f).shadow = s.shadow := rfl
@[simp] theorem State.modChannel_sel (i : Nat) (f : Channel → Channel) : (s.modChannel i f).sel = s.sel := rfl
@[simp] theorem State.modChannel_img (i : Nat) (f : Channel → Channel) : (s.modChannel i f).img = s.img := rfl
@[simp] theorem State.modChannel_ing (i : Nat) (f : Channel → Channel) : (s.modChannel i f).ing = s.ing := rfl
@[simp] theorem State.modChannel_ent (i : Nat) (f : Channel → Channel) : (s.modChannel i f).ent = s.ent := rfl
@[simp] theorem State.modChannel_acc (i : Nat) (f : Channel → Channel) : (s.modChannel i f).acc = s.acc := rfl
@[simp] theorem State.modChannel_rings (i : Nat) (f : Channel → Channel) : (s.modChannel i f).rings = s.rings := rfl
@[simp] theorem State.modChannel_jobs (i : Nat) (f : Channel → Channel) : (s.modChannel i f).jobs = s.jobs := rfl
@[simp] theorem State.modChannel_arr (i : Nat) (f : Channel → Channel) : (s.modChannel i f).arr = s.arr := rfl
@[simp] theorem State.modChannel_grp (i : Nat) (f : Channel → Channel) : (s.modChannel i f).grp = s.grp := rfl
@[simp] theorem State.modChannel_tally (i : Nat) (f : Channel → Channel) : (s.modChannel i f).tally = s.tally := rfl
@[simp] theorem State.modChannel_mnt (i : Nat) (f : Channel → Channel) : (s.modChannel i f).mnt = s.mnt := rfl
@[simp] theorem State.modChannel_led (i : Nat) (f : Channel → Channel) : (s.modChannel i f).led = s.led := rfl
@[simp] theorem State.modChannel_gait (i : Nat) (f : Channel → Channel) : (s.modChannel i f).gait = s.gait := rfl
@[simp] theorem State.modChannel_flt (i : Nat) (f : Channel → Channel) : (s.modChannel i f).flt = s.flt := rfl
@[simp] theorem State.modChannel_pwr (i : Nat) (f : Channel → Channel) : (s.modChannel i f).pwr = s.pwr := rfl
@[simp] theorem State.modChannel_bag (i : Nat) (f : Channel → Channel) : (s.modChannel i f).bag = s.bag := rfl
@[simp] theorem State.modChannel_link (i : Nat) (f : Channel → Channel) : (s.modChannel i f).link = s.link := rfl
@[simp] theorem State.modChannel_tele (i : Nat) (f : Channel → Channel) : (s.modChannel i f).tele = s.tele := rfl
@[simp] theorem State.modChannel_tap (i : Nat) (f : Channel → Channel) : (s.modChannel i f).tap = s.tap := rfl
@[simp] theorem State.modChannel_pins (i : Nat) (f : Channel → Channel) : (s.modChannel i f).pins = s.pins := rfl
@[simp] theorem State.modChannel_mem (i : Nat) (f : Channel → Channel) : (s.modChannel i f).mem = s.mem := rfl
@[simp] theorem State.modChannel_out (i : Nat) (f : Channel → Channel) : (s.modChannel i f).out = s.out := rfl
@[simp] theorem State.modChannel_pending (i : Nat) (f : Channel → Channel) : (s.modChannel i f).pending = s.pending := rfl
@[simp] theorem State.modChannel_snd_frame (i : Nat) (f : Channel → Channel) : (s.modChannel i f).snd.frame = s.snd.frame := rfl
@[simp] theorem State.modChannel_snd_doorbells (i : Nat) (f : Channel → Channel) : (s.modChannel i f).snd.doorbells = s.snd.doorbells := rfl

@[simp] theorem State.modModule_pkg (m : Nat) (f : LinkModule → LinkModule) : (s.modModule m f).pkg = s.pkg := rfl
@[simp] theorem State.modModule_live (m : Nat) (f : LinkModule → LinkModule) : (s.modModule m f).live = s.live := rfl
@[simp] theorem State.modModule_shadow (m : Nat) (f : LinkModule → LinkModule) : (s.modModule m f).shadow = s.shadow := rfl
@[simp] theorem State.modModule_sel (m : Nat) (f : LinkModule → LinkModule) : (s.modModule m f).sel = s.sel := rfl
@[simp] theorem State.modModule_img (m : Nat) (f : LinkModule → LinkModule) : (s.modModule m f).img = s.img := rfl
@[simp] theorem State.modModule_ing (m : Nat) (f : LinkModule → LinkModule) : (s.modModule m f).ing = s.ing := rfl
@[simp] theorem State.modModule_ent (m : Nat) (f : LinkModule → LinkModule) : (s.modModule m f).ent = s.ent := rfl
@[simp] theorem State.modModule_snd (m : Nat) (f : LinkModule → LinkModule) : (s.modModule m f).snd = s.snd := rfl
@[simp] theorem State.modModule_acc (m : Nat) (f : LinkModule → LinkModule) : (s.modModule m f).acc = s.acc := rfl
@[simp] theorem State.modModule_rings (m : Nat) (f : LinkModule → LinkModule) : (s.modModule m f).rings = s.rings := rfl
@[simp] theorem State.modModule_jobs (m : Nat) (f : LinkModule → LinkModule) : (s.modModule m f).jobs = s.jobs := rfl
@[simp] theorem State.modModule_arr (m : Nat) (f : LinkModule → LinkModule) : (s.modModule m f).arr = s.arr := rfl
@[simp] theorem State.modModule_grp (m : Nat) (f : LinkModule → LinkModule) : (s.modModule m f).grp = s.grp := rfl
@[simp] theorem State.modModule_tally (m : Nat) (f : LinkModule → LinkModule) : (s.modModule m f).tally = s.tally := rfl
@[simp] theorem State.modModule_mnt (m : Nat) (f : LinkModule → LinkModule) : (s.modModule m f).mnt = s.mnt := rfl
@[simp] theorem State.modModule_led (m : Nat) (f : LinkModule → LinkModule) : (s.modModule m f).led = s.led := rfl
@[simp] theorem State.modModule_gait (m : Nat) (f : LinkModule → LinkModule) : (s.modModule m f).gait = s.gait := rfl
@[simp] theorem State.modModule_flt (m : Nat) (f : LinkModule → LinkModule) : (s.modModule m f).flt = s.flt := rfl
@[simp] theorem State.modModule_pwr (m : Nat) (f : LinkModule → LinkModule) : (s.modModule m f).pwr = s.pwr := rfl
@[simp] theorem State.modModule_bag (m : Nat) (f : LinkModule → LinkModule) : (s.modModule m f).bag = s.bag := rfl
@[simp] theorem State.modModule_tele (m : Nat) (f : LinkModule → LinkModule) : (s.modModule m f).tele = s.tele := rfl
@[simp] theorem State.modModule_tap (m : Nat) (f : LinkModule → LinkModule) : (s.modModule m f).tap = s.tap := rfl
@[simp] theorem State.modModule_pins (m : Nat) (f : LinkModule → LinkModule) : (s.modModule m f).pins = s.pins := rfl
@[simp] theorem State.modModule_mem (m : Nat) (f : LinkModule → LinkModule) : (s.modModule m f).mem = s.mem := rfl
@[simp] theorem State.modModule_out (m : Nat) (f : LinkModule → LinkModule) : (s.modModule m f).out = s.out := rfl
@[simp] theorem State.modModule_pending (m : Nat) (f : LinkModule → LinkModule) : (s.modModule m f).pending = s.pending := rfl

@[simp] theorem State.write_pkg (a : Nat) (bs : List Byte) : (s.write a bs).pkg = s.pkg := rfl
@[simp] theorem State.write_live (a : Nat) (bs : List Byte) : (s.write a bs).live = s.live := rfl
@[simp] theorem State.write_shadow (a : Nat) (bs : List Byte) : (s.write a bs).shadow = s.shadow := rfl
@[simp] theorem State.write_sel (a : Nat) (bs : List Byte) : (s.write a bs).sel = s.sel := rfl
@[simp] theorem State.write_img (a : Nat) (bs : List Byte) : (s.write a bs).img = s.img := rfl
@[simp] theorem State.write_ing (a : Nat) (bs : List Byte) : (s.write a bs).ing = s.ing := rfl
@[simp] theorem State.write_ent (a : Nat) (bs : List Byte) : (s.write a bs).ent = s.ent := rfl
@[simp] theorem State.write_snd (a : Nat) (bs : List Byte) : (s.write a bs).snd = s.snd := rfl
@[simp] theorem State.write_acc (a : Nat) (bs : List Byte) : (s.write a bs).acc = s.acc := rfl
@[simp] theorem State.write_rings (a : Nat) (bs : List Byte) : (s.write a bs).rings = s.rings := rfl
@[simp] theorem State.write_jobs (a : Nat) (bs : List Byte) : (s.write a bs).jobs = s.jobs := rfl
@[simp] theorem State.write_arr (a : Nat) (bs : List Byte) : (s.write a bs).arr = s.arr := rfl
@[simp] theorem State.write_grp (a : Nat) (bs : List Byte) : (s.write a bs).grp = s.grp := rfl
@[simp] theorem State.write_tally (a : Nat) (bs : List Byte) : (s.write a bs).tally = s.tally := rfl
@[simp] theorem State.write_mnt (a : Nat) (bs : List Byte) : (s.write a bs).mnt = s.mnt := rfl
@[simp] theorem State.write_led (a : Nat) (bs : List Byte) : (s.write a bs).led = s.led := rfl
@[simp] theorem State.write_gait (a : Nat) (bs : List Byte) : (s.write a bs).gait = s.gait := rfl
@[simp] theorem State.write_flt (a : Nat) (bs : List Byte) : (s.write a bs).flt = s.flt := rfl
@[simp] theorem State.write_pwr (a : Nat) (bs : List Byte) : (s.write a bs).pwr = s.pwr := rfl
@[simp] theorem State.write_bag (a : Nat) (bs : List Byte) : (s.write a bs).bag = s.bag := rfl
@[simp] theorem State.write_link (a : Nat) (bs : List Byte) : (s.write a bs).link = s.link := rfl
@[simp] theorem State.write_tele (a : Nat) (bs : List Byte) : (s.write a bs).tele = s.tele := rfl
@[simp] theorem State.write_tap (a : Nat) (bs : List Byte) : (s.write a bs).tap = s.tap := rfl
@[simp] theorem State.write_pins (a : Nat) (bs : List Byte) : (s.write a bs).pins = s.pins := rfl
@[simp] theorem State.write_out (a : Nat) (bs : List Byte) : (s.write a bs).out = s.out := rfl
@[simp] theorem State.write_pending (a : Nat) (bs : List Byte) : (s.write a bs).pending = s.pending := rfl

@[simp] theorem State.send_pkg (m : Message) : (s.send m).pkg = s.pkg := rfl
@[simp] theorem State.send_live (m : Message) : (s.send m).live = s.live := rfl
@[simp] theorem State.send_shadow (m : Message) : (s.send m).shadow = s.shadow := rfl
@[simp] theorem State.send_sel (m : Message) : (s.send m).sel = s.sel := rfl
@[simp] theorem State.send_img (m : Message) : (s.send m).img = s.img := rfl
@[simp] theorem State.send_ing (m : Message) : (s.send m).ing = s.ing := rfl
@[simp] theorem State.send_ent (m : Message) : (s.send m).ent = s.ent := rfl
@[simp] theorem State.send_snd (m : Message) : (s.send m).snd = s.snd := rfl
@[simp] theorem State.send_acc (m : Message) : (s.send m).acc = s.acc := rfl
@[simp] theorem State.send_rings (m : Message) : (s.send m).rings = s.rings := rfl
@[simp] theorem State.send_jobs (m : Message) : (s.send m).jobs = s.jobs := rfl
@[simp] theorem State.send_arr (m : Message) : (s.send m).arr = s.arr := rfl
@[simp] theorem State.send_grp (m : Message) : (s.send m).grp = s.grp := rfl
@[simp] theorem State.send_tally (m : Message) : (s.send m).tally = s.tally := rfl
@[simp] theorem State.send_mnt (m : Message) : (s.send m).mnt = s.mnt := rfl
@[simp] theorem State.send_led (m : Message) : (s.send m).led = s.led := rfl
@[simp] theorem State.send_gait (m : Message) : (s.send m).gait = s.gait := rfl
@[simp] theorem State.send_flt (m : Message) : (s.send m).flt = s.flt := rfl
@[simp] theorem State.send_pwr (m : Message) : (s.send m).pwr = s.pwr := rfl
@[simp] theorem State.send_bag (m : Message) : (s.send m).bag = s.bag := rfl
@[simp] theorem State.send_link (m : Message) : (s.send m).link = s.link := rfl
@[simp] theorem State.send_tele (m : Message) : (s.send m).tele = s.tele := rfl
@[simp] theorem State.send_tap (m : Message) : (s.send m).tap = s.tap := rfl
@[simp] theorem State.send_pins (m : Message) : (s.send m).pins = s.pins := rfl
@[simp] theorem State.send_mem (m : Message) : (s.send m).mem = s.mem := rfl
@[simp] theorem State.send_pending (m : Message) : (s.send m).pending = s.pending := rfl

@[simp] theorem State.send_out (m : Message) : (s.send m).out = s.out ++ [m] := rfl
@[simp] theorem State.write_mem (a : Nat) (bs : List Byte) : (s.write a bs).mem = memWrite s.mem a bs := rfl

/-! ## Reads after updates -/

variable {s : State}

theorem State.modStream_stream (h : sparseOk Stream.reset s.ing.streams = true) (st k : Nat) (f : Stream → Stream) :
    (s.modStream st f).stream k = if k = st then f (s.stream st) else s.stream k := sget_smod h

theorem State.modPair_pair (h : sparseOk Pair.reset s.ing.pairs = true) (st k : Nat) (f : Pair → Pair) :
    (s.modPair st f).pair k = if k = st then f (s.pair st) else s.pair k := sget_smod h

theorem State.modTile_tile (h : sparseOk Tile.reset s.tally.tiles = true) (n k : Nat) (f : Tile → Tile) :
    (s.modTile n f).tile k = if k = n then f (s.tile n) else s.tile k := sget_smod h

theorem State.modRing_ring (r k : Nat) (f : Ring → Ring) (h : r < s.rings.length) :
    (s.modRing r f).ring k = if k = r then f (s.ring r) else s.ring k := by
  unfold State.modRing State.ring
  by_cases e : k = r
  · subst e; simp [List.getD_eq_getElem?_getD, h]
  · simp [List.getD_eq_getElem?_getD, e, Ne.symm e]

theorem State.modJob_job (i k : Nat) (f : Job → Job) (h : ∀ j : Job, (f j).id = j.id) :
    (s.modJob i f).job k = if k = i then (s.job i).map f else s.job k := by
  have key : ∀ xs : List Job, (xs.map (fun j => if j.id = i then f j else j)).find? (fun j => j.id == k) =
      if k = i then (xs.find? (fun j => j.id == i)).map f else xs.find? (fun j => j.id == k) := by
    intro xs
    induction xs with
    | nil => simp
    | cons x xs ih =>
      simp only [List.map_cons, List.find?_cons]
      by_cases hx : x.id = i
      · rw [if_pos hx, h, hx]
        by_cases hk : k = i
        · subst hk; simp
        · rw [if_neg hk] at ih ⊢
          rw [show (i == k) = false by simpa using Ne.symm hk]
          exact ih
      · rw [if_neg hx]
        by_cases hk : k = i
        · subst hk
          rw [if_pos rfl] at ih ⊢
          rw [show (x.id == k) = false by simpa using hx]
          exact ih
        · rw [if_neg hk] at ih ⊢
          split
          · rfl
          · exact ih
  exact key s.jobs.jobs

theorem State.modGroup_groupNo (n k : Nat) (f : Group → Group) (h : ∀ g : Group, (f g).gid = g.gid) :
    (s.modGroup n f).groupNo k = if k = n then (s.groupNo n).map f else s.groupNo k := by
  have key : ∀ xs : List Group, (xs.map (fun j => if j.gid = n then f j else j)).find? (fun j => j.gid == k) =
      if k = n then (xs.find? (fun j => j.gid == n)).map f else xs.find? (fun j => j.gid == k) := by
    intro xs
    induction xs with
    | nil => simp
    | cons x xs ih =>
      simp only [List.map_cons, List.find?_cons]
      by_cases hx : x.gid = n
      · rw [if_pos hx, h, hx]
        by_cases hk : k = n
        · subst hk; simp
        · rw [if_neg hk] at ih ⊢
          rw [show (n == k) = false by simpa using Ne.symm hk]
          exact ih
      · rw [if_neg hx]
        by_cases hk : k = n
        · subst hk
          rw [if_pos rfl] at ih ⊢
          rw [show (x.gid == k) = false by simpa using hx]
          exact ih
        · rw [if_neg hk] at ih ⊢
          split
          · rfl
          · exact ih
  exact key s.grp.groups

end Sys2Proof.Laws
end

