-- ==== Sys2Proof/WellFormed.lean ====
section
/-! DEFINITION. The checks on a command's operands: the ranges that the spec gives the things they name. -/

namespace Sys2Proof

/-- The upset names a bit that the die holds (R17, R57, R89, R160). -/
def Upset.wellFormed : Upset → Bool
  | .cellBit p _ s c b => p < 34 && s < 256 && c < 64 && b < 43
  | .descBit p _ s b => p < 34 && s < 256 && b < 10
  | .maskBit p m b => p < 34 && m < 1024 && b < 256
  | .rowBit p k r b => p < 34 && k < 16 && r < 1152 && b < 175
  | .scaleBit p i b => p < 34 && i < 2048 && b < 24
  | .featureBuffer p x w b => p < 34 && x < 2 && w < 272 && b < 65
  | .residue l n e => (l < 6 || l == 128) && n < 32 && e < 256
  | .tallyBit w b => w < 262144 && b < 72
  | .headBit n => n < 8192
  | .blockBit n => n < 1686
  | .indexBit e => e < 131072

/-- The operands of a command lie in the ranges of the things they name. -/
def Instr.wellFormed : Instr → Bool
  | .frameArrival m bytes => m < 2 && 8 ≤ bytes.length
  | .decodeDone l _ => l < 8
  | .decodeBudget l _ => l < 8
  | .entityJoin st _ _ ups => st < 4096 && ups.all Upset.wellFormed
  | .outriderFetch st _ _ => st < 4096
  | .acceptance st => st < 4096
  | .jobRefusal r => r < 64
  | .patchBoundary _ b => b < 32
  | .loadSecondPass _ bad =>
      match bad with
      | none => true
      | some (a, h, s, c) => a < 32 && h < 2 && s < 256 && c < 64
  | .groupPlaneSwitch b bad => b < 32 && bad.all (fun x => x.1 < 34)
  | .recordDispatch b _ ups => b < 32 && ups.all Upset.wellFormed
  | .bridgeSearch _ p b ups => p < 32 && b < 16 && ups.all Upset.wellFormed
  | .accumulationColumn _ p ups => p < 32 && ups.all Upset.wellFormed
  | .chordNode _ l n ups => 1 ≤ l && l < 6 && n < 16 && ups.all Upset.wellFormed
  | .tunerAdd _ ups => ups.all Upset.wellFormed
  | .tallyWrite _ ups => ups.all Upset.wellFormed
  | .doubleRunSwitch b => b < 32
  | .faultRecovery ups bad _ => ups.all Upset.wellFormed && bad.all (fun x => x.1 < 34)
  | .curryItem p ups => p < 34 && ups.all Upset.wellFormed
  | .tileSpared t => t < 1024
  | .memoryReadReturn a line chk => a < 2 ^ 48 && a % 128 == 0 && line.length == 128 && chk.length == 8
  | .linkLane m l _ => m < 2 && l < 16
  | .linkRetrainDone m w _ _ => m < 2 && w < 3
  | .sfdRingSdb r _ => r < 64
  | .sfdRingCdb r _ => r < 64
  | .sensorConversion i _ _ => i < 8
  | .registerWrite a o _ => a < 16 && o < 65536 && o % 8 == 0
  | .sfdImgExpectWrite a i _ => a < 16 && i < 4
  | .memoryWriteAcknowledged r => r < 64
  | .drainWritesAcked _ n => n ≤ 1024
  | .planeEndInvalidate _ => true
  | .jobDispatch | .score _ | .scoreTremolo _ | .entityUpdate _ _ | .entityEvict _ _ | .entityInvalidate _ _
  | .leafPatch _ | .loadHarness _ | .loadFirstPass _ | .mount _ | .mountGo _ | .mountDiscard | .mountApply
  | .drainTile _ | .fence _ | .fenceComplete _ | .release _ | .sfdRelease _ | .recordCommit _
  | .sfdSndDb _ | .sndFrameStart | .sndFrameDone | .sfdLedger _ | .ledgerDebit _ | .avsPoll _ _ _
  | .gaitReached _ | .avsErr _ | .avsErrClear _ | .sfdFaultAck _ | .sfdDbgCapCtl _ | .sfdDbgChordSel _
  | .sfdDbgTally | .powerOn _ _ _ _ _ | .engineReset | .warmRequest | .packageWarmReset _ | .sag _ _ | .saveSealed _
  | .saveIncomplete | .vholdLow _ | .replay _ | .telemetrySelect _ _ | .telemetryRead _ | .enec | .disec | .rstdaa
  | .entdaa _ | .setdasa _ | .getpid | .getbcr | .getdcr | .getstatus | .getmrl | .bypass | .idcode
  | .samplePreload _ | .extest => true

end Sys2Proof
end

