-- ==== Sys2Proof/Tests/Slice0.lean ====
section
/-! SUPPORT. Small checks of the model: the well-formedness of operands, a state that meets the hypotheses of each statement, and steps
on small states. -/

-- Each theorem is checked before the next one, which bounds the threads that the compiler takes.
set_option Elab.async false

open Sys2Proof Sys2Proof.Machine Sys2Proof.Safety

namespace Sys2Proof.Tests

/-! ## States for the tests -/

/-- The state that a command leads to. -/
def after (c : Instr) (s : State) : State :=
  match exec c s with
  | .next t => t
  | _ => s

/-- A command answers a state that differs. -/
def changes (c : Instr) (s : State) : Bool :=
  match exec c s with
  | .next t => t != s
  | _ => false

/-- A command answers the same state. -/
def stays (c : Instr) (s : State) : Bool :=
  match exec c s with
  | .next t => t == s
  | _ => false

/-- An engine that runs, with its rails good and both link modules up. -/
def run : State := { State.reset with
  pwr := { State.reset.pwr with phase := .running, vddMv := 550, vddmMv := 800, vppMv := 1800, vholdMv := 3200 }
  link := List.replicate 2 { LinkModule.reset with state := 1 } }

/-- An engine that writes a save. -/
def saving : State := { run with pwr := { run.pwr with phase := .saving } }

/-- Ring 0 with 16 descriptors at 0x10000 and 64 completion entries at 0x20000. -/
def ringed : State := { run with live := { run.live with rings := ⟨0x0004000000010000, 0x0006000000020000, 1⟩ :: List.replicate 63 ⟨0, 0, 0⟩ } }

/-- A vote model of two classes. -/
def votes : ModelDef := ⟨0, true, 0, 0, 2, false, 0, [], 0, [], [0, 0, 0, 0], []⟩

/-- A job of ring 0 with two records of stream 5. -/
def jobOf (op : Nat) : Job where
  id := 0
  ring := 0
  op := op
  tag := 7
  desc := 0
  slot := 0
  n := 2
  model := some votes
  groups := [(0, 0, 0xFFFFFFFFFFFFFFFF)]
  tile := 0
  tiles := 1
  stride := 2
  add := false
  k := 4
  stream := 5
  first := 0
  next := 0
  committed := 0
  voided := 0
  costRec := 0
  costLeft := 0
  voidGroups := []
  routeGone := none
  special := []
  owed := []
  begun := false
  acked := 0
  owns := false
  written := false
  ended := false
  status := 0
  done := 0
  detail := 0

/-- A state with one job. -/
def withJob (j : Job) (s : State) : State := { s with jobs := { s.jobs with jobs := [j], nextId := 1 } }

/-- A group of two arrays from position 0, with one half, in plane A. -/
def group0 : Group where
  gid := 1
  base := 0
  size := 2
  ended := false
  dbl := false
  refold := false
  plane := false
  switchDue := false
  gen := 0
  digest := []
  models := [0]
  suspended := []
  tandem := false
  paused := false
  ready := []
  marked := []
  tremolo := none
  run := []
  runPos := 0
  inB := false

def withGroup (g : Group) (s : State) : State := { s with grp := { s.grp with groups := [g], nextGroup := 2 } }

/-- The job place of index 0 of job 0. -/
def place0 : JobPlace := JobPlace.fresh 0 0

/-- Record 0 of stream 5, accepted. -/
def head0 (ps : List JobPlace) : Head := ⟨0, some 0, 5, 0, 0, 0, [], [], false, false, ps⟩

def withHead (h : Head) (s : State) : State := { s with acc := { s.acc with heads := [h] } }

/-- A route of stream 5, in RSP2, to model 0. -/
def route5 : Route := ⟨5, 0, 0, 0, false, false, 0, 0, 0, 1⟩

/-- An image with one group, one model and one stream. -/
def image0 : Image :=
  ⟨2, 0, 0, 0, List.replicate 32 0, ⟨[], [], [route5], [⟨0, 0, 0, 0xFFFFFFFFFFFFFFFF⟩], [votes], [⟨0, 2, false, [], [0]⟩]⟩, [], [], [], [], []⟩

def withImage (s : State) : State := { s with img := { s.img with live := some ⟨image0, []⟩ } }

/-- An attempt of record 0 in a group. -/
def attempt0 : Attempt where
  id := 0
  first := 0
  grp := 1
  base := 0
  size := 2
  dbl := false
  refold := false
  job := 0
  idx := 0
  stream := 5
  seq := 0
  pass := 0
  plane := false
  depth := 1
  words := []
  descs := []
  tokens := []
  handed := []
  contribs := []
  partials := []
  nodes := []
  cert := []
  tuned := false
  multi := false
  overflow := false
  miss := false
  missVoid := false

def withAttempt (a : Attempt) (s : State) : State := { s with grp := { s.grp with attempts := [a], nextAttempt := 1 } }

/-- A group with a record of a SCORE job, accepted and ready. -/
def scoring : State :=
  withHead (head0 [place0]) (withJob { jobOf 1 with next := 1 } (withGroup { group0 with ready := [(0, 0)] } (withImage ringed)))

/-- The record of scoring, in an attempt. -/
def scored (a : Attempt) : State := withAttempt a (after (.recordDispatch 0 false []) scoring)

theorem stores_of (s : State) (h : (sparseOk TallyWord.reset s.tally.words && sparseOk Tile.reset s.tally.tiles &&
    sparseOk EntityRow.missing s.ent.rows && sparseOk FeaturePlace.empty s.arr.buffers &&
    decide ((s.ent.index.map Prod.fst).Pairwise (· < ·) ∧ (∀ x ∈ s.ent.index, x.1 < 131072) ∧ (∀ r ∈ s.ent.usedRows, r < s.live.entRows + 256) ∧
      (s.arr.rows.map Prod.fst).Pairwise (· < ·)) && s.bag.save.isNone) = true) : StoresOk s := by
  simp only [Bool.and_eq_true, decide_eq_true_eq, Option.isNone_iff_eq_none] at h
  obtain ⟨⟨⟨⟨⟨h1, h2⟩, h3⟩, h4⟩, h5, h6, h7, h8⟩, h9⟩ := h
  exact ⟨h1, h2, h3, h4, h5, h6, h7, h8, fun sv hs => by rw [h9] at hs; cases hs⟩

/-! ## Checks of WellFormed: an operand out of range, beside one at its bound -/

theorem test_wf_upset_cell : Upset.wellFormed (.cellBit 33 true 255 63 42) = true ∧ Upset.wellFormed (.cellBit 34 true 0 0 0) = false ∧
    Upset.wellFormed (.cellBit 0 true 256 0 0) = false ∧ Upset.wellFormed (.cellBit 0 true 0 64 0) = false ∧
    Upset.wellFormed (.cellBit 0 true 0 0 43) = false := by decide
theorem test_wf_upset_desc : Upset.wellFormed (.descBit 33 true 255 9) = true ∧ Upset.wellFormed (.descBit 34 true 0 0) = false ∧
    Upset.wellFormed (.descBit 0 true 256 0) = false ∧ Upset.wellFormed (.descBit 0 true 0 10) = false := by decide
theorem test_wf_upset_mask : Upset.wellFormed (.maskBit 33 1023 255) = true ∧ Upset.wellFormed (.maskBit 34 0 0) = false ∧
    Upset.wellFormed (.maskBit 0 1024 0) = false ∧ Upset.wellFormed (.maskBit 0 0 256) = false := by decide
theorem test_wf_upset_row : Upset.wellFormed (.rowBit 33 15 1151 174) = true ∧ Upset.wellFormed (.rowBit 34 0 0 0) = false ∧
    Upset.wellFormed (.rowBit 0 16 0 0) = false ∧ Upset.wellFormed (.rowBit 0 0 1152 0) = false ∧
    Upset.wellFormed (.rowBit 0 0 0 175) = false := by decide
theorem test_wf_upset_scale : Upset.wellFormed (.scaleBit 33 2047 23) = true ∧ Upset.wellFormed (.scaleBit 34 0 0) = false ∧
    Upset.wellFormed (.scaleBit 0 2048 0) = false ∧ Upset.wellFormed (.scaleBit 0 0 24) = false := by decide
theorem test_wf_upset_others : Upset.wellFormed (.featureBuffer 33 1 271 64) = true ∧ Upset.wellFormed (.featureBuffer 34 0 0 0) = false ∧
    Upset.wellFormed (.featureBuffer 0 2 0 0) = false ∧ Upset.wellFormed (.featureBuffer 0 0 272 0) = false ∧ Upset.wellFormed (.featureBuffer 0 0 0 65) = false ∧ Upset.wellFormed (.tallyBit 262144 0) = false ∧
    Upset.wellFormed (.tallyBit 0 72) = false ∧ Upset.wellFormed (.headBit 8192) = false ∧ Upset.wellFormed (.blockBit 1686) = false ∧
    Upset.wellFormed (.indexBit 131072) = false ∧ Upset.wellFormed (.residue 128 31 255) = true ∧ Upset.wellFormed (.residue 6 0 0) = false ∧
    Upset.wellFormed (.residue 5 32 0) = false ∧ Upset.wellFormed (.residue 5 0 256) = false := by decide

/-- An upset that names no bit of the die. -/
def badUpset : Upset := .tallyBit 0 72

theorem test_wf_frame_arrival : (Instr.frameArrival 1 (List.replicate 8 0)).wellFormed = true ∧
    (Instr.frameArrival 2 (List.replicate 8 0)).wellFormed = false ∧ (Instr.frameArrival 1 (List.replicate 7 0)).wellFormed = false := by decide
theorem test_wf_lanes : (Instr.decodeDone 8 0).wellFormed = false ∧ (Instr.decodeBudget 8 0).wellFormed = false ∧
    (Instr.decodeDone 7 0).wellFormed = true := by decide
theorem test_wf_entity_join : (Instr.entityJoin 4096 0 true []).wellFormed = false ∧ (Instr.entityJoin 0 0 true [badUpset]).wellFormed = false ∧
    (Instr.entityJoin 4095 0 true []).wellFormed = true := by decide
theorem test_wf_streams : (Instr.outriderFetch 4096 0 true).wellFormed = false ∧ (Instr.acceptance 4096).wellFormed = false := by decide
theorem test_wf_rings : (Instr.jobRefusal 64).wellFormed = false ∧ (Instr.sfdRingSdb 64 0).wellFormed = false ∧
    (Instr.sfdRingCdb 64 0).wellFormed = false ∧ (Instr.memoryWriteAcknowledged 64).wellFormed = false := by decide
theorem test_wf_bases : (Instr.patchBoundary 0 32).wellFormed = false ∧ (Instr.groupPlaneSwitch 32 []).wellFormed = false ∧ (Instr.groupPlaneSwitch 0 [(34, 0)]).wellFormed = false ∧
    (Instr.doubleRunSwitch 32).wellFormed = false ∧ (Instr.recordDispatch 32 true []).wellFormed = false ∧
    (Instr.recordDispatch 0 true [badUpset]).wellFormed = false := by decide
theorem test_wf_load_second_pass : (Instr.loadSecondPass 0 (some (32, 0, 0, 0))).wellFormed = false ∧
    (Instr.loadSecondPass 0 (some (0, 2, 0, 0))).wellFormed = false ∧ (Instr.loadSecondPass 0 (some (0, 0, 256, 0))).wellFormed = false ∧
    (Instr.loadSecondPass 0 (some (0, 0, 0, 64))).wellFormed = false ∧ (Instr.loadSecondPass 0 none).wellFormed = true := by decide
theorem test_wf_bridge_search : (Instr.bridgeSearch 0 32 0 []).wellFormed = false ∧ (Instr.bridgeSearch 0 0 16 []).wellFormed = false ∧
    (Instr.bridgeSearch 0 0 0 [badUpset]).wellFormed = false ∧ (Instr.bridgeSearch 0 31 15 []).wellFormed = true := by decide
theorem test_wf_column : (Instr.accumulationColumn 0 32 []).wellFormed = false ∧ (Instr.accumulationColumn 0 0 [badUpset]).wellFormed = false := by decide
theorem test_wf_chord_node : (Instr.chordNode 0 0 0 []).wellFormed = false ∧ (Instr.chordNode 0 6 0 []).wellFormed = false ∧
    (Instr.chordNode 0 1 16 []).wellFormed = false ∧ (Instr.chordNode 0 1 0 [badUpset]).wellFormed = false ∧
    (Instr.chordNode 0 5 0 []).wellFormed = true := by decide
theorem test_wf_sums : (Instr.tunerAdd 0 [badUpset]).wellFormed = false ∧ (Instr.tallyWrite 0 [badUpset]).wellFormed = false := by decide
theorem test_wf_faults : (Instr.faultRecovery [] [(34, 0)] true).wellFormed = false ∧ (Instr.faultRecovery [badUpset] [] true).wellFormed = false ∧ (Instr.curryItem 34 []).wellFormed = false ∧
    (Instr.curryItem 0 [badUpset]).wellFormed = false ∧ (Instr.tileSpared 1024).wellFormed = false := by decide
theorem test_wf_memory_read : (Instr.memoryReadReturn (2 ^ 48) (List.replicate 128 0) (List.replicate 8 0)).wellFormed = false ∧
    (Instr.memoryReadReturn 1 (List.replicate 128 0) (List.replicate 8 0)).wellFormed = false ∧
    (Instr.memoryReadReturn 0 (List.replicate 127 0) (List.replicate 8 0)).wellFormed = false ∧
    (Instr.memoryReadReturn 0 (List.replicate 128 0) (List.replicate 9 0)).wellFormed = false ∧
    (Instr.memoryReadReturn (2 ^ 48 - 128) (List.replicate 128 0) (List.replicate 8 0)).wellFormed = true := by decide +kernel
theorem test_wf_links : (Instr.linkLane 2 0 []).wellFormed = false ∧ (Instr.linkLane 0 16 []).wellFormed = false ∧
    (Instr.linkRetrainDone 2 0 true []).wellFormed = false ∧ (Instr.linkRetrainDone 0 3 true []).wellFormed = false := by decide
theorem test_wf_registers : (Instr.sensorConversion 8 0 true).wellFormed = false ∧ (Instr.registerWrite 16 0 0).wellFormed = false ∧
    (Instr.registerWrite 0 65536 0).wellFormed = false ∧ (Instr.registerWrite 0 4 0).wellFormed = false ∧
    (Instr.sfdImgExpectWrite 16 0 0).wellFormed = false ∧ (Instr.sfdImgExpectWrite 0 4 0).wellFormed = false ∧
    (Instr.drainWritesAcked 0 1025).wellFormed = false ∧ (Instr.registerWrite 15 65528 0).wellFormed = true := by decide

/-! ## States that meet the hypotheses of the statements, clause by clause -/

theorem witness_StepRunsFrontCommand : State.reset.pending = [] ∧ step { run with pending := [.ledgerDebit .core] } = exec (.ledgerDebit .core) run :=
  ⟨rfl, rfl⟩

theorem witness_FramesOfRecordsAndJobs : family (.sfdSndDb 1) = .records ∧ changes (.sfdSndDb 1) run = true ∧
    family (.sfdRingSdb 0 1) = .jobs ∧ changes (.sfdRingSdb 0 1) ringed = true ∧
    (family (.score 0) = .jobs ∧ slotsOnly (.score 0) = true ∧ Memory.wf scoring.mem = true ∧ OffSlots scoring 0x1FFFF) ∧
    (entitiesOnly (.entityUpdate 0 true) = true ∧ OffSlots run 0) ∧
    (0x80 % 128 = 0 ∧ (List.replicate 128 (0 : Byte)).length = 128 ∧ run.carried 0x80 = 0x80 ∧ Apart 0x80 128 0x7F ∧
      Apart (run.redirect 0x80) 128 0x7F ∧ run.otherCopy 0x80 = none ∧ run.regionBase 0x80 = none) := by
  refine ⟨by decide +kernel, by decide +kernel, by decide +kernel, by decide +kernel, ⟨by decide, by decide, by decide +kernel, ?_⟩,
    ⟨by decide, ?_⟩, by decide, by decide +kernel, by decide +kernel, ?_, ?_, by decide +kernel, by decide +kernel⟩ <;> first | unfold OffSlots Apart; decide +kernel | unfold Apart; decide +kernel

theorem witness_OffEntities : StoresOk run ∧ OffEntities run (2 ^ 40) ∧ OffPage run run 0x80 0x7F := by
  refine ⟨by unfold StoresOk; decide, fun b _ h => ⟨fun i hi => ?_, fun i hi => ?_⟩, fun base size h => ?_⟩
  · have e : run.pageHome run.live.entAddr run.live.entSize (b / 4096) =
      (4096 * (b / 4096), run.live.entAddr + run.live.entSize + (4096 * (b / 4096) - run.live.entAddr) / 16) := rfl
    have z : run.live.entAddr = 0 := by decide +kernel
    have n : run.live.entSize = 4358144 := by decide +kernel
    rw [e]; unfold portAddr; omega
  · have e : run.pageHome run.live.entAddr run.live.entSize (b / 4096) =
      (4096 * (b / 4096), run.live.entAddr + run.live.entSize + (4096 * (b / 4096) - run.live.entAddr) / 16) := rfl
    have z : run.live.entAddr = 0 := by decide +kernel
    have n : run.live.entSize = 4358144 := by decide +kernel
    rw [e]; unfold portAddr; simp only [z, n] at *; omega
  · have e : run.regionBase 0x80 = none := by decide
    rw [e] at h; cases h

theorem witness_FramesOfImagesAndScoring : family (.mountGo false) = .images ∧ changes (.mountGo false) run = true ∧
    family (.recordDispatch 0 false []) = .scoring ∧ changes (.recordDispatch 0 false []) scoring = true ∧
    slotsOnly (.recordDispatch 0 false []) = true ∧ Memory.wf run.mem = true ∧ OffSlots scoring 0x1FFFF := by
  refine ⟨by decide +kernel, by decide +kernel, by decide +kernel, by decide +kernel, by decide, by decide, ?_⟩
  unfold OffSlots Apart; decide +kernel

/-- An engine without rings, whose reset values a Mount applies again. -/
theorem witness_OffRings : exec .mountApply run = .next (after .mountApply run) ∧ OffRings (after .mountApply run).live 0 ∧
    OffAccepts (after .mountApply run).live (after .mountApply run).ing.streams 0 ∧ OffJournals (after .mountApply run) 0 := by
  refine ⟨rfl, fun r h => ?_, ?_, ?_⟩
  · have e : (after .mountApply run).live.ring r = ⟨0, 0, 0⟩ := by
      show (List.replicate 64 (⟨0, 0, 0⟩ : RingCfg)).getD r ⟨0, 0, 0⟩ = _
      rw [List.getD_eq_getElem?_getD, List.getElem?_replicate]; split <;> rfl
    rw [e] at h; exact absurd h (by decide)
  · intro x h
    have e : (after .mountApply run).ing.streams = [] := rfl
    rw [e] at h; cases h
  · intro second x h
    simp only [List.mem_cons, Prod.mk.injEq, List.not_mem_nil, or_false] at h
    have e : (after .mountApply run).img.live = none := rfl
    have f : (after .mountApply run).img.former = none := rfl
    rw [e, f] at h
    rcases h with ⟨_, h⟩ | ⟨_, h⟩ <;> cases h

theorem witness_FramesOfRegistersSuppliesAndBoard : family (.ledgerDebit .core) = .registers ∧ changes (.ledgerDebit .core) run = true ∧
    family .warmRequest = .supplies ∧ changes .warmRequest run = true ∧ family .enec = .board ∧ changes .enec run = true := by decide +kernel

theorem witness_StepKeepsMemoryForm : Memory.wf scoring.mem = true ∧ step { run with pending := [.enec] } = .next (after .enec run) :=
  ⟨by decide, rfl⟩

theorem witness_StepKeepsFaultLog : LogOk run.flt ∧ step { run with pending := [.avsErr true] } = .next (after (.avsErr true) run) :=
  ⟨⟨by decide, fun i e h => by simp [run, State.reset, Faults.reset] at h⟩, rfl⟩

theorem witness_StepKeepsGaits : GaitOk run.gait ∧ step { run with pending := [.gaitReached 650] } = .next (after (.gaitReached 650) run) :=
  ⟨by unfold GaitOk; decide, rfl⟩

theorem witness_StepKeepsFaultPin : PinOk run ∧ step { run with pending := [.sfdFaultAck 0] } = .next (after (.sfdFaultAck 0) run) :=
  ⟨by unfold PinOk; decide, rfl⟩

theorem witness_SaveRunsToItsEnd : saving.pwr.phase = .saving ∧ changes (.saveSealed 2700) saving = true ∧ (2699 < 2700) ∧
    State.reset.pwr.phase = .inReset ∧ (after (.powerOn 500 770 1710 3200 true) State.reset).pwr.phase ≠ .inReset := by decide +kernel

theorem witness_OnlyTheStartLeavesReset : State.reset.pwr.phase = .inReset ∧ (after (.powerOn 500 770 1710 3200 true) State.reset).pwr.phase ≠ .inReset ∧
    499 < 500 ∧ (after (.powerOn 500 769 1710 3200 true) State.reset).pwr.phase = .inReset ∧ run.pwr.phase = .running ∧
    (after (.sag .vddSfd 499) run).pwr.phase = .saving ∧ (after (.sag .vddSfd 500) run).pwr.phase = .running ∧ saving.pwr.phase ≠ .inReset ∧ saving.up = false ∧ State.reset.up = false ∧ family (.acceptance 5) = .records ∧
    family (.release 0) = .jobs ∧ family .mountApply = .images ∧ family (.tileSpared 0) = .scoring ∧ family (.sfdLedger 1) = .registers := by
  decide +kernel

/-- A target whose register index stands at n. -/
def indexed (n : Nat) (s : State) : State := { s with tele := { s.tele with index := n } }

theorem witness_TelemetryReads : run.targetAt 0x5C = true ∧ run.targetAt 0x5D = false ∧ State.reset.targetAt 0x5C = false ∧
    1 < ([0, 0] : List Byte).length ∧ run.pwr.phase ≠ .inReset ∧ (indexed 0x10 run).targetAt 0x5C = true ∧
    ((indexed 0x10 run).tele.index, 0x018) ∈ [(0x0F, 0x3808), (0x10, 0x018)] ∧
    0x10 < (indexed 0x11 run).tele.index ∧ (indexed 0x11 run).targetAt 0x5C = true := by decide

theorem witness_BusCommandCodes : run.targetUp = true ∧ Instr.setdasa 8 ∈ [Instr.entdaa 8, .setdasa 8] ∧
    (Instr.getmrl, 4) ∈ [(Instr.getpid, 0), (.getbcr, 1), (.getdcr, 2), (.getstatus, 3), (.getmrl, 4)] ∧ State.reset.targetUp = false := by decide

theorem witness_TapInstructions : run.tap.selected ≠ 3 ∧ ({ run with tap := { run.tap with selected := 3 } } : State).tap.selected = 3 ∧
    (Instr.bypass, { run.tap with selected := 0, out := 0 }) ∈ [(Instr.bypass, { run.tap with selected := 0, out := 0 })] ∧
    run.pwr.phase ≠ .inReset ∧ State.reset.pwr.phase = .inReset := by decide

theorem witness_StepKeepsShape : ShapeOk run ∧ step { run with pending := [.engineReset] } = .next (after .engineReset run) :=
  ⟨by unfold ShapeOk; decide, rfl⟩

/-- CAP is 65,535 µJ after reset: the grant that reaches it, and the first beyond. -/
theorem witness_LedgerGrantAndDebit : run.up = true ∧
    (run.led.balance + 1000 * (((65535 : Word).toNat % 2 ^ 32 : Nat) : Int) = 1000 * (run.live.cap : Int)) ∧
    (1000 * (run.live.cap : Int) < run.led.balance + 1000 * (((65536 : Word).toNat % 2 ^ 32 : Nat) : Int)) := by decide

/-- The ledger policy with watermarks of 1, 2 and 3 µJ, no hysteresis and MAX Gallop. -/
def policyOne (g : Nat) (nj : Int) : State :=
  { run with
    live := { run.live with gait := 0x31, gaitWm := 0x0000000300020001 }
    gait := { run.gait with ledgerGait := g }
    led := { run.led with balance := nj, derivedAt := -5000 } }

theorem witness_LedgerTarget : (policyOne 2 2001).up = true ∧ (policyOne 2 2001).live.policy = 1 ∧
    (1000 ≤ ((policyOne 2 2001).credit - 1 - (policyOne 2 2001).led.derivedAt).natAbs) ∧
    (after (.ledgerDebit .core) (policyOne 2 1999)).credit = 1998 ∧ (after (.ledgerDebit .core) (policyOne 2 1999)).gait.ledgerGait = 1 ∧
    (after (.ledgerDebit .core) (policyOne 1 3001)).gait.ledgerGait = 3 ∧ (after (.sfdLedger 1) (policyOne 1 1001)).gait.ledgerGait = 2 := by
  decide +kernel

/-- A change to Trot under way. -/
def changing (n : Nat) : State :=
  { run with gait := { run.gait with requested := 1, moving := true, vdone := true, attempts := n } }

theorem witness_GaitChanges : (changing 2).up = true ∧ (changing 2).gait.moving = true ∧ (changing 2).gait.attempts < 3 ∧
    (changing 2).gait.vdone = true ∧ (changing 2).gait.written = false ∧ (after (.avsPoll true true true) (changing 2)).gait.written = true ∧ 550 + 100 * (changing 2).gait.requested ≤ 635 + 15 ∧ 665 ≤ 550 + 100 * (changing 2).gait.requested + 15 ∧
    634 + 15 < 550 + 100 * (changing 2).gait.requested ∧ 550 + 100 * (changing 2).gait.requested + 15 < 666 ∧
    (changing 3).gait.attempts = 3 ∧ (after (.avsErr true) (changing 3)).gait.avsErr = true ∧
    (after (.avsErr true) (changing 3)).gait.requested ≠ (after (.avsErr true) (changing 3)).effectiveTarget ∧
    (0x200 : Word).getLsbD 9 = true ∧ run.gait.avsErr = false := by decide +kernel

/-- Some sensors at a code. -/
def sensed (n code : Nat) : State :=
  { run with gait := { run.gait with sensors := List.replicate n ⟨code, code, false, true⟩ ++ List.replicate (8 - n) ⟨0, 0, false, false⟩ } }

/-- 95 °C is code 270, and 3 °C are 6 codes. -/
theorem witness_ThermalCaps : (sensed 4 270).up = true ∧ (sensed 4 270).gait.sensors.length = 8 ∧
    (after (.sensorConversion 7 270 true) (sensed 4 200)).gait.thermal = 1 ∧ (after (.sensorConversion 7 269 true) (sensed 4 200)).gait.thermal = 0 ∧
    ((sensed 3 200).gait.sensors.filter (fun x => x.converted && !x.bad)).length < 4 ∧
    4 ≤ ((sensed 4 200).gait.sensors.filter (fun x => x.converted && !x.bad)).length := by decide +kernel

/-- A Mount in progress before its apply point. -/
def freezing : State := { run with mnt := { run.mnt with active := some .register } }

theorem witness_StagedWrites : run.up = true ∧ isStaged 0x440 = true ∧ isStaged 0x520 = true ∧ isStaged 0x1FD0 = true ∧ isStaged 0x5FF8 = true ∧
    ShapeOk run ∧ run.mnt.freezing = false ∧ freezing.mnt.freezing = true ∧
    changes (.registerWrite 0 0x440 1) run = true ∧ changes (.registerWrite 0 0x440 1) freezing = true := by
  refine ⟨by decide, by decide, by decide, by decide, by decide, by unfold ShapeOk; decide, by decide, by decide, by decide +kernel, by decide +kernel⟩

theorem witness_ImmediateWrites : run.up = true ∧ (3 : Word).getLsbD 0 = true ∧ (2 : Word).getLsbD 0 = false ∧ (2 : Word).getLsbD 1 = true ∧
    (0x4441 % 8 ≠ 0) ∧ (isStaged 0x3810 = false ∧ ¬(0x840 ≤ 0x3810 ∧ 0x3810 < 0x860) ∧ ¬(0x1000 ≤ 0x3810 ∧ 0x3810 < 0x2000) ∧
      0x3810 ∉ [0x500, 0x700, 0x2000, 0x3418, 0x6000, 0x6040, 0x6200, 0x6080, 0x6280, 0x530, 0x2050, 0x3000, 0x3030, 0x3410, 0x800]) ∧
    changes .engineReset run = true ∧ State.reset.pwr.phase = .inReset := by decide +kernel

theorem witness_ImageExpectWrites : run.up = true ∧ 3 < 4 ∧ (0 ≠ 1) ∧ freezing.mnt.freezing = true ∧ run.mnt.freezing = false := by decide

theorem witness_StepKeepsStores : StoresOk run ∧ step { run with pending := [.sfdDbgTally] } = .next (after .sfdDbgTally run) :=
  ⟨by unfold StoresOk; decide, rfl⟩

/-- Ring 0 with some indices. -/
def withRing (x : Ring) (s : State) : State := { s with rings := x :: s.rings.tail }

/-- Ring 0 has 4 of its 16 descriptors submitted: a TAIL of 17 fills it. -/
def tailed (halt : Nat) : State := withRing { Ring.reset with subHead := 1, subTail := 5, halt := halt } ringed

theorem witness_SubmissionDoorbell : (tailed 0).up = true ∧ 0 < (tailed 0).rings.length ∧ (tailed 0).ringOn 0 = true ∧
    ((5 : Word32) - ((tailed 2).ring 0).subTail).toNat = 0 ∧ ((tailed 2).ring 0).halt ≠ 0 ∧
    (((17 : Word32) - ((tailed 0).ring 0).subTail).toNat ≠ 0 ∧
      ((17 : Word32) - ((tailed 0).ring 0).subTail).toNat + (((tailed 0).ring 0).subTail - ((tailed 0).ring 0).subHead).toNat =
        2 ^ ((tailed 0).live.ring 0).sSize) ∧
    2 ^ ((tailed 0).live.ring 0).sSize <
      ((18 : Word32) - ((tailed 0).ring 0).subTail).toNat + (((tailed 0).ring 0).subTail - ((tailed 0).ring 0).subHead).toNat ∧
    run.ringOn 0 = false := by decide +kernel

theorem witness_CompletionDoorbell : ringed.up = true ∧ 0 < ringed.rings.length ∧ ringed.ringOn 0 = true ∧ run.ringOn 0 = false ∧
    changes (.memoryWriteAcknowledged 0) (withRing { Ring.reset with armed := true, announce := true, unacked := [(0, 0x20000)] } ringed) = true := by
  decide +kernel

/-- Ring 0 with one descriptor, of the given bytes. -/
def queued (m : List Host.Cell) : State := { withRing { Ring.reset with subTail := 1, tails := [(1, 0)] } ringed with mem := m }

/-- A FENCE descriptor. -/
def fenceDesc : List Host.Cell := [(0x10000, 0x19)]

/-- A SCORE descriptor of one record of stream 5 for model 0. -/
def scoreDesc : List Host.Cell := [(0x10000, 0x11), (0x1000C, 5), (0x10014, 1)]

/-- Both link modules are down. -/
def unlinked (s : State) : State := { s with link := [LinkModule.reset, LinkModule.reset] }

theorem witness_JobDispatch : (queued fenceDesc).memUp = true ∧ (queued fenceDesc).rings.length = 64 ∧
    (queued fenceDesc).haltBad.reinChoice = some 0 ∧ (withImage (queued scoreDesc)).haltBad.reinChoice = some 0 ∧
    (queued fenceDesc).reinChoice = some 0 ∧ run.memUp = true ∧ run.haltBad.reinChoice = none ∧ (unlinked run).memUp = false := by decide +kernel

/-- A descriptor of no opcode. -/
def badDesc : List Host.Cell := [(0x10000, 0x10)]

/-- The same with no free completion slot. -/
def fullRing : State := withRing { Ring.reset with subTail := 1, cmpTail := 64 } (queued badDesc)

theorem witness_JobRefusal : (queued badDesc).up = true ∧ 0 < (queued badDesc).rings.length ∧ Memory.wf (queued badDesc).mem = true ∧
    (queued badDesc).headDesc 0 = some 0x10 ∧ (queued badDesc).headState 0 = .refused 0x101 ∧
    (fullRing.headDesc 0 = some 0x10 ∧ fullRing.gateCauses 0 0x10 = [] ∧ (fullRing.jobCheck 0 0x10).isSome = true ∧
      fullRing.freeSlots 0 = 0) := by decide +kernel

/-- A fence, the second job. -/
def fence1 : Job := { jobOf 9 with id := 1, begun := true }

/-- A fence behind a job of its ring. -/
def fenced (written : Bool) : State :=
  { queued fenceDesc with jobs := { run.jobs with jobs := [{ jobOf 10 with written := written }, fence1], nextId := 2 } }

theorem witness_Fences : (fenced true).up = true ∧ (fenced true).openJob 1 9 = some fence1 ∧ Memory.wf (fenced true).mem = true ∧
    fence1.begun = true ∧
    (∀ x ∈ (fenced true).jobs.jobs, x.id < fence1.id → x.ring = fence1.ring ∨ descGlobal fence1.desc = true → x.written = true) ∧
    ((fenced false).openJob 1 9 = some fence1 ∧ { jobOf 10 with written := false } ∈ (fenced false).jobs.jobs ∧
      (jobOf 10).id < fence1.id ∧ (jobOf 10).ring = fence1.ring) ∧
    (fence1 ∈ (fenced true).jobs.jobs ∧ fence1.op = 9 ∧ fence1.written = false ∧ (fenced true).headDesc fence1.ring = some 0x19) := by
  decide +kernel

/-- Stream 5 with three accepted records. -/
def released : State :=
  { ringed with ing := { ringed.ing with streams := [(5, { Stream.reset with started := true, next := 3, accept := 3 })] } }

/-- RELEASE of stream 5 up to a cursor. -/
def relDesc (c : Nat) : BitVec 512 := BitVec.ofNat 512 (0xA + 5 * 2 ^ 64 + c * 2 ^ 128)

/-- A job of it. -/
def relJob (c : Nat) : Job := { jobOf 10 with desc := relDesc c }

theorem witness_ReleaseRequests : released.up = true ∧ (released.stream 5).started = true ∧
    (((0 : Word32) - (released.stream 5).release).toNat = 0) ∧ (2 ^ 31 ≤ ((0x80000000 : Word32) - (released.stream 5).release).toNat) ∧
    (((released.stream 5).accept - (released.stream 5).release).toNat = ((3 : Word32) - (released.stream 5).release).toNat) ∧
    (((released.stream 5).accept - (released.stream 5).release).toNat < ((4 : Word32) - (released.stream 5).release).toNat) ∧
    changes (.sfdRelease 0x500000003) released = true ∧ stays (.sfdRelease 0x500000004) released = true ∧
    descOk (relDesc 3) = true ∧ descOp (relDesc 3) = 10 ∧ released.jobCheck 0 (relDesc 4) = some 0x109 ∧ released.jobCheck 0 (relDesc 3) = none ∧
    (Memory.wf (withJob (relJob 3) released).mem = true ∧ (withJob (relJob 3) released).openJob 0 10 = some (relJob 3) ∧
      (withJob (relJob 4) released).openJob 0 10 = some (relJob 4)) := by decide +kernel

/-- A scoring job about to offer its record 0, with a head in the acceptance buffer. -/
def offering (j : Job) (hs : List Head) : State :=
  { withJob j (withGroup group0 (withImage ringed)) with acc := { run.acc with heads := hs } }

/-- The same, with record 0 released. -/
def passed (s : State) : State := { s with ing := { s.ing with streams := [(5, { Stream.reset with started := true, next := 3, accept := 3, release := 1 })] } }

/-- The head of record 0 with n job places, of jobs 0 to n − 1. -/
def named (n : Nat) : Head := head0 ((List.range n).map (fun i => JobPlace.fresh i 0))

/-- Job 8, with seven or eight jobs before it that name record 0 of stream 5. -/
def eighth (n op : Nat) : State :=
  let js := (List.range n).map (fun i => { jobOf 1 with id := i, next := 1 })
  let s := offering (jobOf op) [named n]
  { s with jobs := { s.jobs with jobs := js ++ [{ jobOf op with id := 8 }], nextId := 9 } }

theorem witness_ScoreOffers : (Instr.score 0, 1) ∈ [(Instr.score 0, 1), (.scoreTremolo 0, 2)] ∧
    (Instr.scoreTremolo 0, 2) ∈ [(Instr.score 0, 1), (.scoreTremolo 0, 2)] ∧
    (let j := { jobOf 2 with routeGone := some 0 }
     let s := offering j []
     s.up = true ∧ s.openJob 0 2 = some j ∧ s.pwr.replayDue = false ∧ j.next < j.n ∧ s.releasedOf j ≤ j.next ∧ j.routed ≤ j.next) ∧
    (let j := jobOf 2
     let s := offering j []
     s.openJob 0 2 = some j ∧ (passed s).openJob 0 2 = some j ∧ j.next < (passed s).releasedOf j ∧ s.releasedOf j ≤ j.next ∧ j.next < j.routed ∧ s.head j.stream (j.seqOf j.next) = none) ∧
    (let j := { jobOf 1 with id := 8 }
     (eighth 8 1).openJob 8 1 = some j ∧ (eighth 8 1).releasedOf j ≤ j.next ∧ (eighth 7 1).releasedOf j ≤ j.next ∧ j.next < j.routed ∧ (eighth 8 1).head 5 0 = some (named 8) ∧ (eighth 8 1).namesBefore j (named 8) = 8 ∧
     (eighth 7 1).openJob 8 1 = some j ∧ (eighth 7 1).head 5 0 = some (named 7) ∧ (eighth 7 1).namesBefore j (named 7) = 7 ∧
     (eighth 7 1).destination j (named 7) = .inr group0) ∧
    (let j := jobOf 1
     let h := { head0 [] with void := 1, block := none }
     let s := offering j [h]
     s.openJob 0 1 = some j ∧ s.releasedOf j ≤ j.next ∧ s.head 5 0 = some h ∧ s.namesBefore j h < 8 ∧ s.destination j h = .inl 1) := by decide +kernel

/-- A SCORE job of n records whose record 0 may commit. -/
def committing (n : Nat) (special : Sparse Nat) (settled : Bool) : State :=
  withHead (head0 [{ place0 with settled := settled }]) (withJob { jobOf 1 with n := n, special := special } ringed)

/-- The job with 63 records fills the completion ring of 64 slots; one of one record writes its job entry with the first commit. -/
theorem witness_RecordCommit : ∀ n ∈ [1, 63], (committing n [] true).memUp = true ∧ Memory.wf (committing n [] true).mem = true ∧
    (let j := { jobOf 1 with n := n }
     (committing n [] true).job 0 = some j ∧ j.scoring = true ∧ j.written = false ∧ j.committed < j.n ∧
     ((committing n [] true).live.ring 0).en = true ∧ j.n + 1 ≤ 2 ^ ((committing n [] true).live.ring 0).cSize ∧
     (committing n [] true).rewritten j 0 = true ∧ sget 0 j.special 0 = 0 ∧ (committing n [] true).releasedOf j ≤ 0 ∧
     0 < (passed (committing n [] true)).releasedOf j ∧ (passed (committing n [] true)).rewritten j 0 = true ∧ (passed (committing n [] true)).job 0 = some j ∧
     (committing n [] true).placeAt j 0 = some (head0 [{ place0 with settled := true }], { place0 with settled := true })) ∧
    (let j := { jobOf 1 with n := n, special := [(0, 0xB)] }
     (committing n [(0, 0xB)] true).job 0 = some j ∧ (committing n [(0, 0xB)] true).rewritten j 0 = true ∧ sget 0 j.special 0 = 0xB) ∧
    (let j := { jobOf 1 with n := n }
     (committing n [] false).placeAt j 0 = some (head0 [place0], place0) ∧ (committing n [] false).rewritten j 0 = true ∧
       place0.settled = false) := by
  decide +kernel

/-- A DRAIN_TILE of the last tile to 0x30000, with ZERO_AFTER or without. -/
def drainJob (zero begun : Bool) : Job :=
  { jobOf 8 with
    desc := BitVec.ofNat 512 (0x8 + 1023 * 2 ^ 64 + (if zero then 2 ^ 74 else 0) + 1 * 2 ^ 80 + 0x30000 * 2 ^ 128)
    tile := 1023
    tiles := 1
    begun := begun
    owns := true }

/-- The last two words of the Tally with one and two bits wrong. -/
def drained (j : Job) : State := withJob j { ringed with
  tally := { ringed.tally with words := [(262142, ⟨7, 1⟩), (262143, ⟨9, 3⟩)], tiles := [(1023, { Tile.reset with owner := some 0 })] } }

theorem witness_DrainTiles :
    (let j := drainJob true false
     (unlinked (drained j)).memUp = false ∧ (drained j).memUp = true ∧ Memory.wf (drained j).mem = true ∧ (drained j).openJob 0 8 = some j ∧ j.begun = false ∧ j.tile + j.tiles = 1024 ∧
     ∀ w ∈ List.range' (256 * j.tile) (256 * j.tiles), ones 72 ((drained j).tallyWord w).flips.toNat ≤ 2) ∧
    (∀ z ∈ [true, false],
     let j := drainJob z true
     StoresOk (drained j) ∧ (drained j).openJob 0 8 = some j ∧ j.begun = true ∧ j.acked < min 1 j.tiles ∧ descZeroAfter j.desc = z) := by
  refine ⟨by decide +kernel, ?_⟩
  intro z h
  cases z
  · exact ⟨by unfold StoresOk; decide +kernel, by decide +kernel⟩
  · exact ⟨by unfold StoresOk; decide +kernel, by decide +kernel⟩

/-- A module that is up ×16. -/
def upModule : LinkModule := { LinkModule.reset with state := 1, fast := true }

/-- An engine with both modules up, one stream, and empty buffers. -/
def linked : State := withImage { run with link := [upModule, upModule] }

/-- The same, where stream 5 takes RSP1 frames. -/
def linked1 : State :=
  { linked with img := { linked.img with live := some ⟨{ image0 with tables := { image0.tables with routes := [{ route5 with format := 1 }] } }, []⟩ } }

/-- The same, with a Soundboard stream. -/
def sounding1 : State :=
  { linked with img := { linked.img with live := some ⟨{ image0 with tables := { image0.tables with routes := [{ route5 with format := 2 }] } }, []⟩ } }

/-- A frame behind its tag. -/
def tagged (f : List Byte) : List Byte := leBytes 8 (f.length + 65536) ++ f

/-- A frame with its CRC, from its header and payload. -/
def sealed (b : List Byte) : List Byte := b ++ leBytes 4 (crc32c b)

/-- The RSP2 header (R167) of a stream and SEQ, dense codes, with a number of narrow features. -/
def header2 (gen stream seq n : Nat) : List Byte :=
  let b := leBytes 22 (gen + stream * 2 ^ 8 + (n / 2) * 2 ^ 21 + seq * 2 ^ 32 + 77 * 2 ^ 64 + n * 2 ^ 128)
  b ++ leBytes 2 (crc32c b)

/-- The RSP1 header (R168). -/
def header1 (stream seq n : Nat) : List Byte :=
  leBytes 16 (1 + stream * 2 ^ 8 + (n / 2) * 2 ^ 18 + seq * 2 ^ 32 + 77 * 2 ^ 64 + n * 2 ^ 96)

/-- Two narrow codes. -/
def codes2 : List Byte := leBytes 2 513 ++ leBytes 2 1027

def good2 (stream seq : Nat) : List Byte := sealed (header2 2 stream seq 2 ++ codes2)
def good1 (stream seq : Nat) : List Byte := sealed (header1 stream seq 2 ++ codes2)
/-- The same frames with a byte of the payload wrong. -/
def bad1 (stream seq : Nat) : List Byte := (good1 stream seq).set 16 255
/-- NCOUNT 1 in a frame as long as for two codes: check 5 passes. PLEN 0: it does not. -/
def short2 (stream seq : Nat) : List Byte := sealed (header2 2 stream seq 0 ++ codes2)

/-- A record of a full window. -/
def filler : WindowRecord where
  stream := 6
  seq := 0
  key := 0
  void := 0
  frame := []
  sndFirst := 0
  sndCodes := []
  order := 0
  tgen := 0
  budget := 65536
  phase := .inLane
  work := 5
  narrow := []
  wide := []
  fetched := false
  block := none

/-- A stream's next-expected cursor. -/
def expecting (sq : Word32) (s : State) : State :=
  { s with ing := { s.ing with streams := [(5, { Stream.reset with started := true, next := sq, accept := sq })] } }

/-- A reorder window of n records. -/
def filled (n : Nat) (s : State) : State := { s with ing := { s.ing with window := List.replicate n filler } }

theorem filled_length (n : Nat) (s : State) : (filled n s).ing.window.length = n := List.length_replicate

theorem filled_quiet (n : Nat) (s : State) (hr : s.ing.rx = []) (hp : s.ing.pairs = []) : Quiet (filled n s) := by
  refine ⟨hr, ?_⟩
  have hw : ∀ k : Nat, (List.replicate k filler).filterMap (fun w =>
      if w.phase = .needLane then some (⟨w.stream, w.seq, false, w.order, w.work, w.budget⟩ : Lane) else none) = [] := by
    intro k
    induction k with
    | zero => rfl
    | succ k ih => rw [List.replicate_succ, List.filterMap_cons]; exact ih
  simp only [State.laneWaiters, filled, hw, hp, List.flatMap_nil, List.append_nil]

theorem witness_FrameChecks : linked.up = true ∧ 1 < linked.link.length ∧ (linked.link.getD 1 LinkModule.reset).open = true ∧ Quiet linked ∧
    tagLength (leBytes 8 19) = none ∧ tagLength (leBytes 8 (8217 + 65536)) = none ∧ tagLength (leBytes 8 (20 + 65536)) = some 20 ∧
    tagLength (leBytes 8 (8216 + 65536)) = some 8216 ∧
    (∀ f ∈ [good2 5 3, good1 5 3, bad1 5 3, short2 5 3], tagLength (tagged f) = some f.length ∧ (tagged f).drop 8 = f) ∧
    (frameGen (sealed (header2 3 5 3 2 ++ codes2)) = 3) ∧ hchkOk ((good2 5 3).set 1 0) = false ∧
    (frameGen (good2 9 3) = 2 ∧ hchkOk (good2 9 3) = true ∧ linked.tables.route (frameHeader (good2 9 3)).stream = none) ∧
    (frameGen (bad1 5 3) = 1 ∧ frameCrcOk (bad1 5 3) = false ∧ linked.tables.route 5 = some route5 ∧ route5.format = 0) ∧
    (linked1.tables.route (frameHeader (bad1 5 3)).stream = some { route5 with format := 1 } ∧ frameCrcOk (good1 5 3) = true) ∧
    (sounding1.tables.route 5 = some { route5 with format := 2 } ∧ frameGen (good2 5 3) = 2) := by
  unfold Quiet
  decide +kernel

/-- In place, out of place, with a full window, with a header that keeps check 5 and with one that does not. -/
theorem witness_FrameChecks_places : Quiet (expecting 3 linked) ∧
    (let h := frameHeader (good2 5 3)
     h.stream = 5 ∧ h.seq = 3 ∧ h.key = 77 ∧ headerOk h route5 (good2 5 3).length = true ∧
     ((expecting 3 linked).stream 5).next = h.seq ∧ ((expecting 4 linked).stream 5).next ≠ h.seq ∧ (expecting 3 linked).window 5 3 = none ∧
     headerOk (frameHeader (short2 5 3)) route5 (short2 5 3).length = false ∧ (frameHeader (short2 5 3)).seq = 3) ∧
    Quiet (filled 8192 (expecting 3 linked)) ∧ 8192 ≤ (filled 8192 (expecting 3 linked)).ing.window.length :=
  ⟨by unfold Quiet; decide, by decide +kernel, filled_quiet _ _ rfl rfl, Nat.le_of_eq (filled_length _ _).symm⟩

/-- A frame of a block-scaled pair, with two codes. -/
def pairFrame (enc stream seq block key : Nat) (sync : Bool) : List Byte :=
  let b := leBytes 22 (2 + enc * 2 ^ 4 + stream * 2 ^ 8 + (if sync then 2 ^ 20 else 0) + 1 * 2 ^ 21 + seq * 2 ^ 32 + key * 2 ^ 64 + 2 * 2 ^ 128 +
    block * 2 ^ 160)
  sealed (b ++ leBytes 2 (crc32c b) ++ codes2)

/-- Stream 5 with block scales from stream 6, at a sequence number each, and the pair's state. -/
def paired (data scale : Word32) (p : Pair) : State :=
  let routes := [{ route5 with pair := 1, partner := 6 }, { route5 with stream := 6, pair := 2, partner := 5 }]
  { linked with
    img := { linked.img with live := some ⟨{ image0 with tables := { image0.tables with routes := routes } }, []⟩ }
    ing := { linked.ing with
      streams := [(5, { Stream.reset with started := true, next := data, accept := data }), (6, { Stream.reset with started := true, next := scale, accept := scale })]
      pairs := [(5, p)] } }

/-- A pair that is Unseated or not, with a holding. -/
def holds (unseated : Bool) (hs : List HeldScale) : Pair := ⟨unseated, [], hs, 0, 0, false, false⟩

/-- A decoded scale frame of block 7. -/
def scale7 (pairedTo : Option Nat) : HeldScale := ⟨1, 7, 3, pairedTo, 64, []⟩

/-- The data stream of a pair: a SYNC frame within a block, a frame without SYNC for an Unseated pair, the first record of a block without a
scale frame, with one of another block and with its own, and a later record of a paired block. -/
theorem witness_FrameChecks_pairs :
    (let s := paired 64 1 (holds false [])
     let h := frameHeader (pairFrame 3 5 64 7 77 false)
     Quiet s ∧ s.tables.route 5 = some { route5 with pair := 1, partner := 6 } ∧ h.stream = 5 ∧ h.block = 7 ∧ h.seq = 64 ∧ h.sync = false ∧
     headerOk h { route5 with pair := 1, partner := 6 } 32 = true ∧ s.window 5 64 = none ∧
     (s.pair 5).holding.find? (fun f => f.pairedTo.isNone) = none) ∧
    (let h := frameHeader (pairFrame 3 5 65 7 77 true)
     h.sync = true ∧ h.seq.toNat % 64 ≠ 0) ∧
    ((paired 64 1 (holds true [])).pair 5).unseated = true ∧
    (scale7 none ∈ ((paired 64 1 (holds false [scale7 none])).pair 5).holding ∧
      ((paired 64 1 (holds false [scale7 none])).pair 5).holding.find? (fun f => f.pairedTo.isNone) = some (scale7 none) ∧
      (scale7 none).block ≠ (frameHeader (pairFrame 3 5 64 8 77 false)).block ∧ (scale7 none).block = 7) ∧
    (((paired 65 1 (holds false [scale7 (some 1)])).pair 5).holding.find? (fun f => f.pairedTo == some 1) = some (scale7 (some 1)) ∧
      (frameHeader (pairFrame 3 5 65 7 77 false)).seq.toNat / 64 = 1 ∧ (frameHeader (pairFrame 3 5 65 7 77 false)).seq.toNat % 64 ≠ 0) := by
  unfold Quiet
  decide +kernel

/-- The scale stream: a frame of a header that check 5 passes and one that it does not, a holding with room and a full one. -/
theorem witness_FrameChecks_scales :
    (let s := paired 64 2 (holds false [scale7 none])
     let h := frameHeader (pairFrame 4 6 2 8 0 false)
     Quiet s ∧ s.tables.route 6 = some { route5 with stream := 6, pair := 2, partner := 5 } ∧ h.stream = 6 ∧ h.seq = (s.stream 6).next ∧
     headerOk h { route5 with stream := 6, pair := 2, partner := 5 } 32 = true ∧
     headerOk (frameHeader (pairFrame 4 6 2 8 1 false)) { route5 with stream := 6, pair := 2, partner := 5 } 32 = false ∧
     (s.pair 5).holding.length + (s.pair 5).coming.length < 2) ∧
    2 ≤ ((paired 64 2 (holds false [scale7 none, scale7 (some 0)])).pair 5).holding.length ∧
    ((paired 64 2 (holds true [])).pair 5).unseated = true := by
  unfold Quiet
  decide +kernel

/-- Lane 7 holds record 3 of stream 5, whose frame is f. -/
def decoding (f : List Byte) (snd : List Code) : State :=
  let s := expecting 4 linked
  { s with ing := { s.ing with
    window := [{ filler with stream := 5, seq := 3, key := 77, frame := f, sndFirst := 1000, sndCodes := snd }]
    lanes := List.replicate 7 none ++ [some ⟨5, 3, false, 0, 5, 65536⟩] } }

/-- The record of decoding. -/
def decoded (f : List Byte) (snd : List Code) : WindowRecord :=
  { filler with stream := 5, seq := 3, key := 77, frame := f, sndFirst := 1000, sndCodes := snd }

/-- Two codes and a WCOUNT that the payload does not hold. -/
def broken2 : List Byte :=
  let b := leBytes 22 (2 + 5 * 2 ^ 8 + 1 * 2 ^ 21 + 3 * 2 ^ 32 + 77 * 2 ^ 64 + 2 * 2 ^ 128 + 1 * 2 ^ 139)
  sealed (b ++ leBytes 2 (crc32c b) ++ codes2)

/-- The record of decoding with a block's scale frame of another block. -/
def wrongBlock : WindowRecord := { decoded (good2 5 3) [] with block := some ⟨0, 9, []⟩ }

theorem witness_DecodeEnds : (∀ f ∈ [good2 5 3, (good2 5 3).set 24 0, broken2, []],
      (decoding f [1, 2]).up = true ∧ Quiet (decoding f [1, 2]) ∧
      (decoding f [1, 2]).ing.lanes[7]? = some (some ⟨5, 3, false, 0, 5, 65536⟩) ∧ (decoding f [1, 2]).window 5 3 = some (decoded f [1, 2]) ∧
      (decoded f [1, 2]).void = 0) ∧
    (5 + 65531 ≤ 65536 ∧ 65536 < 5 + 65532) ∧
    frameCrcOk (good2 5 3) = true ∧ frameCrcOk ((good2 5 3).set 24 0) = false ∧ frameCrcOk broken2 = true ∧
    ((decoding (good2 5 3) []).tablesAt 0).route 5 = some route5 ∧ route5.pair = 0 ∧
    (decoding (good2 5 3) []).decodeRecord (decoded (good2 5 3) []) = (0, ⟨[(0, 513), (1, 1027)], []⟩) ∧
    (decoding broken2 []).decodeRecord (decoded broken2 []) = (2, ⟨[], []⟩) ∧
    (9 ≠ (frameHeader wrongBlock.frame).block ∧ (decoding (good2 5 3) []).decodeRecord wrongBlock = (2, ⟨[], []⟩)) ∧
    { decoded [] [] with void := 4 }.void ≠ 0 := by
  unfold Quiet
  decide +kernel

/-- Record 3 of stream 5 is next and ready; u records have been accepted since the cursor was last written. -/
def accepting (u void : Nat) (cursors : Bool) (more : List WindowRecord) : State :=
  let s := linked
  let x : Stream := { Stream.reset with started := true, next := 5, accept := 3, unwritten := u }
  { s with
    live := { s.live with accBase := if cursors then 0x7001 else 0x7000, holdCfg := 0x5DC }
    ing := { s.ing with streams := [(5, x)], window := { filler with stream := 5, seq := 3, key := 77, void := void, phase := .ready } :: more } }

/-- The record behind it. -/
def behind : WindowRecord := { filler with stream := 5, seq := 4, phase := .ready }

theorem witness_AcceptanceInOrder : changes (.acceptance 5) (accepting 0 0 false []) = true ∧
    (∀ s ∈ [accepting 0 0 true [], accepting 63 2 true [behind], accepting 62 0 true [behind], accepting 0 0 false []],
      s.up = true ∧ Quiet s ∧ Memory.wf s.mem = true ∧ (s.stream 5).started = true ∧ 3200 ≤ s.pwr.vholdMv ∧ (s.stream 5).accept = 3 ∧
      (s.window 5 3).any (fun w => w.phase == .ready && s.energyAllows (w.void == 0)) = true ∧ s.acc.freeHead = some 0 ∧
      s.acc.freeBlock.isSome = true) ∧
    ((accepting 63 2 true [behind]).live.accEn = true ∧ 64 ≤ ((accepting 63 2 true [behind]).stream 5).unwritten + 1) ∧
    (¬(64 ≤ ((accepting 62 0 true [behind]).stream 5).unwritten + 1) ∧ behind.stream = 5) ∧ (accepting 0 0 false []).live.accEn = false := by
  unfold Quiet
  decide +kernel

theorem witness_SoundDoorbell : run.up = true ∧ ((0x3F00000000 : Word).toNat >>> 32) % 64 = 63 ∧ 63 < run.snd.channels.length ∧
    (2 ^ 31 ≤ ((0x80000000 : Word32) - (run.snd.channel 63).write).toNat) ∧ ((0x7FFFFFFF : Word32) - (run.snd.channel 63).write).toNat < 2 ^ 31 := by
  decide +kernel

/-- Channel 0: frames of 256 samples, hop 256, one band, first feature 8, stream 5, in a ring of 512 samples at 0x40000. -/
def sounding (write : Word32) : State :=
  { linked with
    live := { linked.live with snd := ⟨0x500080101, 0xFF0001, 77, 0x0009000000040000⟩ :: List.replicate 63 ⟨0, 0, 0, 0⟩ }
    snd := { linked.snd with channels := { Channel.reset with write := write, doors := [(write, 0)] } :: List.replicate 63 Channel.reset } }

/-- A finished frame of the channel. -/
def soundFrame0 (overs : Bool) : SoundFrame := ⟨0, 5, 0, 77, 8, [1], overs⟩

def held (overs : Bool) : State := { linked with snd := { linked.snd with frame := some (soundFrame0 overs) } }

theorem witness_SoundFrames : (∀ s ∈ [sounding 256, sounding 512, sounding 513],
      s.memUp = true ∧ s.snd.frame = none ∧ s.nextSound = some 0 ∧ 0 < s.snd.channels.length) ∧
    (unlinked (sounding 256)).memUp = false ∧ (sounding 255).nextSound = none ∧
    ((sounding 256).snd.channel 0).readySince ((sounding 256).live.chan 0) = some 0 ∧ (held true).snd.frame.isSome = true ∧
    ¬(2 ^ ((sounding 512).live.chan 0).ringBits < (((sounding 512).snd.channel 0).write - ((sounding 512).snd.channel 0).sample).toNat) ∧
    2 ^ ((sounding 513).live.chan 0).ringBits < (((sounding 513).snd.channel 0).write - ((sounding 513).snd.channel 0).sample).toNat ∧
    (∀ o ∈ [true, false], (held o).snd.frame = some (soundFrame0 o) ∧ Quiet (held o) ∧ (held o).ing.window.length < 8192 ∧ (held o).window 5 0 = none) ∧
    none ∈ (held false).ing.lanes := by
  unfold Quiet
  decide +kernel

theorem witness_SoundFrames_full : 8192 ≤ (filled 8192 linked).ing.window.length := Nat.le_of_eq (filled_length _ _).symm

/-- Module 0 in a state and module 1 in another, each with a request in flight. -/
def modules (a b : Nat) (ra rb : Bool) : State :=
  { linked with link := [{ upModule with state := a, retraining := ra, requests := [0x80] }, { upModule with state := b, retraining := rb, requests := [0x1000] }] }

/-- A frame of stream 5 of which eight bytes have come behind its tag. -/
def cut8 : List Byte := (tagged (good2 5 3)).take 16

theorem witness_LinkEvents : (modules 1 1 false false).up = true ∧ Quiet (modules 1 1 false false) ∧ ((modules 1 1 false false).module 1).state ≠ 0 ∧
    (tagLength cut8 = some 32 ∧ 12 ≤ cut8.length ∧ cut8.length < 8 + (if frameGen (cut8.drop 8) = 1 then 16 else 24) ∧
      (frameHeader (cut8.drop 8)).stream = 5 ∧ (modules 1 1 false false).tables.route 5 = some route5) ∧
    (∀ s ∈ [modules 1 1 true false, modules 0 2 true false, modules 1 0 true false, modules 1 0 true true],
      s.up = true ∧ s.link.length = 2 ∧ Quiet s ∧ (s.module 0).retraining = true) ∧
    ((modules 1 0 true true).module 1).retraining = true ∧ ((modules 1 0 true false).module 1).state = 0 ∧
    ((modules 1 0 true false).module 1).retraining = false ∧ ((modules 1 1 true false).module 1).open = true ∧
    ((modules 1 0 true true).module 1).open = false := by
  unfold Quiet
  decide +kernel

/-- An entity table of 16 rows and no overflow table, and stream 5 with a map of narrow field 0 to feature 9 and wide field 0 to W3. -/
def tabled : State :=
  let map : List Code := [9] ++ List.replicate 255 0xFFFF ++ [3] ++ List.replicate 7 0xFFFF
  let tables := { image0.tables with routes := [{ route5 with emapEn := true }], maps := [map] }
  { linked with
    live := { ringed.live with entBase := 0x200000, entCfg := 0x10000010 }
    img := { linked.img with live := some ⟨{ image0 with tables := tables }, []⟩ } }

/-- Row place 2 of key 77. -/
def row77 : EntityRow := ⟨[(0, 4)], some 8 :: List.replicate 7 none⟩

/-- Key 77 in the index, at its row place, marked LOST or not. -/
def present (lost : Bool) (s : State) : State :=
  { s with ent := { s.ent with index := [(0, ⟨77, 2, lost, false⟩)], rows := [(2, row77)] } }

/-- A decoded record of stream 5 that waits for its join, and supplies W3 or not. -/
def joining (wide : List (Nat × Word32)) : WindowRecord :=
  { filler with stream := 5, seq := 3, key := 77, phase := .joining, wide := wide }

def withRecord (w : WindowRecord) (s : State) : State := { s with ing := { s.ing with window := [w] } }

/-- The third line of row place 2 is lost. -/
def lineLost (s : State) : State := { s with flt := { s.flt with lostLines := [s.live.rowAddr 2 + 256] } }

/-- Key 77 in an index entry of bad parity. -/
def parityBad : State := { tabled with ent := { tabled.ent with index := [(0, ⟨77, 2, false, true⟩)], rows := [(2, row77)] } }

/-- Key 77 in the overflow table, in the stranded store, and behind overflow buckets that are all lost. -/
def overflowed : State :=
  { tabled with
    live := { tabled.live with entCfg := 0x10800010 }
    ent := { tabled.ent with
      overflow := (List.range 2).map (fun j => (j, { Bucket.empty with entries := [(0, ⟨77, 2, false, false⟩)] })), rows := [(2, row77)] } }
def strandedKey : State := { tabled with ent := { tabled.ent with stranded := [⟨77, 2, false, false⟩], rows := [(2, row77)] } }
def bucketsLost : State := { overflowed with ent := { overflowed.ent with overflow := (List.range 2).map (fun j => (j, { Bucket.empty with lost := true })) } }

theorem witness_EntityJoins : (∀ w ∈ [joining [], joining [(3, 1)]], ∀ s ∈
      [withRecord w (present false tabled), withRecord w tabled, withRecord w (present true tabled), withRecord w (lineLost (present false tabled)),
        withRecord w { tabled with ent := { tabled.ent with cache := [⟨77, row77⟩] } }, withRecord w parityBad, withRecord w overflowed,
        withRecord w (lineLost strandedKey), withRecord w bucketsLost],
      s.memUp = true ∧ s.live.entOpen = true ∧ s.heldByBoundary 5 3 = false ∧ s.window 5 3 = some w ∧ w.phase = .joining ∧
      ((s.mapOf w).getD []).length = 264) ∧
    tabled.ent.lookup tabled.live.ovfBits 77 = .absent ∧
    (present false tabled).ent.lookup 0 77 = .found (.index 0) ⟨77, 2, false, false⟩ ∧ (present false tabled).rowReadable 2 = true ∧
    (present true tabled).ent.lookup 0 77 = .found (.index 0) ⟨77, 2, true, false⟩ ∧ (lineLost (present false tabled)).rowReadable 2 = false ∧
    (parityBad.ent.lookup 0 77 = .found (.index 0) ⟨77, 2, false, true⟩ ∧ parityBad.rowReadable 2 = true ∧ parityBad.worn (indexPart 0) = false) ∧
    (∃ j i, overflowed.ent.lookup overflowed.live.ovfBits 77 = .found (.overflow j i) ⟨77, 2, false, false⟩) ∧
    (strandedKey.ent.lookup 0 77 = .found .stranded ⟨77, 2, false, false⟩ ∧ (lineLost strandedKey).rowReadable 2 = false) ∧
    bucketsLost.ent.lookup bucketsLost.live.ovfBits 77 = .lostBucket ∧
    ((unlinked (withRecord (joining []) (present false tabled))).memUp = false ∧ (present false tabled).joinReads 77 = true) := by
  refine ⟨by decide +kernel, by decide +kernel, by decide +kernel, by decide +kernel, by decide +kernel, by decide +kernel, by decide +kernel,
    ?_, by decide +kernel, by decide +kernel, by decide +kernel⟩
  have e : overflowed.ent.lookup overflowed.live.ovfBits 77 =
    .found (.overflow (homeBucket 77 1) 0) ⟨77, 2, false, false⟩ := by decide +kernel
  exact ⟨_, _, e⟩

/-- A run-ahead fetch of a key that is present, of one that is absent, and of one whose row is cached. -/
theorem witness_EntityJoins_runAhead :
    (∀ s ∈ [withRecord { joining [] with phase := .needLane } (present false tabled), withRecord { joining [] with phase := .needLane } tabled,
        withRecord { joining [] with phase := .needLane } { tabled with ent := { tabled.ent with cache := [⟨77, row77⟩] } }],
      let w := { joining [] with phase := .needLane }
      s.memUp = true ∧ s.live.entOpen = true ∧ s.window 5 3 = some w ∧ w.fetched = false ∧ s.waitsJoin w = true ∧ s.inRunAhead w = true ∧
        s.ent.cache.length < 7680) ∧
    changes (.outriderFetch 5 3 true) (withRecord { joining [] with phase := .needLane } (present false tabled)) = true ∧
    { joining [] with fetched := true }.fetched = true := by
  decide +kernel

/-- An entity job of one entry at 0x30000. -/
def entJob (op : Nat) : Job := { jobOf op with desc := BitVec.ofNat 512 (op + 0x30000 * 2 ^ 64 + 1 * 2 ^ 128) }

/-- Its entry, of a key. -/
def updating (op key : Nat) (s : State) : State := { withJob (entJob op) s with mem := if key = 0 then [] else [(0x30000, BitVec.ofNat 8 key)] }

theorem tabled_stores (s : State) (h : s.tally = tabled.tally) (hr : s.ent.rows = [(2, row77)] ∨ s.ent.rows = [(2, row77), (5, row77)])
    (hi : s.ent.index = [(0, ⟨77, 2, false, false⟩)]) (hu : s.ent.usedRows = [2] ∨ s.ent.usedRows = [2, 5]) (hc : s.live.entRows = 16)
    (ha : s.arr = tabled.arr) (hb : s.bag = tabled.bag) : StoresOk s := by
  refine ⟨by rw [h]; decide, by rw [h]; decide, ?_, by rw [ha]; decide, by rw [hi]; decide, by rw [hi]; decide, ?_, by rw [ha]; decide, fun sv hs => ?_⟩
  · rcases hr with e | e <;> rw [e] <;> decide
  · rw [hc]; rcases hu with e | e <;> rw [e] <;> decide
  · rw [hb] at hs; cases hs

theorem tabled_entRows : tabled.live.entRows = 16 := by decide +kernel

theorem witness_EntityJobStart_stores : ∀ op k, StoresOk (updating op k (present false tabled)) :=
  fun _ _ => tabled_stores _ rfl (.inl rfl) rfl (.inl rfl) tabled_entRows rfl rfl

theorem witness_EntityJobStart : ∀ again ∈ [true, false],
    (∀ x ∈ [(Instr.entityUpdate 0 again, 3), (Instr.entityEvict 0 again, 4)],
      x ∈ [(Instr.entityUpdate 0 again, 3), (Instr.entityEvict 0 again, 4)]) ∧
    (unlinked run).memUp = false ∧
    ∀ op ∈ [3, 4],
     (let s := updating op 0 (present false tabled)
      s.memUp = true ∧ Memory.wf s.mem = true ∧ s.waitingJob 0 op = some (entJob op) ∧
        (s.checkKeys (s.entityEntries (entJob op)) again).entityRefusal (entJob op) (s.entityEntries (entJob op)) = some (0x201, 0, false)) ∧
     (∀ k ∈ [77, 78], let s := updating op k (present false tabled)
      s.waitingJob 0 op = some (entJob op) ∧ Memory.wf s.mem = true ∧
        (s.checkKeys (s.entityEntries (entJob op)) again).entityRefusal (entJob op) (s.entityEntries (entJob op)) = none ∧
        ({ s.ent with job := none } : Entities).usedRows.length + (s.entityEntries (entJob op)).length ≤ s.live.entRows + 256) := by
  intro again _
  refine ⟨fun x h => h, by decide +kernel, fun op h => ?_⟩
  simp only [List.mem_cons, List.not_mem_nil, or_false] at h
  rcases h with rfl | rfl <;> cases again <;> decide +kernel

/-- The entry of an update of a key. -/
def entry (key : Word) : UpdateEntry := ⟨key, 0, false, false, 0, 0, row77⟩

/-- An entity job whose rows are written: it waits for record 3 of stream 5 to be looked up, or for nothing. -/
def boundary (evict bound : Bool) (key : Word) : State :=
  let d : BitVec 512 := BitVec.ofNat 512 (3 + (if bound then 2 ^ 137 + 5 * 2 ^ 144 + 4 * 2 ^ 160 else 0))
  let s := withRecord (joining []) (withJob { jobOf (if evict then 4 else 3) with desc := d, begun := true } (present false tabled))
  { s with ent := { s.ent with
    job := some ⟨0, evict, [entry key], if evict then [] else [5], 1⟩
    rows := if evict then s.ent.rows else [(2, row77), (5, row77)] } }

/-- What both entity jobs whose rows are written meet. -/
def invalidates (e : Bool) (k : Word) : Bool :=
  let s := boundary e false k
  s.memUp && Memory.wf s.mem && s.ent.job == some ⟨0, e, [entry k], if e then [] else [5], 1⟩ && (s.job 0).isSome &&
    (s.job 0).any (fun j => s.boundaryReached j) && s.ent.stranded == [] && decide (s.ent.cache.length < 7680)

theorem witness_EntityInvalidate : invalidates false 77 = true ∧ invalidates false 78 = true ∧ invalidates true 77 = true ∧ invalidates true 78 = true := by
  decide +kernel

theorem witness_EntityInvalidate_waits : ((boundary false true 77).job 0).any (fun j => (boundary false true 77).boundaryReached j) = false ∧
    (unlinked (boundary false false 77)).memUp = false := by
  decide +kernel

theorem witness_EntityInvalidate_keys : (boundary false false 77).ent.lookup 0 77 = .found (.index 0) ⟨77, 2, false, false⟩ ∧ (2 ≠ 5) ∧
    (boundary false false 78).ent.lookup 0 78 = .absent ∧ (entry 78).place ≠ 1 ∧ (boundary false false 78).ent.freeIndex = some 1 ∧
    (boundary true false 77).ent.lookup 0 77 = .found (.index 0) ⟨77, 2, false, false⟩ ∧ (boundary true false 78).ent.lookup 0 78 = .absent ∧
    (present true (boundary false false 77)).ent.lookup 0 77 = .found (.index 0) ⟨77, 2, true, false⟩ := by
  decide +kernel

theorem witness_EntityInvalidate_stores : StoresOk (boundary false false 77) ∧ StoresOk (boundary true false 77) :=
  ⟨tabled_stores _ rfl (.inr rfl) rfl (.inr rfl) tabled_entRows rfl rfl, tabled_stores _ rfl (.inl rfl) rfl (.inl rfl) tabled_entRows rfl rfl⟩

theorem test_invalidate_update : changes (.entityInvalidate 0 true) (boundary false false 77) = true := by decide +kernel
theorem test_invalidate_evict : changes (.entityInvalidate 0 true) (boundary true false 77) = true := by decide +kernel

/-- Slot 0 of position 0 in plane A, of model 0, with a row of number 1 in physical row 1. -/
def oneLeaf (s : State) : State :=
  let row : BridgeRow := sealRow ⟨0, 0, 0x40000005, 0, true, false, 0, false, false, 1, some ⟨0, false, 0⟩⟩
  { s with arr := { s.arr with descs := [(0, 1)], rows := [(1, row)] } }

/-- An entry with an operation, a row number, a plane, and a payload of a class. -/
def patchBytes (op row plane cls : Nat) : Nat :=
  op * 2 ^ 185 + row * 2 ^ 168 + plane * 2 ^ 179 + (if op = 3 then 0 else (0x40000000 + cls * 2 ^ 16 + 9) * 2 ^ 128)

/-- A LEAF_PATCH job with the entry, placed by the operations of memory. -/
def patchJob : Job := { jobOf 5 with desc := BitVec.ofNat 512 (5 + 0x30000 * 2 ^ 64 + 1 * 2 ^ 128) }
def patching (op row plane cls : Nat) : State :=
  let s := withJob patchJob (withGroup group0 (withImage (oneLeaf ringed)))
  { s with mem := memWrite [] 0x30000 (leBytes 32 (patchBytes op row plane cls)) }

/-- Of each entry: whether its form, its plane and its operation pass. -/
def judged (s : State) : List (Bool × Bool × Bool) :=
  (s.patchEntries patchJob).map (fun x => (s.patchFormOk [] x.2 x.1, s.patchPlaneOk x.1, s.patchOpOk x.1))

theorem witness_LeafPatch : (∀ s ∈ [patching 0 1 0 0, patching 1 1 1 0, patching 1 2 0 0, patching 2 1 0 0, patching 1 1 0 0, patching 2 2 0 1, patching 3 1 0 0],
      s.memUp = true ∧ Memory.wf s.mem = true ∧ s.openJob 0 5 = some patchJob ∧ patchJob.begun = false ∧ (s.patchEntries patchJob).length = 1) ∧
    judged (patching 0 1 0 0) = [(false, true, true)] ∧ judged (patching 1 1 1 0) = [(true, false, false)] ∧
    judged (patching 1 2 0 0) = [(true, true, false)] ∧ judged (patching 2 1 0 0) = [(true, true, false)] ∧
    (∀ s ∈ [patching 1 1 0 0, patching 2 2 0 1, patching 3 1 0 0], judged s = [(true, true, true)] ∧ s.journalUsed = 0 ∧
      (match s.stageAll 0 ((s.patchEntries patchJob).map Prod.fst) with
        | .error _ => false
        | .ok _ => true) = true ∧ changes (.leafPatch 0) s = true) ∧ (unlinked run).memUp = false := by decide +kernel

/-- A journal that has no room. -/
def fullJournal : State :=
  let e : JournalEntry := ⟨0, 1, ⟨0, 0, 0, 0, 0, 1, false, 0, 3⟩⟩
  let s := patching 1 1 0 0
  { s with img := { s.img with live := some ⟨image0, List.replicate 4096 e⟩ } }

theorem witness_LeafPatch_full : judged fullJournal = [(true, true, true)] ∧ 4096 < fullJournal.journalUsed + 1 ∧ fullJournal.memUp = true ∧
    (match fullJournal.stageAll 0 ((fullJournal.patchEntries patchJob).map Prod.fst) with
      | .error _ => false
      | .ok _ => true) = true := by decide +kernel

/-- Rows 1 to 3 of the slot stand in physical rows 1 to 3: a replacement of row 2 finds no hole. -/
def noHole : State :=
  let row (n : Nat) : BridgeRow := sealRow ⟨0, 0, 0x40000005, 0, true, false, 0, false, false, n, some ⟨0, false, 0⟩⟩
  { patching 1 2 0 0 with arr := { (patching 1 2 0 0).arr with rows := [(1, row 1), (2, row 2), (3, row 3)] } }

theorem witness_LeafPatch_hole : judged noHole = [(true, true, true)] ∧
    (match noHole.stageAll 0 ((noHole.patchEntries patchJob).map Prod.fst) with
      | .error i => i == 0
      | .ok _ => false) = true := by decide +kernel

/-- The patches of patching, staged: a replacement, an insertion and a deletion. -/
def staged (op row cls : Nat) : State := after (.leafPatch 0) (patching op row 0 cls)
def entryOf (op row payload : Nat) : PatchEntry := ⟨0, 0, BitVec.ofNat 32 payload, 0, 0, row, false, 0, op⟩
def itemOf (op row payload copy : Nat) (new old : Option Nat) : PatchItem := ⟨1, entryOf op row payload, copy, 0, 0, new, old⟩
def patch1 : PatchJob := ⟨0, [itemOf 1 1 0x40000009 0 (some 0) (some 1)], [1]⟩
def patch2 : PatchJob := ⟨0, [itemOf 2 2 0x40010009 0 (some 9) none], [1]⟩
def patch3 : PatchJob := ⟨0, [itemOf 3 1 0 0 none (some 1)], [1]⟩
def withReady (s : State) : State := { s with acc := { s.acc with heads := [head0 [{ place0 with grp := 1, dispatched := true }]] } }
def inTandem (s : State) : State := { s with grp := { s.grp with groups := [{ group0 with tandem := true }] } }
/-- The group has ended, and the job has a second group to come. -/
def afterMount (s : State) : State :=
  { s with
    grp := { s.grp with groups := [{ group0 with ended := true }] }
    img := { s.img with former := s.img.live }
    jobs := { s.jobs with patches := s.jobs.patches.map (fun p => { p with groups := [1, 2] }) } }

theorem witness_PatchBoundary : (∀ x ∈ [(staged 1 1 0, patch1), (staged 2 2 1, patch2), (staged 3 1 0, patch3)],
      let s := x.1
      s.up = true ∧ Memory.wf s.mem = true ∧ s.openJob 0 5 = some { patchJob with begun := true } ∧ s.jobs.patches.find? (fun q => q.job == 0) = some x.2 ∧
        s.grp.groups.find? (fun y => y.base == 0 && x.2.groups.contains y.gid) = some group0 ∧
        s.boundaryDue { patchJob with begun := true } group0 = true ∧ group0.ended = false ∧ s.img.live.isSome = true ∧ (∀ n ∈ x.2.groups, n = group0.gid)) ∧
    (let s := afterMount (staged 1 1 0)
     let p := { patch1 with groups := [1, 2] }
     s.openJob 0 5 = some { patchJob with begun := true } ∧ s.jobs.patches.find? (fun q => q.job == 0) = some p ∧
       s.grp.groups.find? (fun y => y.base == 0 && p.groups.contains y.gid) = some { group0 with ended := true } ∧
       s.boundaryDue { patchJob with begun := true } { group0 with ended := true } = true ∧ s.img.former.isSome = true ∧ (∃ n ∈ p.groups, n ≠ group0.gid)) ∧
    (withReady (staged 1 1 0)).boundaryDue { patchJob with begun := true } group0 = false := by decide +kernel

/-- Their items, on the position and on its twin; the twin's map makes it spare array 16. -/
theorem witness_PatchBoundary_items : StoresOk (staged 1 1 0) ∧ StoresOk (staged 2 2 1) ∧ StoresOk (staged 3 1 0) ∧ StoresOk (inTandem (staged 2 2 1)) ∧
    (∀ x ∈ [(staged 1 1 0, itemOf 1 1 0x40000009 0 (some 0) (some 1), some 0, some 1), (staged 2 2 1, itemOf 2 2 0x40010009 0 (some 9) none, some 9, none)],
      let k := x.1.spotOn 0 0 false 0
      x.2.1.entry.op ≠ 3 ∧ x.2.1.phys = k.phys ∧ x.2.1.bank = k.bank ∧ x.2.1.newRow = x.2.2.1 ∧
        (x.2.2.1.all (fun r => (x.1.arr.row k.phys k.bank r).slot.toNat == k.slotPos && !(x.1.arr.row k.phys k.bank r).valid)) = true ∧
        (x.1.arr.rowIn k x.2.1.entry.row).map Prod.fst = x.2.2.2) ∧
    ((staged 3 1 0).arr.rowIn ((staged 3 1 0).spotOn 0 0 false 0) 1).map Prod.fst = some 1 ∧
    (let s := inTandem (staged 2 2 1)
     let x : PatchItem := { itemOf 2 2 0x40010009 16 (some 9) none with phys := 16 }
     let k := s.spotOn 16 0 false 0
     (s.groupsAt 0).any (fun h => h.tandem) = true ∧ x.phys = k.phys ∧ x.bank = k.bank ∧ (s.arr.row k.phys k.bank 9).slot.toNat = k.slotPos ∧
       (s.arr.row k.phys k.bank 9).valid = false) :=
  ⟨stores_of _ (by decide +kernel), stores_of _ (by decide +kernel), stores_of _ (by decide +kernel), stores_of _ (by decide +kernel), by decide +kernel,
    by decide +kernel, by decide +kernel⟩

/-- SHA-256 of the image below, computed outside the model. -/
def chordDigest : List Byte :=
  [237, 225, 22, 202, 85, 199, 6, 96, 227, 129, 220, 10, 172, 126, 113, 50,
    71, 237, 243, 149, 84, 172, 167, 52, 169, 201, 85, 128, 87, 111, 215, 154]
/-- The header of an image without models whose one segment is a CHORD segment at byte 256 (R268, R269), and the image: its one group entry
is of two arrays from position 0 (R125). -/
def chordFront : List Byte := [72, 68, 70, 83, 2, 0, 1, 0, 0, 0, 0, 0, 0, 0, 0, 0, 64, 1, 0, 0, 0, 0, 0, 0, 0, 0, 0, 0, 0, 0, 0, 0]
def chordTable : List Byte := [5, 0, 0, 0, 0, 1, 0, 0, 8, 0, 0, 0, 1, 0, 0, 0]
def chordHeader : List Byte := chordFront ++ (chordDigest ++ (chordTable ++ List.replicate 176 0))
def chordGroup : List Byte := 0x20 :: List.replicate 63 0
@[irreducible] def chordImage : List Byte := chordHeader ++ chordGroup
/-- The bytes of the image that are not zero, at 0x30000. -/
@[irreducible] def chordCells : List Host.Cell :=
  [(0x30000, 72), (0x30001, 68), (0x30002, 70), (0x30003, 83), (0x30004, 2), (0x30006, 1), (0x30010, 64), (0x30011, 1), (0x30020, 237), (0x30021, 225), (0x30022, 22)] ++
  [(0x30023, 202), (0x30024, 85), (0x30025, 199), (0x30026, 6), (0x30027, 96), (0x30028, 227), (0x30029, 129), (0x3002a, 220), (0x3002b, 10), (0x3002c, 172), (0x3002d, 126)] ++
  [(0x3002e, 113), (0x3002f, 50), (0x30030, 71), (0x30031, 237), (0x30032, 243), (0x30033, 149), (0x30034, 84), (0x30035, 172), (0x30036, 167), (0x30037, 52), (0x30038, 169)] ++
  [(0x30039, 201), (0x3003a, 85), (0x3003b, 128), (0x3003c, 87), (0x3003d, 111), (0x3003e, 215), (0x3003f, 154), (0x30040, 5), (0x30045, 1), (0x30048, 8), (0x3004c, 1)] ++
  [(0x30100, 32)]
def digestWord (i : Nat) : Word := BitVec.ofNat 64 (leNat ((chordDigest.drop (8 * i)).take 8))

/-- A LOAD_HARNESS job of that image at 0x30000, with its report at 0x40000, dry or not. -/
def loadJob (dry begun : Bool) : Job :=
  { jobOf 6 with
    desc := BitVec.ofNat 512 (6 + 0x30000 * 2 ^ 64 + 320 * 2 ^ 128 + (if dry then 2 ^ 160 else 0) + 0x40000 * 2 ^ 192)
    begun := begun }
/-- Units of 64 KiB of the harness copy, and whether the image is there. -/
def loading (dry begun : Bool) (units : Word) (there : Bool) : State :=
  let s := withJob (loadJob dry begun) ringed
  let c := { s.shadow with expect := (List.range 4).map digestWord }
  { s with
    live := { s.live with hcopySize := units }
    shadow := c
    mem := if there then chordCells else [] }

/-- The load after its first step, and after its first pass. -/
def loadOne (dry : Bool) : Load := ⟨0, 0x30000, 320, dry, 0x40000, 1, chordHeader, [], [], [], none⟩
def loadTwo (interrupted : Option Nat) (digest : List Byte) : Load :=
  { loadOne false with stage := 2, digest := digest, interrupted := interrupted, disp := [⟨0, [false], false⟩, ⟨1, [false], false⟩] }
def withLoad (l : Load) (s : State) : State := { s with img := { s.img with load := some l } }

/-- Two live groups of one array each, of which the second is in plane B: no plane is idle at both. -/
def split (s : State) : State :=
  { s with grp := { s.grp with groups := [{ group0 with size := 1 }, { group0 with gid := 2, base := 1, size := 1, plane := true }], nextGroup := 3 } }
def expectNothing (s : State) : State := { s with shadow := run.shadow }

theorem chord_digest : bodyDigest chordImage.toArray = chordDigest := by decide +kernel

theorem chord_slice (s : State) (hm : s.mem = chordCells) : memSlice s.mem 0x30000 320 = chordImage.toArray := by
  apply Array.toList_inj.mp
  rw [hm, Laws.memSlice_toList _ _ _ (by decide +kernel) (by decide +kernel) (by decide)]
  decide +kernel

theorem chord_bytes (s : State) (hm : s.mem = chordCells) (dry : Bool) : s.firstBytes (loadOne dry) = chordImage.toArray := by
  unfold State.firstBytes
  rw [show memSlice s.mem (loadOne dry).image (loadOne dry).length = chordImage.toArray from chord_slice s hm, chordImage]
  show (chordHeader ++ (chordHeader ++ chordGroup).drop 256).toArray = _
  rw [List.drop_left' (by decide +kernel)]

theorem chord_head : headerFail chordImage.toArray 320 run.pkg.variant.cap0 = none := by decide +kernel
theorem chord_table : segTableFail chordImage.toArray = none := by decide +kernel
theorem chord_caps : (sourceOf chordImage.toArray).capsMissing = 0 := by decide +kernel
theorem chord_entries : (sourceOf chordImage.toArray).entryFail = none := by decide +kernel
theorem chord_named : chordDigest = hdrDigest chordImage.toArray := by decide +kernel

theorem chord_header (s : State) (h : s.pkg = run.pkg) : s.loadHeaderCheck chordImage.toArray 320 = none := by
  unfold State.loadHeaderCheck
  rw [h, chord_head, chord_table]
  rfl

theorem chord_passes (s : State) (dry : Bool) (h : s.pkg = run.pkg) (he : s.shadow.expectBytes = chordDigest) (hm : s.mem = chordCells) :
    s.firstPassFail (loadOne dry) (s.firstBytes (loadOne dry)) (bodyDigest (s.firstBytes (loadOne dry))) = none := by
  have hd : s.digestOk chordImage.toArray chordDigest = true := by unfold State.digestOk; rw [he, ← chord_named]; decide
  rw [chord_bytes s hm, chord_digest]
  unfold State.firstPassFail
  rw [show (loadOne dry).length = 320 from rfl, chord_header s h]
  simp [hd, chord_caps, chord_entries]

theorem witness_LoadSteps_header : (∀ t ∈ [true, false], (loading false false 8 t).memUp = true ∧ Memory.wf (loading false false 8 t).mem = true ∧
      (loading false false 8 t).openJob 0 6 = some (loadJob false false) ∧ (loadJob false false).begun = false) ∧
    ((loading false false 8 false).loadHeaderCheck (memSlice [] 0x30000 320) 320).map (·.status) = some 0x301 ∧
    (loading false false 8 true).loadHeaderCheck (memSlice (loading false false 8 true).mem 0x30000 320) 320 = none ∧
    ((loading false false 8 false).live.ring 0).en = true ∧ (unlinked run).memUp = false := by
  refine ⟨by decide +kernel, by decide +kernel, ?_, by decide +kernel, by decide +kernel⟩
  rw [chord_slice _ rfl]
  exact chord_header _ rfl

/-- The load fails its digest; passes every check but finds no idle plane at position 1, or too little room for its copy; or passes, dry or not. -/
theorem witness_LoadSteps_first : (∀ d ∈ [true, false], ∀ s ∈ [loading d true 8 true, loading d true 7 true, split (loading d true 8 true), expectNothing (loading d true 8 true)],
      let t := withLoad (loadOne d) s
      t.memUp = true ∧ Memory.wf t.mem = true ∧ t.openJob 0 6 = some (loadJob d true) ∧ t.img.load = some (loadOne d) ∧ (loadOne d).stage = 1 ∧
        (loadOne d).job = 0) ∧
    (∀ d ∈ [true, false], ∀ s ∈ [loading d true 8 true, loading d true 7 true, split (loading d true 8 true)],
      let t := withLoad (loadOne d) s
      let b := t.firstBytes (loadOne d)
      t.firstPassFail (loadOne d) b (bodyDigest b) = none) ∧
    (∀ d ∈ [true, false],
      let t := withLoad (loadOne d) (expectNothing (loading d true 8 true))
      let b := t.firstBytes (loadOne d)
      (t.firstPassFail (loadOne d) b (bodyDigest b)).map (·.status) = some 0x305) ∧
    (∀ d ∈ [true, false], ∀ u ∈ [7, 8],
      let t := withLoad (loadOne d) (loading d true (BitVec.ofNat 64 u) true)
      let x := sourceOf (t.firstBytes (loadOne d))
      let rs := t.fit x.held (t.dispose x.held.tables) x.held.length x.mapped.maskCount
      (∀ g ∈ x.held.tables.groups, t.keptBy g = none ∧ t.noIdle g = none) ∧ rs.map Resource.short = List.replicate 6 false ++ [u == 7]) ∧
    (∀ d ∈ [true, false],
      let t := withLoad (loadOne d) (split (loading d true 8 true))
      (sourceOf (t.firstBytes (loadOne d))).held.tables.groups.map (fun g => (t.keptBy g, t.noIdle g)) = [(none, some 1)]) := by
  refine ⟨by decide +kernel, ?_, ?_, ?_, ?_⟩
  · intro d _ s hs
    simp only [List.mem_cons, List.not_mem_nil, or_false] at hs
    rcases hs with rfl | rfl | rfl <;> exact chord_passes _ d rfl (by cases d <;> decide +kernel) rfl
  · intro d _
    simp only
    rw [chord_bytes (withLoad (loadOne d) (expectNothing (loading d true 8 true))) rfl, chord_digest]
    cases d <;> decide +kernel
  · intro d _ u hu
    simp only
    rw [chord_bytes (withLoad (loadOne d) (loading d true (BitVec.ofNat 64 u) true)) rfl]
    simp only [List.mem_cons, List.not_mem_nil, or_false] at hu
    rcases hu with rfl | rfl <;> cases d <;> decide +kernel
  · intro d _
    simp only
    rw [chord_bytes (withLoad (loadOne d) (split (loading d true 8 true))) rfl]
    cases d <;> decide +kernel

/-- The second pass of a load that a Remount has interrupted, whose digest has changed or is not the one expected, that has no room, and that
can end well, with a cell that fails its read-back or none. -/
theorem witness_LoadSteps_second : (∀ x ∈ [(some 3, chordDigest, loading false true 8 true), (none, [], loading false true 8 true),
        (none, chordDigest, expectNothing (loading false true 8 true)), (none, chordDigest, loading false true 7 true), (none, chordDigest, loading false true 8 true)],
      let l := loadTwo x.1 x.2.1
      let s := withLoad l x.2.2
      s.memUp = true ∧ Memory.wf s.mem = true ∧ s.openJob 0 6 = some (loadJob false true) ∧ s.img.load = some l ∧ l.job = 0 ∧ l.stage = 2 ∧
        s.freeTables.img.retiring = [] ∧ (∀ g ∈ s.grp.groups, g.ended = false) ∧ memSlice s.mem l.image l.length = chordImage.toArray) ∧
    bodyDigest chordImage.toArray = chordDigest ∧ chordDigest ≠ [] ∧
    (withLoad (loadTwo none chordDigest) (expectNothing (loading false true 8 true))).freeTables.dropPending.digestOk chordImage.toArray chordDigest = false ∧
    (∀ u ∈ [7, 8],
      let l := loadTwo none chordDigest
      let t := (withLoad l (loading false true (BitVec.ofNat 64 u) true)).freeTables.dropPending
      let x := sourceOf chordImage.toArray
      t.digestOk chordImage.toArray chordDigest = true ∧
        (t.fit x.held l.disp x.held.length x.mapped.maskCount).map Resource.short = List.replicate 6 false ++ [u == 7]) ∧
    (some (1, 0, 5, 6)).filter (wroteCell (sourceOf chordImage.toArray).held.tables (loadTwo none chordDigest).disp) = some (1, 0, 5, 6) ∧
    (let s := withLoad (loadTwo none chordDigest) (withGroup { group0 with ended := true } (loading false true 8 true))
     s.openJob 0 6 = some (loadJob false true) ∧ (∃ g ∈ s.grp.groups, g.ended = true)) := by
  refine ⟨?_, chord_digest, by decide, by decide +kernel, by decide +kernel, by decide +kernel, by decide +kernel⟩
  have base : ∀ x ∈ [(some 3, chordDigest, loading false true 8 true), (none, [], loading false true 8 true),
        (none, chordDigest, expectNothing (loading false true 8 true)), (none, chordDigest, loading false true 7 true), (none, chordDigest, loading false true 8 true)],
      let l := loadTwo x.1 x.2.1
      let s := withLoad l x.2.2
      s.memUp = true ∧ Memory.wf s.mem = true ∧ s.openJob 0 6 = some (loadJob false true) ∧ s.img.load = some l ∧ l.job = 0 ∧ l.stage = 2 ∧
        s.freeTables.img.retiring = [] ∧ (∀ g ∈ s.grp.groups, g.ended = false) := by decide +kernel
  intro x hx
  obtain ⟨h1, h2, h3, h4, h5, h6, h7, h8⟩ := base x hx
  refine ⟨h1, h2, h3, h4, h5, h6, h7, h8, ?_⟩
  simp only [List.mem_cons, List.not_mem_nil, or_false] at hx
  rcases hx with rfl | rfl | rfl | rfl | rfl <;> exact chord_slice _ rfl

/-- A Mount in progress, requests that wait, and a MOUNT job. -/
def mounting (active : Option MountRequest) (waiting : List MountRequest) (jobs : List Job) : State :=
  { ringed with
    shadow := { ringed.live with budget := 0x20000, rings := ringed.live.rings }
    mnt := { ringed.mnt with active := active, waiting := waiting, frozen := if active.isSome then [(0x440, 0x300)] else [] }
    jobs := { ringed.jobs with jobs := jobs, nextId := 2 } }
def mountJob : Job := { jobOf 7 with id := 1 }

theorem witness_MountRequests : (∀ s ∈ [mounting none [] [mountJob], mounting (some .register) [] [mountJob], mounting (some (.job 0)) [.register] [mountJob],
      mounting (some (.job 0)) [] [mountJob], mounting none [] [jobOf 10, mountJob]], s.up = true ∧ s.openJob 1 7 = some mountJob) ∧
    mountJob.begun = false ∧ (jobOf 10).written = false ∧ (jobOf 10).ring = mountJob.ring ∧ (jobOf 10).id < mountJob.id ∧
    changes (.mountGo true) (mounting (some .register) [] [mountJob]) = true ∧ changes (.mountGo true) (mounting (some (.job 0)) [] [mountJob]) = true ∧
    changes .mountApply (mounting (some .register) [] [mountJob]) = true := by decide +kernel

/-- A Mount of a job, before its apply point, with a decode budget. -/
def applying (budget : Word) (s : State) : State :=
  { s with
    shadow := { s.live with budget := budget, rings := s.live.rings }
    jobs := { s.jobs with jobs := s.jobs.jobs ++ [{ mountJob with begun := true }], nextId := 2 }
    mnt := { s.mnt with active := some (.job 1), frozen := [(0x440, 0x300)] } }
/-- A pending image of one new group. -/
def withPending (s : State) : State :=
  { s with img := { s.img with pend := some ⟨⟨image0, []⟩, [⟨0, [true], false⟩, ⟨1, [true], false⟩]⟩ } }
def abandoning : State :=
  let s := applying 0x20000 ringed
  { s with shadow := { s.shadow with holdCfg := 0x105DC }, pwr := { s.pwr with replayDue := true } }

theorem witness_MountOutcome : (∀ s ∈ [applying 0x20000 ringed, applying 256 (withPending ringed), applying 255 ringed, abandoning],
      s.up = true ∧ Memory.wf s.mem = true ∧ s.mnt.freezing = true ∧ s.job 1 = some { mountJob with begun := true }) ∧
    ((applying 255 ringed).mountFail).map (·.code) = some 8 ∧ (applying 0x20000 ringed).mountFail = none ∧ (applying 0x20000 ringed).mountWaits = false ∧
    (applying 256 (withPending ringed)).mountFail = none ∧ (applying 256 (withPending ringed)).mountWaits = false ∧
    (applying 0x20000 (withGroup { group0 with paused := true } ringed)).mountFail = none ∧
    (applying 0x20000 (withGroup { group0 with paused := true } ringed)).mountWaits = true ∧
    abandoning.mountFail = none ∧ abandoning.shadow.abandon = true ∧ abandoning.live.abandon = false ∧ abandoning.pwr.replayDue = true ∧
    abandoning.mountWaits = false := by decide +kernel

/-- A Mount that waits for the switch of one group. -/
def switching (g : Group) : State :=
  let s := applying 0x20000 (withGroup g (withImage ringed))
  { s with mnt := { s.mnt with applied := true, frozen := [] } }

theorem witness_GroupSwitches : (∀ g ∈ [{ group0 with switchDue := true }],
      (switching g).up = true ∧ (switching g).group 0 = some g ∧ g.switchDue = true ∧ g.paused = false ∧ (switching g).atBoundary g = true) ∧
    (let g := { group0 with switchDue := true, run := [(0, 0)] }
     (switching g).group 0 = some g ∧ (switching g).atBoundary g = false) ∧
    (switching group0).group 0 = some group0 ∧ (switching { group0 with paused := true }).group 0 = some { group0 with paused := true } ∧
    (let g := { group0 with ended := true }
     (withGroup g run).groupNo 1 = some g ∧ (withGroup g run).groupIdle g = true ∧ g.ready = [] ∧ g.paused = false ∧ (∀ p ∈ (withGroup g run).jobs.patches, 1 ∉ p.groups) ∧
       (withReady (withGroup g run)).groupNo 1 = some g ∧ (withReady (withGroup g run)).groupIdle g = false) ∧
    (run.arr.row (run.physOf 0) 0 0).plane = false := by decide +kernel

/-- Cells that show every clause. -/
def sampled (kind : Nat) (x : Word32) : Sample := ⟨fun _ => 0x100, fun _ => x, fun _ => kind, fun _ => 1⟩

theorem witness_CellsOfASlotWord : (∀ m ∈ [0, 1, 2, 3], cellMode (BitVec.ofNat 42 m) = m) ∧ 63 < 64 ∧ 31 < 32 ∧
    (sampled 1 0x7FC00000).kind 0 = 1 ∧ readReal32 ((sampled 1 0x7FC00000).wide 0) = .nan ∧
    (sampled 2 0x80000000).kind 0 ≠ 1 ∧ (sampled 2 0x80000000).wide 0 = 0x80000000 ∧ (sampled 2 0x7FFFFFFF).wide 0 ≠ 0x80000000 := by
  decide +kernel

/-- A group about to dispatch record 0 of a job, whose one leaf stands in the arrays. -/
def picking (op : Nat) (g : Group) : State :=
  withHead (head0 [place0]) (withJob { jobOf op with next := 2, n := 2 } (withGroup g (withImage (oneLeaf ringed))))

def gFresh : Group := { group0 with ready := [(0, 0)] }
def gPass : Group := { group0 with tremolo := some (0, 0, 3) }
def gMarked : Group := { group0 with marked := [(0, 0, 0)] }
def gRun : Group := { group0 with dbl := true, run := [(0, 0)], inB := true }
def gDouble : Group := { group0 with dbl := true, ready := [(0, 0), (0, 1)] }
/-- Cell 0 of slot 0 of position 0 fails its parity. -/
def badCell0 (s : State) : State := { s with arr := { s.arr with cells := [(0, ⟨1, false⟩)] } }
def twoFaced (s : State) : State := { s with arr := { s.arr with descs := [(0, 1), (8192, 1)] } }

theorem witness_RecordDispatch : (∀ x ∈ [(gFresh, 1, Pick.fresh 0 0), (gPass, 2, .pass 0 0 3), (gMarked, 1, .marked 0 0), (gRun, 1, .run 0 0)],
      let s := picking x.2.1 x.1
      let f := (head0 [place0]).features votes (x.2.1 == 2) (if x.2.1 = 2 then 3 else 0)
      s.up = true ∧ s.dispatcher 0 = some x.1 ∧ s.pick x.1 = x.2.2 ∧ (s.openPlace 0 0).isSome = true ∧
        (s.openPlace 0 0).all (fun o => o.1.model == some votes && !o.2.1.headBad && !o.2.1.blockBad) = true ∧
        (∀ pos ∈ s.comparing x.1, (s.loadBuffers x.1 f []).compareFault x.1 x.1.inB pos = none) ∧ x.1.tandem = false ∧ s.recovering 1 = false) ∧
    (let s := badCell0 (picking 1 gFresh)
     s.dispatcher 0 = some gFresh ∧ s.pick gFresh = .fresh 0 0 ∧ (s.openPlace 0 0).isSome = true ∧
       ∃ pos ∈ s.comparing gFresh, (s.loadBuffers gFresh ((head0 [place0]).features votes false 0) []).compareFault gFresh false pos ≠ none) ∧
    gRun.runPass = 0 ∧ gFresh.dbl = false := by decide +kernel

theorem witness_RecordDispatch_stores : ∀ x ∈ [(gFresh, 1), (gPass, 2), (gMarked, 1), (gRun, 1)],
    StoresOk (picking x.2 x.1) ∧ StoresOk (badCell0 (picking 1 gFresh)) ∧ StoresOk (twoFaced (picking 1 { gFresh with tandem := true })) := by
  intro x hx
  simp only [List.mem_cons, List.not_mem_nil, or_false] at hx
  rcases hx with rfl | rfl | rfl | rfl <;> exact ⟨stores_of _ (by decide +kernel), stores_of _ (by decide +kernel), stores_of _ (by decide +kernel)⟩

/-- A group in Tandem, whose twin has the slot of its primary or not. -/
theorem witness_RecordDispatch_tandem :
    (∀ s ∈ [picking 1 { gFresh with tandem := true }, twoFaced (picking 1 { gFresh with tandem := true })],
      s.dispatcher 0 = some { gFresh with tandem := true } ∧ s.pick { gFresh with tandem := true } = .fresh 0 0 ∧
        s.comparing { gFresh with tandem := true } = [0, 1, 16, 17] ∧ ∀ q ∈ [0, 1, 16, 17], (s.loadBuffers { gFresh with tandem := true }
          ((head0 [place0]).features votes false 0) []).compareFault { gFresh with tandem := true } false q = none) ∧
    (picking 1 { gFresh with tandem := true }).wordsAt (sampled 0 0) 0 false ++ (picking 1 { gFresh with tandem := true }).wordsAt (sampled 0 0) 16 false =
      [(0, 0)] ∧ tandemWordFault { gFresh with tandem := true } [(0, 0)] = some (0, 0) ∧
    (twoFaced (picking 1 { gFresh with tandem := true })).wordsAt (sampled 0 0) 0 false ++
      (twoFaced (picking 1 { gFresh with tandem := true })).wordsAt (sampled 0 0) 16 false = [(0, 0), (4096, 0)] ∧
    tandemWordFault { gFresh with tandem := true } [(0, 0), (4096, 0)] = none := by
  refine ⟨by decide +kernel, by decide +kernel, ?_, by decide +kernel, ?_⟩ <;>
    simp [tandemWordFault, List.mergeSort, List.MergeSort.Internal.splitInTwo, gFresh, group0]

theorem witness_RecordDispatch_features : (votes.tremolo.map (·.feature)).Nodup ∧ sparseOk (0xFFFF : Code) [(3, 7)] = true := by decide

theorem witness_RecordDispatch_run :
    (let s := { picking 1 gDouble with acc := { run.acc with heads := [head0 [place0], { head0 [JobPlace.fresh 0 1] with place := 1, block := some 1, seq := 1 }] } }
     s.dispatcher 0 = some gDouble ∧ gDouble.dbl = true ∧ s.pick gDouble = .fresh 0 0 ∧ (s.openPlace 0 0).isSome = true ∧
       (s.openPlace 0 0).all (fun o => o.1.model == some votes && o.1.op == 1 && decide (o.1.n ≤ o.1.next)) = true ∧
       (∀ y ∈ s.grp.groups, y.gid = gDouble.gid → y = gDouble) ∧
       (∀ pos ∈ s.comparing gDouble, (s.loadBuffers gDouble ((head0 [place0]).features votes false 0) []).compareFault gDouble false pos = none) ∧
       gDouble.tandem = false ∧ (∀ x ∈ s.jobs.jobs, x.op ≠ opPatch) ∧ s.jobs.patches = [] ∧ (0, 1) ∈ gDouble.ready ∧ (s.openPlace 0 1).isSome = true) ∧
    (∀ b ∈ [(true, false), (false, true)],
     let h := { head0 [place0] with headBad := b.1, blockBad := b.2 }
     let s := { picking 1 gFresh with acc := { run.acc with heads := [h] } }
     s.dispatcher 0 = some gFresh ∧ s.pick gFresh = .fresh 0 0 ∧ (s.openPlace 0 0).map (fun o => o.2) = some (h, place0) ∧ h.places = [place0] ∧
       place0.settled = false ∧ (s.job 0).any (fun j => j.indexOf h.stream h.seq == some 0) = true ∧ s.worn (bufferPart h) = false ∧
       ∀ pos ∈ s.comparing gFresh, (s.loadBuffers gFresh (h.features votes false 0) []).compareFault gFresh false pos = none) := by decide +kernel

theorem witness_RecordDispatch_switch : (∀ g ∈ [{ gRun with runPos := 1, inB := false }, { gRun with runPos := 1 },
        { gRun with runPos := 1, tremolo := some (0, 0, 2) }, { gRun with runPos := 1, tremolo := some (0, 0, 3) }],
      let s := picking 2 g
      g ∈ s.grp.groups ∧ g.base = 0 ∧ g.run ≠ [] ∧ (∀ y ∈ s.grp.groups, y.base = 0 ∨ y.gid = g.gid → y = g) ∧
        g.runPos = g.run.length ∧ s.grp.attempts = [] ∧ (s.job 0).map (·.k) = some 4) ∧
    (∀ g ∈ (picking 2 gRun).grp.groups, g.runPos ≠ g.run.length) ∧
    (let s := withAttempt attempt0 (picking 2 { gRun with runPos := 1 })
     ∃ a ∈ s.grp.attempts, a.grp = gRun.gid) := by
  decide +kernel

/-- An attempt that may search slot 0 of position 0, with a descriptor and the slot's word. -/
def attempt1 (d : BitVec 10) : Attempt := { attempt0 with words := [(0, 5)], descs := [(0, d)] }
/-- Its state; the leaf's row is given. -/
def searching (d : BitVec 10) (row : BridgeRow) : State :=
  withAttempt (attempt1 d) { picking 1 group0 with arr := { run.arr with descs := [(0, d)], rows := [(1, row)] } }
def rowOf (key : Word) : BridgeRow := sealRow ⟨key, 1, 0x40000005, 0, true, false, 0, false, false, 1, some ⟨0, false, 0⟩⟩
/-- The same in Tandem: the twin has the slot, its word and the row, which is damaged or not. -/
def attempt2 : Attempt := { attempt0 with words := [(0, 5), (4096, 5)], descs := [(0, 1), (4096, 1)] }
def searchingTwin (twin : BridgeRow) : State :=
  withAttempt attempt2 { picking 1 { group0 with tandem := true } with arr := { run.arr with descs := [(0, 1), (8192, 1)], rows := [(1, rowOf 1), (rowAt 16 0 1, twin)] } }

theorem witness_BridgeSearch : (∀ d ∈ [1, 513], ∀ k ∈ [0, 1],
      let s := searching (BitVec.ofNat 10 d) (rowOf (BitVec.ofNat 64 k))
      let a := attempt1 (BitVec.ofNat 10 d)
      s.up = true ∧ (s.arr.rows.map Prod.fst).Pairwise (· < ·) ∧ s.attempt 0 = some a ∧ 0 < a.size ∧ s.inService 0 = true ∧ s.twinned a = false ∧
        a.tokenDue 0 (a.tokensOf 0 0) = true ∧ a.target 0 0 (a.tokensOf 0 0) = some (0, 5, BitVec.ofNat 10 d) ∧ s.attemptModel a = some votes ∧
        (s.arr.enabled (s.physOf 0) 0 false 0 5).length = k ∧ (∀ x ∈ s.arr.enabled (s.physOf 0) 0 false 0 5, x.2.failedCheck = none) ∧
        a.tokenDue 0 (a.tokensOf 0 15) = true ∧ a.target 0 15 (a.tokensOf 0 15) = none) := by decide +kernel

/-- A row that fails its check, in the array and in its twin, and a search of both without one. -/
theorem witness_BridgeSearch_rows :
    (let s := searching 1 { rowOf 1 with p1 := !(rowOf 1).p1 }
     s.attempt 0 = some (attempt1 1) ∧ ∃ x ∈ s.arr.enabled (s.physOf 0) 0 false 0 5, x.2.failedCheck ≠ none) ∧
    (let s := searchingTwin { rowOf 1 with p1 := !(rowOf 1).p1 }
     s.attempt 0 = some attempt2 ∧ ∃ x ∈ s.arr.enabled (s.physOf 16) 0 false 0 5, x.2.failedCheck ≠ none) ∧
    (let s := searchingTwin (rowOf 1)
     s.attempt 0 = some attempt2 ∧ s.attemptModel attempt2 = some votes ∧ s.twinned attempt2 = true ∧ attempt2.tokenDue 0 (attempt2.tokensOf 0 0) = true ∧
       attempt2.target 16 0 0 = some (0, 5, 1) ∧ (s.arr.enabled (s.physOf 16) 0 false 0 5).length = 1 ∧
       ∀ q ∈ [0, 16], ∀ x ∈ s.arr.enabled (s.physOf q) 0 false 0 5, x.2.failedCheck = none) := by decide +kernel

/-- A position beyond the group, one out of service, and a bank whose tokens are over. -/
theorem witness_BridgeSearch_idle : attempt0.size ≤ 2 ∧
    ({ run with arr := { run.arr with out := 1 } }).inService 0 = false ∧
    ({ attempt0 with tokens := [(0, 16)] }).tokenDue 0 (({ attempt0 with tokens := [(0, 16)] }).tokensOf 0 0) = false := by decide +kernel

/-- A score model with a certified lane 0 and a standard lane 1. -/
def scores : ModelDef := ⟨0, false, 2, 1, 0, false, 0, [], 0, [], [0, 0, 0, 0], []⟩
/-- An attempt of a job of the model in a group. -/
def adding (m : ModelDef) (op : Nat) (g : Group) (a : Attempt) : State :=
  withAttempt a (withHead (head0 [place0]) (withJob { jobOf op with model := some m, next := 2 } (withGroup g (withImage (oneLeaf ringed)))))
/-- Every bank of position 0 has searched; one contribution. -/
def searched : Attempt := { attempt0 with tokens := (List.range 16).map (fun b => (b, 16)), contribs := [⟨0, 3, 0x40010007⟩] }
def vec (x y : Int) : List Partial := [Partial.of x, Partial.of y]
/-- Both columns have left their arrays. -/
def columns (x y : Int) : Attempt := { attempt0 with partials := [(0, vec 3 x), (1, vec (-5) y)] }
def upset (a : Attempt) (e : Nat) : Attempt :=
  { a with partials := a.partials.map (fun p => if p.1 = 1 then (1, p.2.mapIdx (fun i v => if i = e then v.upset else v)) else p) }

theorem witness_SumsOfARecord : scores.certified 0 = true ∧ 0 < scores.elements ∧
    (let s := adding votes 1 group0 searched
     s.up = true ∧ s.attempt 0 = some searched ∧ 0 < searched.size ∧ s.attemptModel searched = some votes ∧ s.columnDue searched 0 = true ∧
       s.twinFault searched votes 0 = none) ∧
    (let g := { group0 with tandem := true }
     let s := adding votes 1 g searched
     s.attempt 0 = some searched ∧ s.columnDue searched 0 = true ∧ s.twinFault searched votes 0 ≠ none) ∧
    (∀ a ∈ [columns (2 ^ 46 - 1) (-(2 ^ 46)), upset (columns 1 2) 1],
     let s := adding scores 1 group0 a
     s.attempt 0 = some a ∧ s.attemptModel a = some scores ∧ 1 ≤ chordLevels a.size ∧ 0 < a.size / 2 ^ 1 ∧ a.nodeAt 1 0 = none ∧
       (a.nodeAt 0 0).isSome = true ∧ (a.nodeAt 0 1).isSome = true) ∧
    (∀ v ∈ vec 3 (2 ^ 46 - 1) ++ vec (-5) (-(2 ^ 46)), v.ok = true ∧ -(2 ^ 46) ≤ v.value.toInt ∧ v.value.toInt < 2 ^ 46) ∧
    (scores.standard 1 = true ∧ (((upset (columns 1 2) 1).nodeAt 0 1).getD []).any (fun v => !v.ok) = true) := by decide +kernel

/-- Whether every column that the Tuner adds passes its check. -/
def tokensOk (a : Attempt) : Bool := (List.range a.size).all (fun i => ((a.nodeAt 0 i).getD []).all (fun v => v.ok))

/-- SCORE and Tremolo passes, of one array and of two, first and last, in a group in Double or not, with sound columns and with a bad one. -/
theorem witness_SumsOfARecord_tuner : (∀ op ∈ [1, 2], ∀ k ∈ [0, 3], ∀ d ∈ [(false, false), (true, false), (true, true)],
      let a := { columns 1 2 with nodes := [(32, vec 0 3)], pass := k, dbl := d.1, plane := d.2 }
      let s := adding scores op { group0 with dbl := d.1 } a
      s.up = true ∧ s.attempt 0 = some a ∧ s.attemptModel a = some scores ∧ (s.job a.job).map (·.op) = some op ∧ a.tuned = false ∧ a.columnsDone = true ∧
        (∀ x ∈ a.partials, a.base ≤ x.1 ∧ x.1 < a.base + a.size) ∧ tokensOk a = true ∧ tokensOk (upset a 0) = false ∧
        (upset a 0).columnsDone = true ∧ (a.chordRoot).isSome = true ∧ (∀ x ∈ s.grp.attempts, x.job = a.job → x.idx = a.idx → a.id ≤ x.id) ∧
        (s.job a.job).map (fun j => decide (a.pass + 1 = j.k)) = some (decide (k = 3))) ∧
    ((((upset (columns 1 2) 0).nodeAt 0 1).map (fun v => (v.getD 0 ⟨0, 0⟩).ok)) = some false) ∧ (0 < ((columns 1 2).size + 3) / 4) := by decide +kernel

/-- A word of the Tally with a value. -/
def worded (v : Int) : State := { run with tally := { run.tally with words := [(0, ⟨BitVec.ofInt 64 v, 0⟩)] } }

/-- At a bound, beyond it by one, and between. -/
theorem witness_TallyWrite_bounds : (∀ v ∈ [2 ^ 47 - 1, -(2 ^ 47 - 1), 5], StoresOk (worded v) ∧ ((worded v).tallyWord 0).flips = 0 ∧
      (((worded v).tallyWord 0).value.setWidth 48).toInt = v) ∧
    (2 ^ 47 - 1 < (2 ^ 47 - 1 : Int) + 1) ∧ ((-(2 ^ 47 - 1) : Int) + -1 < -(2 ^ 47 - 1)) ∧ ((2 ^ 47 - 1 : Int) + 0 ≤ 2 ^ 47 - 1) := by
  refine ⟨fun v hv => ?_, by decide, by decide, by decide⟩
  simp only [List.mem_cons, List.not_mem_nil, or_false] at hv
  rcases hv with rfl | rfl | rfl <;> exact ⟨stores_of _ (by decide +kernel), by decide +kernel, by decide +kernel⟩

/-- Sums complete, in both halves of a group in Double or not. -/
def complete (dbl refold plane missVoid : Bool) : Attempt :=
  { columns 1 2 with dbl := dbl, refold := refold, plane := plane, missVoid := missVoid, nodes := [(32, vec 0 3)], cert := [-2, 0], tuned := true }
def writing (op : Nat) (a : Attempt) : State := adding scores op { group0 with dbl := a.dbl, refold := a.refold } a

/-- A group in Double whose plane-A half waits, for the last half of a refold. -/
def gathered (a : Attempt) (s : State) : State :=
  { s with grp := { s.grp with gathered := [⟨0, 0, [0, 0], [0, 0], [1, 1], false, false, false, a.missVoid⟩] } }

def tallyCases : List (Bool × Bool × Bool) := [(false, false, false), (true, false, false), (true, false, true), (true, true, false), (true, true, true)]

theorem witness_TallyWrite : (∀ b ∈ tallyCases, ∀ mv ∈ [true, false], ∀ op ∈ [1, 2],
      let a := complete b.1 b.2.1 b.2.2 mv
      let s := gathered a (writing op a)
      s.up = true ∧ s.attempt 0 = some a ∧ s.attemptModel a = some scores ∧ (s.openPlace a.job a.idx).isSome = true ∧
        (s.openPlace a.job a.idx).all (fun o => a.summed scores (o.1.op == 2) && !s.earlierTally o.1 && !o.2.2.commit) = true ∧ a.size ≠ 1 ∧
        (s.openPlace a.job a.idx).map (fun o => o.2.2.undo) = some []) ∧
    CleanWords (writing 1 (complete false false false false)) (scores.addends 0 ((complete false false false false).totals scores)) ∧
    CleanWords (writing 2 (complete false false false false)) (scores.tremoloAddends 0 [1, 1] [2, 2]) :=
  ⟨by decide +kernel, by unfold CleanWords; decide +kernel, by unfold CleanWords; decide +kernel⟩

theorem witness_TallyWrite_stores (b : Bool × Bool × Bool) (hb : b ∈ tallyCases) (mv : Bool) (op : Nat) (ho : op ∈ [1, 2]) :
    StoresOk (gathered (complete b.1 b.2.1 b.2.2 mv) (writing op (complete b.1 b.2.1 b.2.2 mv))) := by
  have h : ∀ b ∈ tallyCases, ∀ mv ∈ [true, false], ∀ op ∈ [1, 2], (fun (s : State) => sparseOk TallyWord.reset s.tally.words && sparseOk Tile.reset s.tally.tiles &&
    sparseOk EntityRow.missing s.ent.rows && sparseOk FeaturePlace.empty s.arr.buffers &&
    decide ((s.ent.index.map Prod.fst).Pairwise (· < ·) ∧ (∀ x ∈ s.ent.index, x.1 < 131072) ∧ (∀ r ∈ s.ent.usedRows, r < s.live.entRows + 256) ∧
      (s.arr.rows.map Prod.fst).Pairwise (· < ·)) && s.bag.save.isNone) (gathered (complete b.1 b.2.1 b.2.2 mv) (writing op (complete b.1 b.2.1 b.2.2 mv))) = true := by
    decide +kernel
  exact stores_of _ (h b hb mv (by cases mv <;> decide) op ho)

/-- Word 300 selected, with bits of it wrong, and tile 1 waiting for a spare row, n of them taken. -/
def faulty (flips : BitVec 72) (n : Nat) : State :=
  { run with
    sel := { run.sel with tally := 300 }
    tally := { run.tally with words := [(300, ⟨7, flips⟩)], sparing := [1], spared := List.range' 100 n } }

/-- The word's loss has been told. -/
def toldOf (s : State) : State := { s with tally := { s.tally with told := [300] } }

theorem witness_TallyReads : (∀ f ∈ [0, 1, 2 ^ 71, 3], StoresOk (faulty (BitVec.ofNat 72 f) 0)) ∧ StoresOk (toldOf (faulty 3 0)) ∧ run.up = true ∧
    300 ∈ (toldOf (faulty 3 0)).tally.told ∧ 300 ∉ (faulty 3 0).tally.told ∧ wfield (faulty 0 0).sel.tally 0 18 = 300 ∧
    ones 72 ((faulty 1 0).tallyWord 300).flips.toNat = 1 ∧ ones 72 ((faulty 3 0).tallyWord 300).flips.toNat = 2 ∧
    (1 ∈ (faulty 1 7).tally.sparing ∧ ((faulty 1 7).tile 1).owner = none ∧ (faulty 1 7).tally.spared.length < 8 ∧ 8 ≤ (faulty 1 8).tally.spared.length ∧
      StoresOk (faulty 1 8)) ∧ 2 ∉ (faulty 1 7).tally.sparing := by
  refine ⟨fun f hf => ?_, stores_of _ (by decide +kernel), by decide, by decide, by decide, by decide, by decide, by decide, ⟨by decide, by decide, by decide, by decide, stores_of _ (by decide +kernel)⟩, by decide⟩
  simp only [List.mem_cons, List.not_mem_nil, or_false] at hf
  rcases hf with rfl | rfl | rfl | rfl <;> exact stores_of _ (by decide +kernel)

/-- A residue error of position 1, in group 1 or in no group, with a number of transient errors before it. -/
def residue (n : Nat) : Detected := { Detected.nowhere with check := evResidue, grp := n, pos := 1, phys := 1, detail := 0 }
def failing (n trans : Nat) (s : State) : State :=
  { s with flt := { s.flt with queue := [residue n], trans := [((residue n).part, trans)] } }

/-- TRANS_LIMIT is 16 after reset. -/
theorem witness_FaultRecovery : run.flt.queue = [] ∧
    (let s := withAttempt attempt0 (failing 1 0 (withGroup group0 run))
     s.flt.queue = [residue 1] ∧ s.recoveryReady (residue 1) = false) ∧
    (∀ t ∈ [15, 16], let s := failing 1 t (withGroup group0 run)
     s.up = true ∧ s.flt.queue = residue 1 :: [] ∧ s.recoveryReady (residue 1) = true ∧ s.worn (residue 1).part = decide (t = 16) ∧
       s.needsLost (residue 1) = none ∧ ((s.rewritePart (residue 1)).retry (residue 1) []).2 = none ∧
       (residue 1).partKind = .array ∧ s.groupsAt (s.primaryOf 1) ≠ [] ∧ s.flt.lostItems = [] ∧ s.arr.spares = [32, 33] ∧ s.arr.map.length = 32 ∧
       s.physOf 1 < 34) ∧
    (let s := failing 0 16 run
     s.recoveryReady (residue 0) = true ∧ s.worn (residue 0).part = true ∧ s.needsLost (residue 0) = none ∧ s.groupsAt (s.primaryOf (residue 0).pos) = []) := by
  decide +kernel

/-- A cell of position 1 has failed in the comparison of a record, and cell 0 of position 0 fails in its repeat, or the same again. -/
def cellFault : Detected :=
  { Detected.nowhere with check := evCellParity, grp := 1, pos := 1, phys := 1, slot := 0, place := 0, work := some ⟨0, 0, 0, false⟩ }
def repeating (s : State) : State :=
  let g := { group0 with marked := [(0, 0, 0)], paused := true }
  { s with grp := { s.grp with groups := [g] }, flt := { s.flt with queue := [cellFault] } }

theorem witness_FaultRecovery_repeat :
    (let s := repeating (badCell0 (picking 1 gFresh))
     s.flt.queue = [cellFault] ∧ s.recoveryReady cellFault = true ∧ s.worn cellFault.part = false ∧ s.needsLost cellFault = none ∧
       (((s.rewritePart cellFault).retry cellFault []).2.map (fun x => (x.check == cellFault.check, x.pos, x.part == cellFault.part))) = some (true, 0, false)) ∧
    (let s := repeating (picking 1 gFresh)
     let s1 := { s with arr := { s.arr with descs := [(0, 1), (512, 1)] } }
     s1.recoveryReady cellFault = true ∧ s1.needsLost cellFault = none ∧
       (((s1.rewritePart cellFault).retry cellFault [.cellBit 0 false 0 0 0]).2.map (fun x => (x.check == cellFault.check, x.pos))) = some (true, 0)) ∧
    (let d := { cellFault with pos := 0, phys := 0 }
     let s := repeating (picking 1 gFresh)
     ((s.rewritePart d).retry d [.cellBit 0 false 0 0 0]).2.map (fun x => (x.check == d.check, x.part == d.part)) = some (true, true)) ∧
    ({ cellFault with work := none }.item = some (.cell false 0 0)) := by
  decide +kernel

/-- The cycle of array 0 at an item, with a cell that no image accounts for or not. -/
def curried (n : Nat) (bad : Bool) : State :=
  { run with
    arr := { run.arr with cells := if bad then [(0, ⟨1, false⟩)] else [] }
    flt := { run.flt with curry := run.flt.curry.set 0 n } }

theorem witness_CurryItem : (∀ n ∈ [0, 53246, 53247],
      (curried n false).up = true ∧ (curried n false).live.curryEn = true ∧ (curried n false).suspended = false ∧
        bitOf (curried n false).arr.retired.toNat 0 = false ∧ ¬((curried n false).pkg.variant.active ≤ 0 ∧ 0 < 32) ∧
        (curried n false).flt.curry.length = 34 ∧ (curried n false).flt.cycles.length = 34 ∧
        (curried n false).servedBy 0 = 0 ∧ ((curried n false).disturbAll []).itemOk 0 0 (curryItem n) = true) ∧
    (curried 0 true).itemOk 0 0 (curryItem 0) = false ∧ (curried 0 true).flt.queue = [] ∧
    (let s := curried 0 true
     let d := s.curryFault 0 0 (curryItem 0)
     ∃ x ∈ ({ s with flt := { s.flt with queue := [d] } }).flt.queue, x.part = d.part) ∧
    bitOf ({ run with arr := { run.arr with retired := 1 } }).arr.retired.toNat 0 = true ∧
    (let s := { run with pkg := { run.pkg with variant := .v16 } }
     s.pkg.variant.active ≤ 16 ∧ 16 < 32) ∧
    ((∀ p, p < 32 → run.physOf p ≠ 32) ∧ run.physOf 3 = 3 ∧ run.inService 3 = true ∧ ∀ q, q < 32 → run.physOf q = 3 → run.inService q = true → q = 3) ∧
    (255 < 256 ∧ 63 < 64 ∧ 1023 < 1024 ∧ 15 < 16 ∧ 1151 < 1152 ∧ 511 < 512) := by decide +kernel

/-- A line of zeros whose first n bytes are wrong. -/
def lineOf (n : Nat) : List Byte := List.replicate n 1 ++ List.replicate (128 - n) 0
def zeroCheck : List Byte := List.replicate 8 0

/-- The entity table with a harness copy at 0x1000000, its mirror at 0x1100000 and two spare pages at 0x1200000. -/
def guarded : State :=
  { tabled with live := { tabled.live with hcopyBase := 0x1000000, hcopySize := 8, mirror := 0x1100001, spare := 2 * 2 ^ 48 + 0x1200000 } }
/-- A line that is read again, that the last read corrected, whose page has used up its transient errors, that the other copy waits for. -/
def readAgain (a : Nat) (s : State) : State := { s with flt := { s.flt with retryLines := [a] } }
def correctedOnce (a : Nat) (s : State) : State := { s with flt := { s.flt with correctedLines := [a] } }
def wornPage (a : Nat) (s : State) : State := { s with flt := { s.flt with trans := [(memPart a, 16)] } }
def waitedFor (a : Nat) (s : State) : State := { s with flt := { s.flt with mirrorWaits := [a] } }
def noSpares (s : State) : State := { s with flt := { s.flt with pages := [(1, 0), (2, 1)] } }

theorem witness_MemoryReadReturn : (∀ s ∈ [guarded, readAgain 0x200000 guarded, correctedOnce 0x200000 guarded, wornPage 0x200000 guarded,
        readAgain 0x600000 guarded, readAgain 0x1000000 guarded, waitedFor 0x1100000 guarded, noSpares (correctedOnce 0x200000 guarded)],
      s.up = true ∧ Memory.wf s.mem = true ∧ ∀ a ∈ [0x80, 0x200000, 0x600000, 0x1000000, 0x1100000],
        (s.link.getD (s.carrier a) LinkModule.reset).open = true ∧ s.carried a = a ∧ a % 128 = 0) ∧
    (lineOf 1).length = 128 ∧ guarded.regionOf 0x80 = .plain ∧ guarded.regionOf 0x200000 = .entity 0 ∧ guarded.regionOf 0x600000 = .entity 0x400000 ∧
    guarded.regionOf 0x1000000 = .harness 0 ∧ guarded.otherCopy 0x200000 = none ∧ guarded.otherCopy 0x1000000 = some 0x1100000 ∧
    rsDecode guarded.live.correct (lineOf 0) zeroCheck = .clean ∧ rsDecode guarded.live.correct (lineOf 1) zeroCheck = .corrected (lineOf 0) ∧
    rsDecode guarded.live.correct (lineOf 0) [1, 1, 1, 1, 1, 0, 0, 0] = .uncorrectable ∧ guarded.worn (memPart 0x200000) = false ∧
    (wornPage 0x200000 guarded).worn (memPart 0x200000) = true ∧ guarded.flt.retryLines = [] ∧ guarded.flt.correctedLines = [] ∧
    guarded.flt.mirrorWaits = [] ∧ lowestFree guarded.live.spareCount (guarded.flt.pages.map Prod.snd) = some 0 ∧
    lowestFree (noSpares guarded).live.spareCount ((noSpares guarded).flt.pages.map Prod.snd) = none ∧ guarded.live.ovfBits = 0 ∧
    0x400000 + ovfSize guarded.live.ovfBits ≤ 0x400000 := by decide +kernel

/-- The line and its check bytes stand apart. -/
theorem witness_MemoryReadReturn_check : guarded.regionBase 0x200000 = some (0x200000, guarded.live.entSize) ∧
    (∀ i, i < 128 → Apart ((guarded.pageHome 0x200000 guarded.live.entSize 0x200).2) 8 (guarded.redirect 0x200000 + i)) := by
  unfold Apart
  decide +kernel

/-- A state with one logged event, AVS_ERR, whose mask bit is enabled. -/
def logged : State := after (.avsErr true) (changing 3)

theorem witness_FaultAck : logged.up = true ∧ logged.flt.logHead = 1 ∧
    ((2 : Word32) - logged.flt.logHead).toNat = 1 ∧ ((0x80000000 : Word32) - logged.flt.logHead).toNat < 2 ^ 31 ∧
    ((1 : Word32) - logged.flt.logHead).toNat = 0 ∧ 2 ^ 31 ≤ ((0x80000001 : Word32) - logged.flt.logHead).toNat ∧
    (∃ e ∈ logged.flt.log, bitOf logged.live.faultMask e.mask = true ∧ (e.index - 0).toNat < 2 ^ 31) ∧
    (∀ e ∈ logged.flt.log, bitOf logged.live.faultMask e.mask = true → 2 ^ 31 ≤ (e.index - 1).toNat) ∧ logged.flt.lostAt = none := by decide +kernel

/-- An engine in reset after a save, warm or not. -/
def sealed_ (warm : Bool) : State := after (.saveSealed 3300) (after (if warm then .warmRequest else .sag .vddSfd 499) scoring)

theorem witness_Starts : run.pwr.phase = .running ∧ saving.pwr.phase = .saving ∧ State.reset.pwr.phase = .inReset ∧ 3200 ≤ 3200 ∧ (3199 < 3200) ∧
    run.ing.window = [] ∧ run.sagTrips .vddSfd 499 = true ∧ saving.sagTrips .sagN 0 = true ∧ State.reset.sagTrips .vppSfd 1649 = true ∧
    State.reset.sagTrips .vddmSfd 739 = true ∧ run.tap.selected ≠ tapExtest ∧ (500 ≤ 550 ∧ 770 ≤ 800 ∧ 1710 ≤ 1800) ∧
    (∀ w ∈ [true, false], (sealed_ w).pwr.phase = .inReset ∧ (sealed_ w).bag.save.isSome = true ∧ (sealed_ w).bag.sealed = true ∧
      (sealed_ w).bag.consumed = false ∧ ((sealed_ w).bag.save.map (fun sv => decide (sv.cause = 5))) = some w ∧ (sealed_ w).pwr.vddmKept = w) ∧
    State.reset.bag.save = none ∧ (after (.saveIncomplete) saving).bag.sealed = false := by decide +kernel

/-- A replay due of one record, dispatched before. -/
def replaying : State :=
  let p := { place0 with dispatched := true, replay := true, grp := 1 }
  let s := withHead (head0 [p]) (withJob { jobOf 1 with next := 1 } (withGroup group0 (withImage ringed)))
  { s with pwr := { s.pwr with replayDue := true } }

theorem witness_EngineResetAndReplay : scoring.up = true ∧ scoring.gait.requested = 0 ∧ (changing 1).gait.requested ≠ 0 ∧ (changing 1).jobs.patches = [] ∧ scoring.jobs.patches = [] ∧ run.pwr.replayDue = false ∧
    (let s := { replaying with pwr := { replaying.pwr with savedDigest := [1] } }
     s.replayGate = false) ∧
    replaying.up = true ∧ replaying.pwr.replayDue = true ∧ replaying.replayGate = true ∧
    (let s := { replaying with acc := run.acc }
     s.replays = [] ∧ ∀ g ∈ s.grp.groups, s.finalGen g = g.gen) ∧
    replaying.grp.groups = [group0] ∧
    replaying.replays = [({ jobOf 1 with next := 1 }, head0 [{ place0 with dispatched := true, replay := true, grp := 1 }],
      { place0 with dispatched := true, replay := true, grp := 1 })] ∧
    replaying.inHand 0 0 = false ∧ (0 = group0.gen) ∧
    (match replaying.fate { jobOf 1 with next := 1 } (head0 [place0]) { place0 with dispatched := true, replay := true, grp := 1 } with
      | .score g => g == group0
      | _ => false) = true := by decide +kernel

/-- The record's model is suspended: it is voided. -/
theorem witness_EngineResetAndReplay_void :
    let j : Job := { jobOf 1 with next := 1 }
    let p : JobPlace := { place0 with dispatched := true, replay := true, grp := 1 }
    let g : Group := { group0 with suspended := [0] }
    let s : State := { replaying with grp := { replaying.grp with groups := [g] } }
    s.up = true ∧ s.pwr.replayDue = true ∧ s.replayGate = true ∧ s.replays = [(j, head0 [p], p)] ∧ (∀ x ∈ s.jobs.jobs, x.owed = []) ∧
      s.inHand 0 0 = false ∧ (match s.fate j (head0 [p]) p with
        | .void n => n == stVoidSuspended
        | _ => false) = true ∧ (head0 [p]).headBad = false ∧ (head0 [p]).blockBad = false ∧
      s.head 5 0 = some (head0 [p]) ∧ (head0 [p]).placeOf 0 = some p ∧ j.stream = 5 ∧ j.seqOf 0 = 0 ∧ p.settled = false ∧ s.finalGen g = g.gen := by
  decide +kernel

/-! ## The spec's worked examples -/

/-- Feature 12 of QL-7 (chapter 02, Worked conversions): SCALE 0.0625, ZERO 0x0100, with stream 0x040's marker. -/
def dwell (x : Nat) : Nat := (quantise (BitVec.ofNat 32 x) (BitVec.ofNat 128 (0x3D800000 + 0x100 * 2 ^ 64)) (some 0xC61C3C00)).toNat

theorem test_worked_conversions :
    [0x42162000, 0xC0420000, 0xC17E6666, 0x80000000, 0x459C4000, 0xFF800000, 0x7FC00000, 0xC61C3C00].map dwell =
      [0x0359, 0x00CF, 0x0002, 0x0100, 0xFFFE, 0x0000, 0xFFFF, 0xFFFF] := by decide +kernel

/-- Chapter 02: s = 2⁻⁸, z = 0x8000, v = −37 in a block of scale 3/256. -/
theorem test_block_scaled_code : quantiseInt8 (-37) 0x3C400000 (BitVec.ofNat 128 (0x3B800000 + 0x8000 * 2 ^ 64)) = 0x7F91 := by decide +kernel

/-- Chapter 09, the draws of pass 0 with rk = 0: a clamp, a drop and a small offset. -/
theorem test_perturbed_codes : recordKey 0x00000C3504000000 0x040 0xC35 = 0 ∧ recordKey 0x00000C3504000000 0x040 0xC36 = 0x300000000 ∧
    perturb 0x0002 0 0 100 0 0 = 0x0000 ∧ perturb 0x0210 1 0x8000 50 0 0 = 0xFFFF ∧ perturb 0x000C 2 0x0400 3 0 0 = 0x000C := by decide +kernel

/-- Chapter 03, the worked slot of QL-7: features 12, 40 and 7 and W5 of a record, and the cells of the slot. -/
def qlRecord (f12 f40 f7 : Nat) (w5 : Word32) : Sample :=
  ⟨fun i => BitVec.ofNat 16 (if i = 12 then f12 else if i = 40 then f40 else if i = 7 then f7 else 0xFFFF), fun _ => w5, fun _ => 1,
    fun n => if n = 5 then 0x40088 else 0⟩
def qlCell (i : Nat) : BitVec 42 :=
  BitVec.ofNat 42 ([0x02E000C1, 0x0000000500000287, 0x56, 0x3FC00056, 0x00030071].getD i 0)

theorem test_worked_slot : slotWord (qlRecord 0x0359 0x0007 0xFFFF 0x7FC00000) qlCell = 0x000F ∧
    slotWord (qlRecord 0x02E0 0x0012 0x0002 0x3FBFFFFF) qlCell = 0x0003 ∧
    slotWord (qlRecord 0x02DF 0x012C 0x0004 0x40000000) qlCell = 0x001E := by decide +kernel

/-- Chapter 04, Worked lookup with ties: the rows of slot position 3 of bank 9. -/
def ckRow (row care key payload : Nat) : Nat × BridgeRow :=
  (row, sealRow ⟨BitVec.ofNat 64 key, BitVec.ofNat 64 care, BitVec.ofNat 32 payload, 3, true, false, 0, false, false, row, none⟩)
def ckRows : List (Nat × BridgeRow) := [ckRow 28 7 6 0x40020003, ckRow 29 0x32 0x32 0x40000001, ckRow 31 3 1 0x40000002,
  ckRow 35 0 0 0x40010001, ckRow 37 0x102 0x102 0x40020004, ckRow 40 6 6 0x40020002]

theorem test_worked_lookup_enabled : (ckRows.filter (fun x => x.2.passes 0x36)).map Prod.fst = [28, 29, 35, 37, 40] ∧
    (ckRows.filter (fun x => x.2.hits 0x36)).map Prod.fst = [28, 29, 35, 40] := by decide +kernel

/-- R98 on the four matching rows: 28, 29, 40, 35. -/
theorem test_worked_lookup_priority :
    [(28, 29), (29, 40), (40, 35)].all (fun p =>
      let at' := fun n => (ckRows.find? (fun x => x.1 == n)).getD (ckRow 0 0 0 0)
      rowBefore (at' p.1) (at' p.2) && !rowBefore (at' p.2) (at' p.1)) = true := by decide +kernel

/-- Chapter 05, R139: a word of TR-40 saturates, and a later record subtracts from the limit. -/
theorem test_worked_saturation : saturate max48 (140737480000000 + 9000000) = (140737488355327, true) ∧
    saturate max48 (140737488355327 + -5000000) = (140737483355327, false) := by decide +kernel

/-- Chapter 05, One KD-2 record: index 85 of a job with first tile 0x020, certified lane 0 and standard lane 1. -/
theorem test_worked_tally_words :
    (({ votes with vote := false, lanes := 2, cert := 1 } : ModelDef).addends (256 * 0x20 + 85 * 3) [45256840, 25347]).map
      (fun x => (x.word, x.wide, x.value)) = [(8447, true, 45256840), (8449, false, 25347)] := by decide +kernel

theorem test_worked_wide_sum : (let r := run.addWide false [] ⟨8447, true, 45256840⟩ ⟨[], []⟩
    (r.1.readTally 8447).1 = 0x02B29088 ∧ (r.1.readTally 8448).1 = 0) := by decide +kernel

/-- Chapter 02, Worked score: the three terms of lane 1, of scale groups 7 and 300. -/
theorem test_worked_score :
    (let a := { run.arr with scales := [(scaleAt 0 0, some ⟨false, 3, 7, ⟨12, 0x8000⟩⟩), (scaleAt 0 1, some ⟨false, 3, 300, ⟨3, 0x0400⟩⟩)] }
     [0x04078A3C, 0x04077F00, 0x052C0011].map (fun p => a.term 0 false 3 (BitVec.ofNat 32 p)) =
       [(1, 31440), (1, -3072), (1, -3021)]) := by decide +kernel

/-- Chapter 17, reading what the worked examples built: a cell and its parity, and the catch-all row. -/
def reading : State :=
  { run with
    sel := { run.sel with fret := 0xA83, row := 0x240902 }
    arr := { run.arr with
      cells := [(cellAt 3 false 42 0, ⟨0x02E000C1, true⟩)]
      rows := [(rowAt 2 9 36, sealRow ⟨0, 0, 0x40010000, 3, true, false, 0, false, false, 35, none⟩)] } }

theorem test_worked_cell_window : reading.readReg 0x6008 = 0x0000040002E000C1 := by decide +kernel
theorem test_worked_row_window : reading.readReg 0x6058 = 0x1023201340010000 := by decide +kernel

/-- R169: the check value over the nine ASCII bytes "123456789". -/
theorem test_crc_check_value : crc32c [0x31, 0x32, 0x33, 0x34, 0x35, 0x36, 0x37, 0x38, 0x39] = 0xE3069283 := by decide +kernel

end Sys2Proof.Tests
end

section
/-! PROOFS. The slot word of a sample (O49): its bits are the cells' bits, and a wide pair compares as real numbers. -/

namespace Sys2Proof.SlotWords
open Sys2Proof Sys2Proof.Machine

/-! ## The sum of flags at their places -/

/-- The number whose bits below n are those of f, summed as slotWord sums the bits of its cells (R69). -/
def packBits (f : Nat → Bool) (n : Nat) : Nat := (List.range n).foldl (fun a i => a + (flag (f i) <<< i)) 0

theorem packBits_succ (f : Nat → Bool) (n : Nat) : packBits f (n + 1) = 2 ^ n * flag (f n) + packBits f n := by
  simp only [packBits, List.range_succ, List.foldl_append, List.foldl_cons, List.foldl_nil]
  rw [Nat.shiftLeft_eq, Nat.add_comm, Nat.mul_comm]

theorem flag_le_one (b : Bool) : flag b ≤ 1 := by cases b <;> decide

theorem testBit_zero_flag (b : Bool) : (flag b).testBit 0 = b := by cases b <;> rfl

theorem packBits_lt (f : Nat → Bool) (n : Nat) : packBits f n < 2 ^ n := by
  induction n with
  | zero => exact Nat.one_pos
  | succ n ih =>
    have hflag := Nat.mul_le_mul_left (2 ^ n) (flag_le_one (f n))
    rw [packBits_succ, Nat.pow_succ]
    omega

theorem testBit_packBits {f : Nat → Bool} {n i : Nat} (hi : i < n) : (packBits f n).testBit i = f i := by
  induction n with
  | zero => exact absurd hi (Nat.not_lt_zero i)
  | succ n ih =>
    rw [packBits_succ, Nat.testBit_two_pow_mul_add _ (packBits_lt f n)]
    obtain hlt | rfl := Nat.lt_succ_iff_lt_or_eq.mp hi
    · rw [if_pos hlt, ih hlt]
    · rw [if_neg (Nat.lt_irrefl i), Nat.sub_self, testBit_zero_flag]

theorem slotWord_eq_packBits (x : Sample) (cfg : Nat → BitVec 42) :
    slotWord x cfg = BitVec.ofNat 64 (packBits (cellBitOf x cfg) 64) := rfl

theorem slotWord_getLsbD (x : Sample) (cfg : Nat → BitVec 42) {i : Nat} (hi : i < 64) :
    (slotWord x cfg).getLsbD i = cellBitOf x cfg i := by
  rw [slotWord_eq_packBits, BitVec.getLsbD_ofNat, testBit_packBits hi, decide_eq_true hi, Bool.true_and]

/-! ## The bit of a cell of each mode -/

section
variable {x : Sample} {cfg : Nat → BitVec 42} {i j : Nat}

theorem cellBitOf_off (h : cellMode (cfg i) = modeOff) : cellBitOf x cfg i = false := by
  simp only [cellBitOf, if_pos h]

theorem cellBitOf_narrow (h : cellMode (cfg i) = modeNarrow) :
    cellBitOf x cfg i = narrowBit (x.narrow (cellFeature (cfg i))) (cellThresh (cfg i)) (cellDefdir (cfg i)) := by
  have notOff : ¬ cellMode (cfg i) = modeOff := by rw [h]; decide
  simp only [cellBitOf, if_neg notOff, if_pos h]

theorem cellBitOf_cat (h : cellMode (cfg i) = modeCat) :
    cellBitOf x cfg i = catBit (x.narrow (cellFeature (cfg i))) (x.mask (cellMask (cfg i))) (cellDefdir (cfg i)) := by
  have notOff : ¬ cellMode (cfg i) = modeOff := by rw [h]; decide
  have notNarrow : ¬ cellMode (cfg i) = modeNarrow := by rw [h]; decide
  simp only [cellBitOf, if_neg notOff, if_neg notNarrow, if_pos h]

/-- A CAT cell takes DEFDIR for every code from 0x0100 on (R61). -/
theorem catBit_eq (c : Code) (m : BitVec 256) (d : Bool) :
    catBit c m d = if 0x100 ≤ c.toNat then d else m.getLsbD c.toNat := by
  simp only [catBit, ← Nat.not_lt, ite_not]

/-- What the node of the wide pair j compares to (R64, R65): the even cell's field is the low half. -/
def pairThresh (cfg : Nat → BitVec 42) (j : Nat) : Word32 :=
  BitVec.ofNat 32 (65536 * cellThresh (cfg (2 * j + 1)) + cellThresh (cfg (2 * j)))

/-- The result of the node of the wide pair j. -/
def pairBit (x : Sample) (cfg : Nat → BitVec 42) (j : Nat) : Bool :=
  let f := cellFeature (cfg (2 * j)) % 32
  wideBit (x.wide f) (pairThresh cfg j) (x.kind f) (cellDefdir (cfg (2 * j)))

/-- A WIDE cell of the pair j, even or odd, carries the result of the pair's node. -/
theorem cellBitOf_wide (hpair : i / 2 = j) (h : cellMode (cfg i) = modeWide) : cellBitOf x cfg i = pairBit x cfg j := by
  have notOff : ¬ cellMode (cfg i) = modeOff := by rw [h]; decide
  have notNarrow : ¬ cellMode (cfg i) = modeNarrow := by rw [h]; decide
  have notCat : ¬ cellMode (cfg i) = modeCat := by rw [h]; decide
  simp only [cellBitOf, if_neg notOff, if_neg notNarrow, if_neg notCat, hpair, Nat.mul_comm j 2, pairBit, pairThresh,
    Nat.add_comm (cellThresh (cfg (2 * j)))]

end

/-! ## Wide features -/

theorem pow2Gap_mul_zpow_min (a b : Int) : (pow2Gap a b : Rat) * 2 ^ min a b = 2 ^ a := by
  have hexp : ((a - b).toNat : Int) + min a b = a := by omega
  rw [pow2Gap, Rat.intCast_pow, Rat.intCast_ofNat, ← Rat.zpow_natCast, ← Rat.zpow_add (by decide), hexp]

theorem ratMul_le_iff {a b c : Rat} (hc : 0 < c) : a * c ≤ b * c ↔ a ≤ b :=
  ⟨fun h => Rat.le_of_mul_le_mul_right h hc, fun h => Rat.mul_le_mul_of_nonneg_right h (Rat.le_of_lt hc)⟩

/-- The exact comparison of dyadic numbers is the order of the numbers m · 2^e. -/
theorem dyadic_le_eq (a b : Machine.Dyadic) : a.le b = decide ((a.m : Rat) * 2 ^ a.e ≤ (b.m : Rat) * 2 ^ b.e) := by
  have hpos : (0 : Rat) < 2 ^ min a.e b.e := Rat.zpow_pos (by decide)
  have ha := pow2Gap_mul_zpow_min a.e b.e
  have hb := pow2Gap_mul_zpow_min b.e a.e
  rw [Int.min_comm] at hb
  rw [Machine.Dyadic.le, decide_eq_decide, ← ha, ← hb, ← Rat.mul_assoc, ← Rat.mul_assoc, ratMul_le_iff hpos,
    ← Rat.intCast_mul, ← Rat.intCast_mul, Rat.intCast_le_intCast]

theorem wideBit_real_missing {w t : Word32} {d : Bool} (hw : readReal32 w = .nan) : wideBit w t 1 d = d := by
  have missing : wideMissing w 1 = true := by rw [wideMissing, if_pos rfl, beq_iff_eq, hw]
  rw [wideBit, if_pos missing]

theorem wideBit_real_present {w t : Word32} {d : Bool} (hw : readReal32 w ≠ .nan) :
    wideBit w t 1 d = (readReal32 t).le (readReal32 w) := by
  have present : ¬ wideMissing w 1 = true := by rwa [wideMissing, if_pos rfl, beq_iff_eq]
  rw [wideBit, if_neg present, wideGe, if_pos rfl]

theorem wideBit_int_missing {w t : Word32} {k : Nat} {d : Bool} (hk : k ≠ 1) (hw : w = 0x80000000) :
    wideBit w t k d = d := by
  have missing : wideMissing w k = true := by rw [wideMissing, if_neg hk, beq_iff_eq, hw]
  rw [wideBit, if_pos missing]

theorem wideBit_int_present {w t : Word32} {k : Nat} {d : Bool} (hk : k ≠ 1) (hw : w ≠ 0x80000000) :
    wideBit w t k d = decide (t.toInt ≤ w.toInt) := by
  have present : ¬ wideMissing w k = true := by rwa [wideMissing, if_neg hk, beq_iff_eq]
  rw [wideBit, if_neg present, wideGe, if_neg hk]

section
variable {w t : Word32} {d : Bool}

theorem wideBit_fin_fin {v u : Machine.Dyadic} (hw : readReal32 w = .fin v) (ht : readReal32 t = .fin u) :
    wideBit w t 1 d = decide ((u.m : Rat) * 2 ^ u.e ≤ (v.m : Rat) * 2 ^ v.e) := by
  rw [wideBit_real_present (by rw [hw]; nofun), hw, ht]
  exact dyadic_le_eq u v

theorem wideBit_inf_fin {neg : Bool} {u : Machine.Dyadic} (hw : readReal32 w = .inf neg) (ht : readReal32 t = .fin u) :
    wideBit w t 1 d = !neg := by
  rw [wideBit_real_present (by rw [hw]; nofun), hw, ht]
  cases neg <;> rfl

theorem wideBit_fin_inf {neg : Bool} {v : Machine.Dyadic} (hw : readReal32 w = .fin v) (ht : readReal32 t = .inf neg) :
    wideBit w t 1 d = neg := by
  rw [wideBit_real_present (by rw [hw]; nofun), hw, ht]
  cases neg <;> rfl

theorem wideBit_inf_inf {n m : Bool} (hw : readReal32 w = .inf n) (ht : readReal32 t = .inf m) :
    wideBit w t 1 d = (m || !n) := by
  rw [wideBit_real_present (by rw [hw]; nofun), hw, ht]
  cases n <;> cases m <;> rfl

end

/-! ## The statement -/

/-- Settles O49: every bit is that of its cell, and the bit of a cell of each mode is given by its own lemma. -/
theorem cellsOfASlotWord : Obligations.CellsOfASlotWord := by
  unfold Obligations.CellsOfASlotWord
  intro x cfg
  refine ⟨fun i hi hmode => ?off, fun i hi hmode => ?narrow, fun i hi hmode => ?cat, fun j hj hEven hOdd => ?wide,
    fun i hi => slotWord_getLsbD x cfg hi⟩
  case off => exact (slotWord_getLsbD x cfg hi).trans (cellBitOf_off hmode)
  case narrow => exact (slotWord_getLsbD x cfg hi).trans (cellBitOf_narrow hmode)
  case cat => exact ((slotWord_getLsbD x cfg hi).trans (cellBitOf_cat hmode)).trans (catBit_eq _ _ _)
  case wide =>
    have even : (slotWord x cfg).getLsbD (2 * j) = pairBit x cfg j :=
      (slotWord_getLsbD x cfg (by omega)).trans (cellBitOf_wide (by omega) hEven)
    have odd : (slotWord x cfg).getLsbD (2 * j + 1) = pairBit x cfg j :=
      (slotWord_getLsbD x cfg (by omega)).trans (cellBitOf_wide (by omega) hOdd)
    intro f thresh
    have node : (slotWord x cfg).getLsbD (2 * j) = wideBit (x.wide f) thresh (x.kind f) (cellDefdir (cfg (2 * j))) := even
    refine ⟨even.trans odd.symm, fun hk hw => node.trans ?_, fun hk v t hw ht => node.trans ?_,
      fun hk neg t hw ht => node.trans ?_, fun hk neg v hw ht => node.trans ?_, fun hk n m hw ht => node.trans ?_,
      fun hk hw => node.trans (wideBit_int_missing hk hw), fun hk hw => node.trans (wideBit_int_present hk hw)⟩
    · rw [hk, wideBit_real_missing hw]
    · rw [hk, wideBit_fin_fin hw ht]
    · rw [hk, wideBit_inf_fin hw ht]
    · rw [hk, wideBit_fin_inf hw ht]
    · rw [hk, wideBit_inf_inf hw ht]

end Sys2Proof.SlotWords
end

section
/-! PROOFS. The Bridge search (O51) fails as stated: a Tandem group wider than 16 arrays counts what a twin finds. -/

namespace Sys2Proof.TwinSearch
open Sys2Proof Sys2Proof.Machine

/-! ## What a search counts -/

theorem enabled_of_rows_nil {a : Arrays} (h : a.rows = []) (phys bank : Nat) (plane : Bool) (p : Nat) (w : Word) :
    a.enabled phys bank plane p w = [] := by
  simp only [Arrays.enabled, Arrays.planeRows, sparseRange, h, List.filter_nil, List.map_nil]

/-- A position inside the span of the group counts its miss, the twin of another position or not (R501). -/
theorem searchSlot_miss_counted {s : State} {a : Attempt} {m : ModelDef} {pos bank slot : Nat} {w : Word} {d : BitVec 10}
    (inSpan : pos < a.base + a.size)
    (noRows : s.arr.enabled (s.physOf pos) bank a.plane (slot % 16) w = []) :
    (s.searchSlot a pos bank slot w d m).state.grp.miss = smod 0 s.grp.miss m.model (fun n => satAdd 32 n 1) := by
  have own : decide (a.base + a.size ≤ pos) = false := decide_eq_false (Nat.not_le.mpr inSpan)
  simp [State.searchSlot, own, noRows, rowFault, matchesOf, foundOf, Groups.countFound]

/-- In Tandem the twin's miss is counted where the twin's position lies inside the span of the group, although the position
that BRIDGE_SEARCH names has no slot to search. -/
theorem searchBoth_twin_miss_counted {s : State} {a : Attempt} {m : ModelDef} {pos bank n slot : Nat} {w : Word}
    {d : BitVec 10} (tandem : s.twinned a = true) (idle : a.target pos bank n = none)
    (twin : a.target (pos + 16) bank n = some (slot, w, d)) (inSpan : pos + 16 < a.base + a.size)
    (noRows : s.arr.enabled (s.physOf (pos + 16)) bank a.plane (slot % 16) w = []) :
    (s.searchBoth a pos bank n m).state.grp.miss = smod 0 s.grp.miss m.model (fun c => satAdd 32 c 1) := by
  have primary : s.searchToken a pos bank n m = ⟨a, s, none⟩ := by simp only [State.searchToken, idle]
  have second : s.searchToken a (pos + 16) bank n m = s.searchSlot a (pos + 16) bank slot w d m := by
    simp only [State.searchToken, twin]
  simp only [State.searchBoth, primary, tandem, if_true, second]
  exact searchSlot_miss_counted inSpan noRows

/-- An attempt once a bank of a position has taken its next token. -/
def nextToken (a : Attempt) (pos bank : Nat) : Attempt :=
  { a with tokens := sput a.tokens (pos * 16 + bank) (a.tokensOf pos bank + 1) }

/-- A search that is due takes the token and searches, in Tandem both banks (R95, R425). -/
theorem exec_bridgeSearch_of_due {s : State} {a : Attempt} {m : ModelDef} {id pos bank : Nat} (up : s.up = true)
    (found : s.attempt id = some a) (inGroup : pos < a.size) (model : s.attemptModel a = some m)
    (serves : s.inService (a.base + pos) = true) (due : a.tokenDue (a.base + pos) (a.tokensOf (a.base + pos) bank) = true) :
    let r := s.searchBoth (nextToken a (a.base + pos) bank) (a.base + pos) bank (a.tokensOf (a.base + pos) bank) m
    exec (.bridgeSearch id pos bank []) s = .next (r.state.putAttempt r.attempt r.fault) := by
  have enabled : ¬ (s.up = false ∨ a.size ≤ pos ∨ s.inService (a.base + pos) = false ∨
      a.tokenDue (a.base + pos) (a.tokensOf (a.base + pos) bank) = false) := by
    simp [up, serves, due, inGroup]
  show execBridgeSearch id pos bank [] s = _
  simp only [execBridgeSearch, found, if_neg enabled, model]
  rfl

theorem putAttempt_grp_miss (s : State) (a : Attempt) (fault : Option Detected) :
    (s.putAttempt a fault).grp.miss = s.grp.miss := by
  cases fault with
  | none => rfl
  | some d =>
    simp only [State.putAttempt, State.failAttempt]
    split <;> rfl

/-! ## A Tandem group of 17 arrays -/

/-- A vote model of two classes. -/
def wideModel : ModelDef where
  model := 0
  vote := true
  lanes := 0
  cert := 0
  classes := 2
  missVoid := false
  master := 0
  scale := []
  seed := 0
  tremolo := []
  cost := []
  wideKinds := []

/-- A group at positions 0 to 16: position 16 is its last one and the twin of its first. -/
def wideGroup : Group := { (⟨0, 17, false, [], [0]⟩ : GroupDef).newGroup 1 false with tandem := true }

/-- A job of the model. -/
def wideJob : Job := { State.reset.newJob 0 0 with model := some wideModel }

/-- An attempt of the group whose only slot is slot 0 of position 16, used and of link 0. -/
def wideAttempt : Attempt :=
  { State.reset.newAttempt wideGroup wideJob ⟨0, none, 0, 0, 0, 0, [], [], false, false, []⟩ 0 0 false wideModel with
    words := [(4096, 5)], descs := [(4096, 1)] }

/-- The attempt in flight in an engine whose arrays hold no row. -/
def wideState : State :=
  { State.reset with
    pwr := { State.reset.pwr with phase := .running }
    jobs := { State.reset.jobs with jobs := [wideJob] }
    grp := { State.reset.grp with groups := [wideGroup], attempts := [wideAttempt] } }

/-- What O51 asks of a search holds of this one. -/
theorem wide_premises : wideState.up = true ∧ wideState.attempt 0 = some wideAttempt ∧ 0 < wideAttempt.size ∧
    wideState.attemptModel wideAttempt = some wideModel ∧ wideState.inService (wideAttempt.base + 0) = true ∧
    wideAttempt.tokenDue (wideAttempt.base + 0) (wideAttempt.tokensOf (wideAttempt.base + 0) 0) = true := by decide +kernel

theorem wide_no_rows (phys bank : Nat) (plane : Bool) (p : Nat) (w : Word) :
    wideState.arr.enabled phys bank plane p w = [] := enabled_of_rows_nil rfl phys bank plane p w

/-- The search counts a miss of the model, and it is the one of position 16. -/
theorem wide_miss_counted {t : State} (ran : exec (.bridgeSearch 0 0 0 []) wideState = .next t) : t.grp.miss = [(0, 1)] := by
  obtain ⟨up, found, inGroup, model, serves, due⟩ := wide_premises
  have searched := exec_bridgeSearch_of_due up found inGroup model serves due
  have isNext := Host.Outcome.next.inj (ran.symm.trans searched)
  have tandem : wideState.twinned (nextToken wideAttempt 0 0) = true := by decide +kernel
  have idle : (nextToken wideAttempt 0 0).target 0 0 0 = none := by decide +kernel
  have twin : (nextToken wideAttempt 0 0).target (0 + 16) 0 0 = some (0, 5, 1) := by decide +kernel
  have inSpan : 0 + 16 < (nextToken wideAttempt 0 0).base + (nextToken wideAttempt 0 0).size := by decide
  rw [isNext, putAttempt_grp_miss]
  exact searchBoth_twin_miss_counted tandem idle twin inSpan (wide_no_rows _ _ _ _ _)

/-- Refutes O51: log entry 78 leaves a twin out of the counters of R501, and the model takes for a twin a position beyond
the span of the group. R423 keeps a Tandem group to 16 arrays, but no premise says so: in a Tandem group of 17 the twin of
the first position is the last position, and its miss is counted. No run reaches such a group; the premise that a Tandem
attempt has at most 16 positions would leave it out. -/
theorem not_bridgeSearch : ¬ Obligations.BridgeSearch := by
  unfold Obligations.BridgeSearch
  rintro ⟨-, -, search, -⟩
  obtain ⟨up, found, inGroup, model, serves, due⟩ := wide_premises
  obtain ⟨clean, -⟩ := search 0 0 0 wideAttempt wideModel wideState up found inGroup model serves due
  obtain ⟨t, ran, -, ⟨-, -, uncounted⟩, -⟩ := clean (by
    intro q _ x hx
    dsimp only at hx
    split at hx
    · cases hx
    · rw [wide_no_rows] at hx
      cases hx)
  have idle : wideAttempt.target (wideAttempt.base + 0) 0 (wideAttempt.tokensOf (wideAttempt.base + 0) 0) = none := by
    decide +kernel
  rw [wide_miss_counted ran, idle] at uncounted
  exact absurd uncounted (by decide +kernel)

end Sys2Proof.TwinSearch
end

section
/-! PROOFS. Acceptance in sequence order (O36): which record of a stream is accepted, and where its accept cursor stands. -/

namespace Sys2Proof.InOrder
open Sys2Proof Sys2Proof.Machine Sys2Proof.Safety Sys2Proof.Laws

/-! ## Streams that have started -/

section
variable {s : State} {st : Nat}

/-- A change that leaves its stream started never unlists it, so that it reads back whatever the form of the store. -/
theorem modStream_stream_of_started {f : Stream → Stream} (started : (f (s.stream st)).started = true) (k : Nat) :
    (s.modStream st f).stream k = if k = st then f (s.stream st) else s.stream k := by
  have listed : f (s.stream st) ≠ Stream.reset := by
    intro unlisted
    rw [unlisted] at started
    exact absurd started (by decide)
  show sget Stream.reset (sset Stream.reset s.ing.streams st (f (s.stream st))) k = _
  rw [sset, if_neg listed]
  exact sget_sput s.ing.streams

theorem window_key {sq : Word32} {w : WindowRecord} (found : s.window st sq = some w) : w.stream = st ∧ w.seq = sq := by
  simpa using List.find?_some found

theorem inWindow_eq_zero_iff : s.inWindow st = 0 ↔ ∀ x ∈ s.ing.window, x.stream ≠ st := by
  simp [State.inWindow, List.filter_eq_nil_iff]

end

/-! ## The pump of a quiet state -/

section
variable {s t : State} {fs : List Part}

theorem ing_eq_of_onlyChanges (frame : OnlyChanges fs s t) (kept : Part.ing ∉ fs) : t.ing = s.ing := by
  simpa [mask, kept] using congrArg State.ing frame

theorem acc_eq_of_onlyChanges (frame : OnlyChanges fs s t) (kept : Part.acc ∉ fs) : t.acc = s.acc := by
  simpa [mask, kept] using congrArg State.acc frame

theorem mem_eq_of_onlyChanges (frame : OnlyChanges fs s t) (kept : Part.mem ∉ fs) : t.mem = s.mem := by
  simpa [mask, kept] using congrArg State.mem frame

theorem fillLanes_of_no_waiters (noWaiters : s.laneWaiters = []) (n : Nat) : s.fillLanes n = s := by
  cases n with
  | zero => rfl
  | succ n => simp [State.fillLanes, noWaiters, firstLane]

/-- Where nothing waits, the pump admits no frame and fills no lane (R182, R189). -/
theorem pump_of_quiet (quiet : Quiet s) : s.pump = s.refreshHeld := by
  obtain ⟨noFrames, noWaiters⟩ := quiet
  simp [State.pump, noFrames, State.pumpModule, fillLanes_of_no_waiters noWaiters]

theorem pump_of_quiet_frame (quiet : Quiet s) : OnlyChanges [.pwr, .out] s s.pump := by
  rw [pump_of_quiet quiet]
  exact State.refreshHeld_frame s (OnlyChanges.refl _ _) (by decide) (by decide)

theorem quiet_of_fewer_records (quiet : Quiet s) (rx : t.ing.rx = s.ing.rx) (pairs : t.ing.pairs = s.ing.pairs)
    (fewer : ∀ x ∈ t.ing.window, x ∈ s.ing.window) : Quiet t := by
  obtain ⟨noFrames, noWaiters⟩ := quiet
  refine ⟨rx.trans noFrames, ?_⟩
  simp only [State.laneWaiters, List.append_eq_nil_iff, List.filterMap_eq_nil_iff] at noWaiters ⊢
  obtain ⟨noRecords, noScales⟩ := noWaiters
  exact ⟨fun x hx => noRecords x (fewer x hx), pairs ▸ noScales⟩

end

/-! ## The record that is accepted -/

section
variable {s : State} {w : WindowRecord} {st p : Nat} {b : Option Nat}

theorem ready_of_acceptable {x : WindowRecord × Nat × Option Nat} (h : s.acceptable st = some x) :
    ∃ w, s.window st (s.stream st).accept = some w ∧ w.phase = .ready := by
  unfold State.acceptable at h
  split at h
  · cases h
  · split at h
    · cases h
    · next w found =>
      split at h
      · cases h
      · next passes => exact ⟨w, found, by simpa using (not_or.mp passes).1⟩

/-- A record that meets every condition of acceptance takes a head place, and a feature block unless it is voided (R330). -/
theorem acceptable_of_ready (up : s.up = true) (vhold : 3200 ≤ s.pwr.vholdMv)
    (found : s.window st (s.stream st).accept = some w) (ready : w.phase = .ready)
    (energy : s.energyAllows (w.void == 0) = true) (place : s.acc.freeHead = some p)
    (block : w.void = 0 → s.acc.freeBlock.isSome = true) :
    ∃ b, s.acceptable st = some (w, p, b) ∧ (b.isSome = true ↔ w.void = 0) := by
  have powered : ¬ (s.up = false ∨ s.vholdOk = false) := by simp [up, State.vholdOk, vhold]
  have passes : ¬ (w.phase ≠ .ready ∨ s.energyAllows (w.void == 0) = false) := by simp [ready, energy]
  simp only [State.acceptable, if_neg powered, found, if_neg passes, place]
  by_cases valid : w.void = 0
  · obtain ⟨b, free⟩ := Option.isSome_iff_exists.mp (block valid)
    exact ⟨some b, by simp [valid, free], by simp [valid]⟩
  · exact ⟨none, by simp [valid], by simp [valid]⟩

theorem exec_acceptance_of_acceptable (h : s.acceptable st = some (w, p, b)) :
    exec (.acceptance st) s = .next ((s.accept w p b).writeAccept st).pump := by
  show execAcceptance st s = _
  simp only [execAcceptance, h]

theorem acceptable_of_exec_acceptance {t : State} (ran : exec (.acceptance st) s = .next t) (moved : t ≠ s) :
    ∃ x, s.acceptable st = some x := by
  have result : execAcceptance st s = .next t := ran
  cases h : s.acceptable st with
  | none =>
    simp only [execAcceptance, h] at result
    exact absurd (Host.Outcome.next.inj result).symm moved
  | some x => exact ⟨x, rfl⟩

theorem accept_stream (started : (s.stream w.stream).started = true) (k : Nat) :
    (s.accept w p b).stream k = if k = w.stream then (s.stream w.stream).accepted else s.stream k := by
  unfold State.accept
  exact modStream_stream_of_started (f := Stream.accepted) started k

end

/-! ## The accept cursor in memory (R331) -/

section
variable {s : State} {st : Nat}

/-- When R331 writes the accept cursor of a stream. -/
def CursorDue (s : State) (st : Nat) : Prop :=
  s.live.accEn = true ∧ (64 ≤ (s.stream st).unwritten ∨ ∀ x ∈ s.ing.window, x.stream ≠ st)

theorem writeAccept_of_due (due : CursorDue s st) :
    s.writeAccept st = (s.write (s.live.accAddr + 4 * st) (leBytes 4 (s.stream st).accept.toNat)).modStream st
      (fun y => { y with unwritten := 0 }) := by
  rw [CursorDue, ← inWindow_eq_zero_iff] at due
  exact if_pos due

theorem writeAccept_of_not_due (idle : ¬CursorDue s st) : s.writeAccept st = s := by
  rw [CursorDue, ← inWindow_eq_zero_iff] at idle
  exact if_neg idle

theorem writeAccept_acc : (s.writeAccept st).acc = s.acc := by
  by_cases due : CursorDue s st
  · rw [writeAccept_of_due due]
    rfl
  · rw [writeAccept_of_not_due due]

/-- A write of the accept cursor touches nothing of the ingest but the streams. -/
theorem writeAccept_ing : ∃ m, (s.writeAccept st).ing = { s.ing with streams := m } := by
  by_cases due : CursorDue s st
  · rw [writeAccept_of_due due]
    exact ⟨_, rfl⟩
  · rw [writeAccept_of_not_due due]
    exact ⟨_, rfl⟩

/-- What a due write leaves of the streams: that of the cursor counts anew. -/
theorem writeAccept_stream_of_due (started : (s.stream st).started = true) (due : CursorDue s st) (k : Nat) :
    (s.writeAccept st).stream k = if k = st then { s.stream st with unwritten := 0 } else s.stream k := by
  rw [writeAccept_of_due due]
  exact modStream_stream_of_started (f := fun y => { y with unwritten := 0 }) started k

theorem writeAccept_mem_of_due (wf : Memory.wf s.mem = true) (due : CursorDue s st) :
    memRead (s.writeAccept st).mem (s.live.accAddr + 4 * st) 4 = leBytes 4 (s.stream st).accept.toNat ∧
    ∀ a, Apart (s.live.accAddr + 4 * st) 4 a → memByte (s.writeAccept st).mem a = memByte s.mem a := by
  rw [writeAccept_of_due due]
  exact ⟨memRead_memWrite _ (leBytes 4 (s.stream st).accept.toNat) wf (by simp [leBytes]),
    fun a out => write_other _ a (leBytes 4 (s.stream st).accept.toNat) wf out⟩

/-- Due or not, a write moves no accept cursor and touches no other stream. -/
theorem writeAccept_cursors (started : (s.stream st).started = true) :
    ((s.writeAccept st).stream st).accept = (s.stream st).accept ∧
    ∀ q, q ≠ st → (s.writeAccept st).stream q = s.stream q := by
  by_cases due : CursorDue s st
  · simp +contextual [writeAccept_stream_of_due started due]
  · simp [writeAccept_of_not_due due]

end

/-! ## What an acceptance leaves -/

section
variable {s : State} {w : WindowRecord} {p : Nat} {b : Option Nat}

theorem cursorDue_accept (started : (s.stream w.stream).started = true) :
    CursorDue (s.accept w p b) w.stream ↔ s.live.accEn = true ∧ (64 ≤ (s.stream w.stream).unwritten + 1 ∨
      ∀ x ∈ s.ing.window.filter (fun x => !(x.stream == w.stream && x.seq == w.seq)), x.stream ≠ w.stream) := by
  rw [CursorDue, accept_stream started, if_pos rfl]
  rfl

/-- In a quiet state an acceptance leaves what the record's move and the write of the cursor leave: the pump behind them
changes only the supplies and the messages sent. -/
theorem acceptance_pump_frame (quiet : Quiet s) :
    OnlyChanges [.pwr, .out] ((s.accept w p b).writeAccept w.stream) ((s.accept w p b).writeAccept w.stream).pump := by
  obtain ⟨m, ing⟩ := writeAccept_ing (s := s.accept w p b) (st := w.stream)
  refine pump_of_quiet_frame (quiet_of_fewer_records quiet ?_ ?_ ?_)
  · rw [ing]
    rfl
  · rw [ing]
    rfl
  · intro x hx
    rw [ing] at hx
    exact (List.mem_filter.mp hx).1

theorem acceptance_frame (st : Nat) :
    OnlyChanges [.ing, .acc, .pwr, .mem, .out] s ((s.accept w p b).writeAccept st).pump := by
  apply State.pump_frame (m_ing := by decide) (m_out := by decide) (m_pwr := by decide)
  apply State.writeAccept_frame (m_ing := by decide) (m_mem := by decide)
  exact State.accept_frame w p b s (OnlyChanges.refl _ s) (by decide) (by decide)

end

/-! ## The statement -/

/-- Settles O36: the record at the accept cursor moves, the cursor is written when it is due, and the pump finds nothing
to do. -/
theorem acceptanceInOrder : Obligations.AcceptanceInOrder := by
  unfold Obligations.AcceptanceInOrder
  refine ⟨fun st s t ran moved => ?atCursor, ?moves⟩
  case atCursor =>
    obtain ⟨x, takes⟩ := acceptable_of_exec_acceptance ran moved
    exact ready_of_acceptable takes
  case moves =>
    intro st p w s up quiet wf started vhold found ready energy place block
    obtain ⟨b, takes, blockIff⟩ := acceptable_of_ready up vhold found ready energy place block
    obtain ⟨rfl, atCursor⟩ := window_key found
    intro left due
    have dueIff : CursorDue (s.accept w p b) w.stream ↔ due := cursorDue_accept started
    have moved : ∀ k, (s.accept w p b).stream k = if k = w.stream then (s.stream w.stream).accepted else s.stream k :=
      accept_stream started
    have own : (s.accept w p b).stream w.stream = (s.stream w.stream).accepted := (moved _).trans (if_pos rfl)
    have running : ((s.accept w p b).stream w.stream).started = true := own ▸ started
    obtain ⟨m, ing⟩ := writeAccept_ing (s := s.accept w p b) (st := w.stream)
    obtain ⟨cursor, others⟩ := writeAccept_cursors running
    have pumped := acceptance_pump_frame (w := w) (p := p) (b := b) quiet
    have streams : ∀ q, ((s.accept w p b).writeAccept w.stream).pump.stream q =
        ((s.accept w p b).writeAccept w.stream).stream q := by
      intro q
      rw [State.stream, State.stream, ing_eq_of_onlyChanges pumped (by decide)]
    refine ⟨_, s.headOf w p b, exec_acceptance_of_acceptable takes, acceptance_frame _, ?_, rfl, atCursor, rfl, rfl, rfl, rfl,
      blockIff, ?_, ?_, fun q other => ?_, fun isDue => ?_, fun idle => ?_⟩
    · rw [acc_eq_of_onlyChanges pumped (by decide), writeAccept_acc]
      rfl
    · rw [ing_eq_of_onlyChanges pumped (by decide), ing]
      rfl
    · rw [streams, cursor, own]
      rfl
    · rw [streams, others q other, moved, if_neg other]
    · obtain ⟨written, outside⟩ := writeAccept_mem_of_due (s := s.accept w p b) wf (dueIff.mpr isDue)
      rw [mem_eq_of_onlyChanges pumped (by decide), streams, cursor]
      refine ⟨written, ?_, outside⟩
      rw [writeAccept_stream_of_due running (dueIff.mpr isDue), if_pos rfl]
    · rw [mem_eq_of_onlyChanges pumped (by decide), streams, writeAccept_of_not_due (mt dueIff.mp idle), own]
      exact ⟨rfl, rfl⟩

end Sys2Proof.InOrder
end

section
/-! PROOFS. The entity join (O40) fails as stated: its clause on the run-ahead fetch of an absent key leaves out a key whose
row stands in the cache. -/

namespace Sys2Proof.RunAhead
open Sys2Proof Sys2Proof.Machine

/-- A run-ahead fetch of a key whose row is cached makes no lookup: it marks its record and brings nothing (R215). -/
theorem exec_outriderFetch_of_cached {s : State} {st : Nat} {sq : Word32} {w : WindowRecord} (memUp : s.memUp = true)
    (isOpen : s.live.entOpen = true) (found : s.window st sq = some w) (unfetched : w.fetched = false)
    (waits : s.waitsJoin w = true) (inReach : s.inRunAhead w = true) (cached : ∃ c ∈ s.ent.cache, c.key = w.key) :
    exec (.outriderFetch st sq true) s = .next (s.modWindow st sq (fun x => { x with fetched := true })) := by
  have enabled : ¬(s.memUp = false ∨ s.live.entOpen = false) := by simp [memUp, isOpen]
  have due : ¬(w.fetched = true ∨ s.waitsJoin w = false ∨ s.inRunAhead w = false) := by simp [unfetched, waits, inReach]
  have held : (s.modWindow st sq (fun x => { x with fetched := true })).ent.cache.any (fun c => c.key == w.key) = true := by
    simpa [State.modWindow] using cached
  show execOutriderFetch st sq true s = _
  simp only [execOutriderFetch, if_neg enabled, found, if_neg due, if_pos (Or.inr held)]

/-! ## A key that is cached and absent -/

/-- A record of stream 5 with key 77 that waits for a decode lane. -/
def keyed : WindowRecord where
  stream := 5
  seq := 3
  key := 77
  void := 0
  frame := []
  sndFirst := 0
  sndCodes := []
  order := 0
  tgen := 0
  budget := 0
  phase := .needLane
  work := 0
  narrow := []
  wide := []
  fetched := false
  block := none

/-- Tables that route stream 5 with a map. -/
def mapped : Tables := { Tables.empty with routes := [⟨5, 0, 0, 0, false, true, 0, 0, 0, 0⟩] }

/-- The record in a running engine whose entity table is OPEN, with an overflow table of two empty buckets: no place holds key
77, and its row is cached. -/
def cachedAbsent : State :=
  { State.reset with
    pwr := { State.reset.pwr with phase := .running }
    link := [{ LinkModule.reset with state := 1 }]
    live := { State.reset.live with entCfg := 0x10800010 }
    img := { State.reset.img with live := some ⟨⟨2, 0, 0, 0, [], mapped, [], [], [], [], []⟩, []⟩ }
    ing := { State.reset.ing with window := [keyed] }
    ent := { State.reset.ent with cache := [⟨77, EntityRow.missing⟩] } }

/-- What O40 asks of a run-ahead fetch holds of this one. -/
theorem cachedAbsent_premises : cachedAbsent.memUp = true ∧ cachedAbsent.live.entOpen = true ∧
    cachedAbsent.window 5 3 = some keyed ∧ keyed.fetched = false ∧ cachedAbsent.waitsJoin keyed = true ∧
    cachedAbsent.inRunAhead keyed = true := by decide +kernel

theorem cachedAbsent_cached : ∃ c ∈ cachedAbsent.ent.cache, c.key = keyed.key := by decide +kernel

/-- The key is absent, bucket 1 proves it, and no bucket is in the cache. -/
theorem cachedAbsent_lookup : cachedAbsent.ent.lookup cachedAbsent.live.ovfBits keyed.key = .absent ∧
    1 ∈ cachedAbsent.absentBuckets keyed.key ∧ 1 ∉ cachedAbsent.ent.buckets := by decide +kernel

/-- Refutes O40: of an absent key every run-ahead fetch shall bring the buckets that prove it absent, but a fetch of a key
whose row is cached brings nothing, as the clause on cached keys of the same statement has it. The premise that no cached
row has the key, which the clause on found keys has, is missing. State.applyUpdate leaves such a state where the placement
of a new key fails, as it can when its overflow buckets are lost after the checks of R219: it caches the key's row all the
same. -/
theorem not_entityJoins : ¬ Obligations.EntityJoins := by
  unfold Obligations.EntityJoins
  rintro ⟨-, -, -, -, -, fetch, -⟩
  obtain ⟨memUp, isOpen, found, unfetched, waits, inReach⟩ := cachedAbsent_premises
  obtain ⟨absent, proves, notCached⟩ := cachedAbsent_lookup
  obtain ⟨t, ran, -, -, -, -, -, absentClause⟩ := fetch 5 3 true keyed cachedAbsent memUp isOpen found unfetched waits inReach
  have marked := exec_outriderFetch_of_cached memUp isOpen found unfetched waits inReach cachedAbsent_cached
  have isNext := Host.Outcome.next.inj (ran.symm.trans marked)
  have entKept : t.ent = cachedAbsent.ent := by rw [isNext]; rfl
  obtain ⟨-, brought⟩ := absentClause rfl absent
  exact notCached (entKept ▸ brought 1 proves)

end Sys2Proof.RunAhead
end

section
/-! PROOFS. Soundboard doorbells (O37): what a change of one channel leaves, and the two outcomes of a write to SFD_SND_DB. -/

namespace Sys2Proof.Doorbells
open Sys2Proof Sys2Proof.Machine Sys2Proof.Safety Sys2Proof.Laws

/-! ## One channel of the Soundboard -/

section
variable {s : State} {i : Nat}

theorem modChannel_channel (f : Channel → Channel) (inRange : i < s.snd.channels.length) (k : Nat) :
    (s.modChannel i f).snd.channel k = if k = i then f (s.snd.channel i) else s.snd.channel k := by
  show (s.snd.channels.modify i f).getD k Channel.reset = _
  by_cases own : k = i
  · subst own
    simp [Soundboard.channel, inRange]
  · simp [Soundboard.channel, own, Ne.symm own]

/-- A channel that a Mount enables starts anew, but for its counters. -/
theorem enableChannel_channel (inRange : i < s.snd.channels.length) :
    (s.enableChannel i).snd.channel i =
      { Channel.reset with
        q0 := (s.stream (s.live.chan i).stream).accept
        overruns := (s.snd.channel i).overruns
        backward := (s.snd.channel i).backward
        spans := [(0, 0, (s.live.chan i).hop)] } := by
  unfold State.enableChannel
  dsimp only
  split
  · exact (modChannel_channel _ inRange i).trans (if_pos rfl)
  · exact (modChannel_channel (s := s.modStream _ _) _ inRange i).trans (if_pos rfl)

end

/-! ## The doorbell (R233) -/

/-- The channel that a write to SFD_SND_DB names. -/
def doorChannel (v : Word) : Nat := (v.toNat >>> 32) % 64

/-- A doorbell behind the write cursor: it is counted, and nothing else. -/
def ignored (x : Channel) : Channel := { x with backward := min (x.backward + 1) 65535 }

/-- A doorbell ahead: the write cursor moves, and the doorbell with its running number may make frames ready. -/
def rung (write : Word32) (n : Nat) (x : Channel) : Channel :=
  { x with write := write, doors := x.doors ++ [(write, n)] }

section
variable {v : Word} {s : State}

theorem writeField_eq (v : Word) : BitVec.ofNat 32 (wfield v 0 32) = v.setWidth 32 := by
  apply BitVec.eq_of_toNat_eq
  simp [wfield, fieldOf]

theorem exec_sfdSndDb_of_behind (up : s.up = true)
    (behind : 2 ^ 31 ≤ (v.setWidth 32 - (s.snd.channel (doorChannel v)).write).toNat) :
    exec (.sfdSndDb v) s = .next (s.modChannel (doorChannel v) ignored) := by
  rw [← writeField_eq] at behind
  show execSfdSndDb v s = _
  simp only [execSfdSndDb, up, Bool.true_eq_false, if_false]
  exact congrArg Host.Outcome.next (if_pos behind)

theorem exec_sfdSndDb_of_ahead (up : s.up = true)
    (ahead : (v.setWidth 32 - (s.snd.channel (doorChannel v)).write).toNat < 2 ^ 31) :
    exec (.sfdSndDb v) s = .next
      (({ s with snd := { s.snd with doorbells := s.snd.doorbells + 1 } } : State).modChannel (doorChannel v)
        (rung (v.setWidth 32) s.snd.doorbells)) := by
  rw [← writeField_eq] at ahead ⊢
  show execSfdSndDb v s = _
  simp only [execSfdSndDb, up, Bool.true_eq_false, if_false]
  exact congrArg Host.Outcome.next (if_neg (Nat.not_le.mpr ahead))

end

/-- Settles O37: a doorbell is behind the write cursor or ahead of it, and either changes its own channel alone. -/
theorem soundDoorbell : Obligations.SoundDoorbell := by
  unfold Obligations.SoundDoorbell
  refine ⟨?write, fun i s inRange => ?mount⟩
  case write =>
    intro v s up i write x inRange
    rcases Nat.lt_or_ge (write - x.write).toNat (2 ^ 31) with ahead | behind
    · have channels := modChannel_channel (s := { s with snd := { s.snd with doorbells := s.snd.doorbells + 1 } })
        (rung write s.snd.doorbells) inRange
      exact ⟨_, exec_sfdSndDb_of_ahead up ahead, rfl, rfl, fun k other => (channels k).trans (if_neg other),
        fun behind => absurd ahead (Nat.not_lt.mpr behind), fun _ => (channels i).trans (if_pos rfl)⟩
    · have channels := modChannel_channel (s := s) ignored inRange
      exact ⟨_, exec_sfdSndDb_of_behind up behind, rfl, rfl, fun k other => (channels k).trans (if_neg other),
        fun _ => (channels i).trans (if_pos rfl), fun ahead => absurd ahead (Nat.not_lt.mpr behind)⟩
  case mount =>
    rw [enableChannel_channel inRange]
    exact ⟨rfl, rfl⟩

end Sys2Proof.Doorbells
end

section
/-! PROOFS. Soundboard frames (O38): which frame is next, what its computation leaves, and how its record takes a place and a
lane. -/

namespace Sys2Proof.Frames
open Sys2Proof Sys2Proof.Machine Sys2Proof.Safety Sys2Proof.Laws Sys2Proof.InOrder Sys2Proof.Doorbells

/-! ## The next frame (R238) -/

/-- The doorbell that made the next frame of an enabled channel ready. -/
def doorOf (s : State) (k : Nat) : Option Nat :=
  if (s.live.chan k).en then (s.snd.channel k).readySince (s.live.chan k) else none

/-- The better of the best channel so far, behind its doorbell, and a channel. -/
def better (since : Nat → Option Nat) (best : Option (Nat × Nat)) (k : Nat) : Option (Nat × Nat) :=
  match since k, best with
  | none, b => b
  | some d, none => some (d, k)
  | some d, some (d0, i0) => if d < d0 then some (d, k) else some (d0, i0)

/-- The best of the first n channels. -/
def bestOf (since : Nat → Option Nat) (n : Nat) : Option (Nat × Nat) := (List.range n).foldl (better since) none

/-- What the best of the first n channels is: the first doorbell, then the lowest channel. -/
def IsBest (since : Nat → Option Nat) (n : Nat) : Option (Nat × Nat) → Prop
  | none => ∀ k < n, since k = none
  | some (d, i) => i < n ∧ since i = some d ∧ ∀ k < n, ∀ e, since k = some e → d < e ∨ (d = e ∧ i ≤ k)

/-- A channel with a doorbell before those of all lower channels is the best. -/
theorem isBest_last {since : Nat → Option Nat} {n d : Nat} (ready : since n = some d)
    (lower : ∀ k < n, ∀ e, since k = some e → d < e) : IsBest since (n + 1) (some (d, n)) := by
  refine ⟨Nat.lt_succ_self n, ready, Nat.forall_lt_succ_right.mpr ⟨fun k below e door => .inl (lower k below e door), ?_⟩⟩
  intro e door
  exact .inr ⟨Option.some.inj (ready.symm.trans door), Nat.le_refl n⟩

/-- A channel with no doorbell, or none before the best one's, leaves the best one. -/
theorem isBest_kept {since : Nat → Option Nat} {n d i : Nat} (best : IsBest since n (some (d, i)))
    (later : ∀ e, since n = some e → d ≤ e) : IsBest since (n + 1) (some (d, i)) := by
  obtain ⟨inRange, own, first⟩ := best
  refine ⟨by omega, own, Nat.forall_lt_succ_right.mpr ⟨first, fun e door => ?_⟩⟩
  have := later e door
  omega

theorem isBest_better {since : Nat → Option Nat} {n : Nat} {best : Option (Nat × Nat)} (h : IsBest since n best) :
    IsBest since (n + 1) (better since best n) := by
  cases ready : since n with
  | none =>
    simp only [better, ready]
    cases best with
    | none => exact Nat.forall_lt_succ_right.mpr ⟨h, ready⟩
    | some b => exact isBest_kept h (by simp [ready])
  | some d =>
    cases best with
    | none =>
      simp only [better, ready]
      exact isBest_last ready fun k below e door => by simp [h k below] at door
    | some b =>
      simp only [better, ready]
      split
      case isTrue earlier =>
        obtain ⟨-, -, first⟩ := h
        refine isBest_last ready fun k below e door => ?_
        have := first k below e door
        omega
      case isFalse later =>
        refine isBest_kept h fun e door => ?_
        have := Option.some.inj (ready.symm.trans door)
        omega

theorem isBest_bestOf (since : Nat → Option Nat) (n : Nat) : IsBest since n (bestOf since n) := by
  induction n with
  | zero => exact fun k below => absurd below (Nat.not_lt_zero k)
  | succ n ih =>
    rw [bestOf, List.range_succ, List.foldl_append]
    exact isBest_better ih

theorem nextSound_eq (s : State) : s.nextSound = (bestOf (doorOf s) 64).map Prod.snd := rfl

theorem nextSound_some {s : State} {i : Nat} (next : s.nextSound = some i) :
    i < 64 ∧ ∃ d, doorOf s i = some d ∧ ∀ k e, k < 64 → doorOf s k = some e → d < e ∨ (d = e ∧ i ≤ k) := by
  rw [nextSound_eq, Option.map_eq_some_iff] at next
  obtain ⟨⟨d, _⟩, best, rfl⟩ := next
  have isBest := isBest_bestOf (doorOf s) 64
  rw [best] at isBest
  obtain ⟨inRange, own, first⟩ := isBest
  exact ⟨inRange, d, own, fun k e below => first k below e⟩

theorem nextSound_none {s : State} (next : s.nextSound = none) (k : Nat) (below : k < 64) : doorOf s k = none := by
  rw [nextSound_eq, Option.map_eq_none_iff] at next
  have isBest := isBest_bestOf (doorOf s) 64
  rw [next] at isBest
  exact isBest k below

theorem readySince_some {x : Channel} {c : SndCfg} {n : Nat} (ready : x.readySince c = some n) :
    ∃ d ∈ x.doors, d.2 = n ∧ (d.1 - (x.sample + BitVec.ofNat 32 c.frameLen)).toNat < 2 ^ 31 := by
  obtain ⟨d, found, number⟩ := Option.map_eq_some_iff.mp ready
  have covers := List.find?_some found
  exact ⟨d, List.mem_of_find?_eq_some found, number, of_decide_eq_true covers⟩

/-! ## A frame is read and computed (R235, R240 to R245) -/

/-- The ring has lost a sample of the channel's next frame (R235). -/
def lostSamples (c : SndCfg) (x : Channel) : Bool := decide (2 ^ c.ringBits < (x.write - x.sample).toNat)

/-- The next frame of a channel, computed. -/
def computed (s : State) (i : Nat) : SoundFrame :=
  let c := s.live.chan i
  let x := s.snd.channel i
  { channel := i, stream := c.stream, seq := x.q0 + BitVec.ofNat 32 x.frame, key := c.key, first := c.first
    codes := frameCodes c (Array.ofFn (fun k : Fin c.frameLen => s.soundSample c (x.sample + BitVec.ofNat 32 k.val)))
    overrun := lostSamples c x }

/-- A channel after its next frame has been read: the frame behind it starts at a sample. -/
def moved (lost : Bool) (next : Word32) (x : Channel) : Channel :=
  { x with
    sample := next
    frame := x.frame + 1
    overruns := if lost then min (x.overruns + 1) 65535 else x.overruns
    doors := pruneDoors next x.doors }

section
variable {s : State} {i : Nat}

theorem exec_sndFrameStart_of_idle (idle : s.memUp = false ∨ s.nextSound = none) : exec .sndFrameStart s = .next s := by
  show execSndFrameStart s = _
  refine congrArg Host.Outcome.next ?_
  by_cases blocked : s.memUp = false ∨ s.snd.frame.isSome = true
  · exact if_pos blocked
  · have noneReady : s.nextSound = none := idle.resolve_left (not_or.mp blocked).1
    simp only [if_neg blocked, noneReady]

theorem exec_sndFrameStart_of_held (held : s.snd.frame.isSome = true) : exec .sndFrameStart s = .next s :=
  congrArg Host.Outcome.next (if_pos (.inr held))

theorem exec_sndFrameStart_of_next (memUp : s.memUp = true) (empty : s.snd.frame = none) (next : s.nextSound = some i) :
    exec .sndFrameStart s = .next
      (({ s with snd := { s.snd with frame := some (computed s i) } } : State).modChannel i
        (moved (lostSamples (s.live.chan i) (s.snd.channel i))
          ((s.snd.channel i).sample + BitVec.ofNat 32 (s.live.chan i).hop))) := by
  have free : ¬(s.memUp = false ∨ s.snd.frame.isSome = true) := by simp [memUp, empty]
  show execSndFrameStart s = _
  simp only [execSndFrameStart, if_neg free, next]
  rfl

end

/-! ## A finished frame takes a place (R236, R237) -/

section
variable {s t : State} {f : SoundFrame} {w : WindowRecord} {st : Nat} {sq : Word32} {ws : List WindowRecord}

theorem window_eq_none_iff : s.window st sq = none ↔ ∀ x ∈ s.ing.window, ¬(x.stream = st ∧ x.seq = sq) := by
  simp [State.window]

/-- A change of the record that came last, where no other has its stream and number. -/
theorem modWindow_window_of_last {g : WindowRecord → WindowRecord} (last : t.ing.window = ws ++ [w])
    (absent : ∀ x ∈ ws, ¬(x.stream = w.stream ∧ x.seq = w.seq)) :
    (t.modWindow w.stream w.seq g).ing.window = ws ++ [g w] := by
  have others : ws.map (fun x => if x.stream = w.stream ∧ x.seq = w.seq then g x else x) = ws :=
    (List.map_congr_left fun x hx => if_neg (absent x hx)).trans (List.map_id' ws)
  show t.ing.window.map _ = _
  rw [last, List.map_append, others, List.map_singleton, if_pos ⟨rfl, rfl⟩]

/-- The record of a finished frame, which waits for a lane. -/
def recordOf (s : State) (f : SoundFrame) : WindowRecord where
  stream := f.stream
  seq := f.seq
  key := f.key
  void := if f.overrun then stVoidOverrun else 0
  frame := []
  sndFirst := f.first
  sndCodes := f.codes
  order := s.ing.order
  tgen := s.img.tgen
  budget := s.live.budgetSteps
  phase := .needLane
  work := workSteps 0 f.codes.length 0
  narrow := []
  wide := []
  fetched := false
  block := none

/-- The record of a finished frame has taken its place. -/
def soundRecord (s : State) (f : SoundFrame) : State :=
  (s.takePlace f.stream f.seq f.key (if f.overrun then stVoidOverrun else 0) .needLane []
    (workSteps 0 f.codes.length 0) none).modWindow f.stream f.seq
      (fun w => { w with sndFirst := f.first, sndCodes := f.codes })

/-- Its record has taken its place, and the Soundboard holds no frame. -/
def placed (s : State) (f : SoundFrame) : State :=
  { soundRecord s f with snd := { s.snd with frame := none } }

theorem exec_sndFrameDone_of_full (full : 8192 ≤ s.ing.window.length) : exec .sndFrameDone s = .next s := by
  have noPlace : s.windowFree = false := by simpa [State.windowFree] using full
  show execSndFrameDone s = _
  simp only [execSndFrameDone, noPlace, if_true]
  split
  · rfl
  · split <;> rfl

theorem exec_sndFrameDone_of_free (up : s.up = true) (finished : s.snd.frame = some f)
    (free : s.ing.window.length < 8192) : exec .sndFrameDone s = .next (placed s f).pump := by
  have place : s.windowFree = true := by simpa [State.windowFree] using free
  show execSndFrameDone s = _
  simp only [execSndFrameDone, up, finished, place, Bool.true_eq_false, if_false]
  rfl

theorem placed_window (absent : s.window f.stream f.seq = none) :
    (placed s f).ing.window = s.ing.window ++ [recordOf s f] :=
  modWindow_window_of_last (w := { recordOf s f with sndFirst := 0, sndCodes := [] }) rfl (window_eq_none_iff.mp absent)

theorem start_started (x : Stream) (sq : Word32) : (x.start sq).started = true := by
  unfold Stream.start
  split
  · rfl
  · next started =>
    have started : x.started = true := by simpa using started
    split
    · exact started
    · split <;> exact started

/-- A placed frame moves the next-expected cursor of its stream behind it (R172). -/
theorem placed_stream_next (s : State) (f : SoundFrame) : ((placed s f).stream f.stream).next = f.seq + 1 := by
  have begun : ((s.startStream f.stream f.seq).stream f.stream).started = true := by
    unfold State.startStream
    rw [modStream_stream_of_started (f := fun x => x.start f.seq) (start_started _ _), if_pos rfl]
    exact start_started _ _
  show (((s.startStream f.stream f.seq).modStream f.stream (fun x => { x with next := f.seq + 1 })).stream f.stream).next = _
  rw [modStream_stream_of_started (f := fun x => { x with next := f.seq + 1 }) begun, if_pos rfl]

end

/-! ## A placed frame takes a lane (R182) -/

/-- A record as it waits for a lane. -/
def laneOf (w : WindowRecord) : Lane := ⟨w.stream, w.seq, false, w.order, w.work, w.budget⟩

section
variable {s t : State} {w : WindowRecord}

/-- Behind a state where nothing waits for a lane, only a new record can wait. -/
theorem laneWaiters_of_one_more (noWaiters : s.laneWaiters = []) (last : t.ing.window = s.ing.window ++ [w])
    (pairs : t.ing.pairs = s.ing.pairs) : t.laneWaiters = if w.phase = .needLane then [laneOf w] else [] := by
  obtain ⟨noRecords, noScales⟩ := List.append_eq_nil_iff.mp noWaiters
  simp only [State.laneWaiters, last, pairs, List.filterMap_append, noRecords, noScales]
  split <;> simp_all [laneOf]

/-- A record has taken a lane. -/
def entered (t : State) (w : WindowRecord) (i : Nat) : State :=
  let u := t.enterLane (laneOf w)
  { u with ing := { u.ing with lanes := u.ing.lanes.set i (some (laneOf w)) } }

theorem entered_window (last : t.ing.window = s.ing.window ++ [w]) (absent : s.window w.stream w.seq = none) (i : Nat) :
    (entered t w i).ing.window = s.ing.window ++ [{ w with phase := .inLane }] :=
  modWindow_window_of_last (g := fun w => { w with phase := .inLane }) last (window_eq_none_iff.mp absent)

theorem fillLanes_of_no_free_lane (full : none ∉ t.ing.lanes) (n : Nat) : t.fillLanes n = t := by
  cases n with
  | zero => rfl
  | succ n =>
    have taken : t.ing.lanes.findIdx? Option.isNone = none := List.findIdx?_eq_none_iff.mpr fun x lane =>
      Option.isNone_eq_false_iff.mpr (Option.isSome_iff_ne_none.mpr (ne_of_mem_of_not_mem lane full))
    simp [State.fillLanes, taken]

/-- The one record that waits takes the lowest free lane, where a lane is free. -/
theorem fillLanes_of_one_waiter (noWaiters : s.laneWaiters = []) (last : t.ing.window = s.ing.window ++ [w])
    (pairs : t.ing.pairs = s.ing.pairs) (waits : w.phase = .needLane) (absent : s.window w.stream w.seq = none) (n : Nat) :
    (t.fillLanes (n + 1)).ing.window =
        s.ing.window ++ [{ w with phase := if none ∈ t.ing.lanes then .inLane else .needLane }] ∧
      (t.fillLanes (n + 1)).ing.streams = t.ing.streams := by
  have waiters : t.laneWaiters = [laneOf w] := by rw [laneWaiters_of_one_more noWaiters last pairs, if_pos waits]
  by_cases free : none ∈ t.ing.lanes
  · obtain ⟨i, lane⟩ : ∃ i, t.ing.lanes.findIdx? Option.isNone = some i := by
      simpa [← Option.isSome_iff_exists, List.findIdx?_isSome] using free
    have window := entered_window last absent i
    have nothingLeft : (entered t w i).laneWaiters = [] := by
      rw [laneWaiters_of_one_more noWaiters window pairs]
      rfl
    have filled : t.fillLanes (n + 1) = entered t w i := by
      simp only [State.fillLanes, lane, waiters, firstLane]
      exact fillLanes_of_no_waiters nothingLeft n
    rw [filled, window, if_pos free]
    exact ⟨rfl, rfl⟩
  · rw [fillLanes_of_no_free_lane free, last, if_neg free, ← waits]
    exact ⟨rfl, rfl⟩

theorem pump_of_no_frames (noFrames : s.ing.rx = []) : s.pump = (s.fillLanes 8).refreshHeld := by
  simp [State.pump, noFrames, State.pumpModule]

theorem pump_ing_of_no_frames (noFrames : s.ing.rx = []) : s.pump.ing = (s.fillLanes 8).ing := by
  rw [pump_of_no_frames noFrames]
  exact ing_eq_of_onlyChanges (fs := [.pwr, .out])
    (State.refreshHeld_frame _ (OnlyChanges.refl _ _) (by decide) (by decide)) (by decide)

theorem snd_eq_of_onlyChanges {fs : List Part} (frame : OnlyChanges fs s t) (kept : Part.snd ∉ fs) : t.snd = s.snd := by
  simpa [mask, kept] using congrArg State.snd frame

theorem pump_snd (s : State) : s.pump.snd = s.snd :=
  snd_eq_of_onlyChanges (fs := [.ing, .pwr, .out])
    (State.pump_frame s (OnlyChanges.refl _ _) (by decide) (by decide) (by decide)) (by decide)

end

/-- What a finished frame leaves where a place is free: its record came last, its stream's cursor moved on, and the Soundboard
holds no frame. -/
theorem placed_pump {s : State} {f : SoundFrame} (quiet : Quiet s) (absent : s.window f.stream f.seq = none) :
    (placed s f).pump.snd = { s.snd with frame := none } ∧
    (placed s f).pump.ing.window = s.ing.window ++
      [{ recordOf s f with phase := if none ∈ s.ing.lanes then .inLane else .needLane }] ∧
    ((placed s f).pump.stream f.stream).next = f.seq + 1 := by
  obtain ⟨noFrames, noWaiters⟩ := quiet
  obtain ⟨window, streams⟩ := fillLanes_of_one_waiter noWaiters (placed_window absent) rfl rfl absent 7
  have ing : (placed s f).pump.ing = ((placed s f).fillLanes 8).ing := pump_ing_of_no_frames noFrames
  refine ⟨pump_snd _, by rw [ing]; exact window, ?_⟩
  rw [State.stream, ing, streams]
  exact placed_stream_next s f

theorem sndFrameDone_frame (s : State) (f : SoundFrame) : OnlyChanges [.ing, .snd, .pwr, .out] s (placed s f).pump := by
  apply State.pump_frame (m_ing := by decide) (m_out := by decide) (m_pwr := by decide)
  have windowed : OnlyChanges [.ing, .snd, .pwr, .out] s (soundRecord s f) := by
    apply State.modWindow_frame (m_ing := by decide)
    exact State.takePlace_frame _ _ _ _ _ _ _ _ s (OnlyChanges.refl _ s) (by decide)
  exact windowed

/-! ## The statement -/

/-- Settles O38: the fold over the channels finds the first doorbell, a computed frame moves its channel on, and a finished
frame is the one record that waits for a lane. -/
theorem soundFrames : Obligations.SoundFrames := by
  unfold Obligations.SoundFrames
  refine ⟨fun s => ⟨fun i => nextSound_some, nextSound_none⟩, fun x c n => readySince_some,
    fun s => exec_sndFrameStart_of_idle, ?computes, fun s => exec_sndFrameDone_of_full,
    fun s => exec_sndFrameStart_of_held, ?takesPlace⟩
  case computes =>
    intro i s memUp empty next inRange c x lost
    have channels := modChannel_channel (s := { s with snd := { s.snd with frame := some (computed s i) } })
      (moved (lostSamples c x) (x.sample + BitVec.ofNat 32 c.hop)) inRange
    refine ⟨_, computed s i, exec_sndFrameStart_of_next memUp empty next, rfl, rfl, rfl, rfl, rfl, rfl, rfl, rfl,
      decide_eq_true_iff, fun k other => (channels k).trans (if_neg other), ?_⟩
    have own := (channels i).trans (if_pos rfl)
    rw [own]
    simp [moved, lostSamples, lost, x, Soundboard.channel]
  case takesPlace =>
    intro f s up quiet finished free absent
    obtain ⟨snd, window, next⟩ := placed_pump quiet absent
    exact ⟨_, _, exec_sndFrameDone_of_free up finished free, sndFrameDone_frame s f, snd, window, rfl, rfl, rfl, rfl, rfl,
      rfl, rfl, next⟩

end Sys2Proof.Frames
end

section
/-! PROOFS. Writes of SFD_IMG_EXPECT (O23): staged from the root of trust, counted from any other agent. -/

namespace Sys2Proof.ExpectWrites
open Sys2Proof Sys2Proof.Machine Sys2Proof.Safety Sys2Proof.Laws

section
variable {s : State} {i : Nat} {v : Word}

/-- No staged field of R489 lies among the registers of SFD_IMG_EXPECT, whose shadow takes the word whole. -/
theorem stage_of_expect (c : Staged) (inRange : i < 4) :
    c.stage (0x840 + 8 * i) v = { c with expect := c.expect.set i v } := by
  have named : i = 0 ∨ i = 1 ∨ i = 2 ∨ i = 3 := by omega
  obtain rfl | rfl | rfl | rfl := named <;> rfl

theorem shadow_eq_of_onlyChanges {t : State} {fs : List Part} (frame : OnlyChanges fs s t) (kept : Part.shadow ∉ fs) :
    t.shadow = s.shadow := by
  simpa [mask, kept] using congrArg State.shadow frame

theorem retarget_shadow (s : State) : s.retarget.shadow = s.shadow :=
  shadow_eq_of_onlyChanges (State.retarget_frame (fs := [.gait, .out]) s (OnlyChanges.refl _ s) (by decide) (by decide))
    (by decide)

theorem exec_sfdImgExpectWrite (up : s.up = true) (agent : Nat) :
    exec (.sfdImgExpectWrite agent i v) s = .next (s.writeExpect agent i v) := by
  simp [exec, execSfdImgExpectWrite, up]

theorem exec_registerWrite_of_expect (up : s.up = true) (inRange : i < 4) (agent : Nat) :
    exec (.registerWrite agent (0x840 + 8 * i) v) s = .next (s.writeExpect agent i v) := by
  have answered : ¬(s.up = false ∨ (0x840 + 8 * i) % 8 ≠ 0) := by
    simp only [up, Bool.true_eq_false, false_or]
    omega
  have named : 0x840 ≤ 0x840 + 8 * i ∧ 0x840 + 8 * i < 0x860 := by omega
  have index : (0x840 + 8 * i - 0x840) / 8 = i := by omega
  show execRegisterWrite agent (0x840 + 8 * i) v s = _
  rw [execRegisterWrite, if_neg answered, if_pos named, index]

theorem writeExpect_of_other {agent : Nat} (other : agent ≠ 1) :
    s.writeExpect agent i v = { s with img := { s.img with foreign := min (s.img.foreign + 1) 65535 } } :=
  if_neg other

theorem writeExpect_of_freezing (freezing : s.mnt.freezing = true) :
    s.writeExpect 1 i v = { s with mnt := { s.mnt with frozen := s.mnt.frozen ++ [(0x840 + 8 * i, v)] } } :=
  if_pos freezing

theorem writeExpect_of_thawed (thawed : s.mnt.freezing = false) (inRange : i < 4) :
    s.writeExpect 1 i v =
      ({ s with shadow := { s.shadow with expect := s.shadow.expect.set i v } } : State).retarget := by
  rw [State.writeExpect, if_pos rfl, State.stageWrite, thawed, if_neg Bool.false_ne_true, stage_of_expect _ inRange]

theorem writeExpect_of_thawed_frame (thawed : s.mnt.freezing = false) (inRange : i < 4) :
    OnlyChanges [.shadow, .gait, .out] s (s.writeExpect 1 i v) := by
  rw [writeExpect_of_thawed thawed inRange]
  exact State.retarget_frame (fs := [.shadow, .gait, .out]) _ rfl (by decide) (by decide)

end

/-- Settles O23: the register write is the command of its index, and the root of trust alone gets past the count of
foreign writes to the shadow or, in a freeze, to the writes that wait for its end. -/
theorem imageExpectWrites : Obligations.ImageExpectWrites := by
  unfold Obligations.ImageExpectWrites
  intro i v s up inRange
  refine ⟨fun agent => ?sameCommand, fun agent other => ?foreign, fun freezing => ?waits, fun thawed => ?staged⟩
  case sameCommand => rw [exec_registerWrite_of_expect up inRange, exec_sfdImgExpectWrite up]
  case foreign => rw [exec_sfdImgExpectWrite up, writeExpect_of_other other]
  case waits => rw [exec_sfdImgExpectWrite up, writeExpect_of_freezing freezing]
  case staged =>
    refine ⟨_, exec_sfdImgExpectWrite up 1, writeExpect_of_thawed_frame thawed inRange, ?_⟩
    rw [writeExpect_of_thawed thawed inRange, retarget_shadow]

end Sys2Proof.ExpectWrites
end

section
/-! PROOFS. Every command answers (O2): the parts of the state that each command changes, for the commands of every family, and
the queue among none of them. -/

namespace Sys2Proof.Answering
open Sys2Proof Sys2Proof.Machine Sys2Proof.Safety Sys2Proof.Laws

/-! ## Outcomes -/

/-- An outcome is a next state, which differs from the state before in the listed parts alone. -/
def Answers (fs : List Part) (s : State) (o : Host.Outcome State Fault Refusal) : Prop :=
  ∃ t, o = .next t ∧ OnlyChanges fs s t

section
variable {fs gs : List Part} {s t : State} {o : Host.Outcome State Fault Refusal}

theorem Answers.of_frame (frame : OnlyChanges fs s t) : Answers fs s (.next t) := ⟨t, rfl, frame⟩

theorem mask_mask (within : fs ⊆ gs) (s : State) : mask gs (mask fs s) = mask gs s := by
  have covered : ∀ {α : Type} (p : Part) (x y : α), (if p ∈ gs then x else if p ∈ fs then x else y) = if p ∈ gs then x else y := by
    intro α p x y
    by_cases listed : p ∈ gs
    · simp [listed]
    · rw [if_neg listed, if_neg listed, if_neg (mt (within ·) listed)]
  simp only [mask, covered]

theorem onlyChanges_mono (within : fs ⊆ gs) (frame : OnlyChanges fs s t) : OnlyChanges gs s t := by
  rw [OnlyChanges, ← mask_mask within t, ← mask_mask within s]
  exact congrArg (mask gs) frame

theorem Answers.mono (within : fs ⊆ gs) (answers : Answers fs s o) : Answers gs s o := by
  obtain ⟨t, next, frame⟩ := answers
  exact ⟨t, next, onlyChanges_mono within frame⟩

theorem pending_eq_of_onlyChanges (frame : OnlyChanges fs s t) (kept : Part.pending ∉ fs) : t.pending = s.pending := by
  simpa [mask, kept] using congrArg State.pending frame

end

variable {s : State}

/-! ## Records: frames, lanes, the Soundboard, entities, memory and the links -/

theorem execFrameArrival_answers (module bytes) :
    Answers [.ing, .pwr, .link, .out] s (execFrameArrival module bytes s) := by
  refine Answers.of_frame ?_
  split
  · rfl
  split
  · apply State.startRetrain_frame
    rfl
    decide
  split
  · rfl
  · apply State.pump_frame
    rfl
    all_goals decide

section
variable {u : State} (freed : OnlyChanges [.ing, .pwr, .out] s u)
include freed

theorem pump_leaveScale_frame (l exhausted) : OnlyChanges [.ing, .pwr, .out] s (u.leaveScale l exhausted).pump := by
  apply State.pump_frame
  apply State.leaveScale_frame _ _ _ freed
  all_goals decide

theorem pump_leaveLane_frame (w void x) : OnlyChanges [.ing, .pwr, .out] s (u.leaveLane w void x).pump := by
  apply State.pump_frame
  apply State.leaveLane_frame _ _ _ _ freed
  all_goals decide

end

theorem execDecodeDone_answers (lane wait) : Answers [.ing, .pwr, .out] s (execDecodeDone lane wait s) := by
  refine Answers.of_frame ?_
  split
  · rfl
  split
  · rfl
  split
  · rfl
  extract_lets s1
  have freed : OnlyChanges [.ing, .pwr, .out] s s1 := State.freeLane_frame lane s rfl (by decide)
  split
  · exact pump_leaveScale_frame freed _ _
  split
  · apply State.pump_frame _ freed <;> decide
  · exact pump_leaveLane_frame freed _ _ _

theorem execDecodeBudget_answers (lane wait) : Answers [.ing, .pwr, .out] s (execDecodeBudget lane wait s) := by
  refine Answers.of_frame ?_
  split
  · rfl
  split
  · rfl
  split
  · rfl
  extract_lets s1
  have freed : OnlyChanges [.ing, .pwr, .out] s s1 := State.freeLane_frame lane s rfl (by decide)
  split
  · exact pump_leaveScale_frame freed _ _
  split
  · apply State.pump_frame _ freed <;> decide
  · exact pump_leaveLane_frame freed _ _ _

theorem execAcceptance_answers (stream) : Answers [.ing, .acc, .pwr, .mem, .out] s (execAcceptance stream s) := by
  refine Answers.of_frame ?_
  split
  · rfl
  · exact InOrder.acceptance_frame stream

theorem execSfdSndDb_answers (value) : Answers [.snd] s (execSfdSndDb value s) := by
  refine Answers.of_frame ?_
  split
  · rfl
  extract_lets i w
  split
  · exact State.modChannel_frame _ _ _ rfl (by decide)
  · exact State.modChannel_frame _ _ _ rfl (by decide)

theorem execSndFrameStart_answers : Answers [.snd] s (execSndFrameStart s) := by
  refine Answers.of_frame ?_
  split
  · rfl
  split
  · rfl
  · exact State.modChannel_frame _ _ _ rfl (by decide)

theorem execSndFrameDone_answers : Answers [.ing, .snd, .pwr, .out] s (execSndFrameDone s) := by
  refine Answers.of_frame ?_
  split
  · rfl
  split
  · rfl
  split
  · rfl
  · exact Frames.sndFrameDone_frame s _

theorem execEntityJoin_answers (stream seq again ups) :
    Answers [.ing, .ent, .flt, .pwr, .pins, .mem, .out] s (execEntityJoin stream seq again ups s) := by
  refine Answers.of_frame ?_
  split
  · rfl
  split
  · rfl
  split
  · apply State.refreshHeld_frame
    apply State.lookupJoin_frame
    apply State.upsetIndex_frame
    rfl
    all_goals decide
  · rfl

theorem execOutriderFetch_answers (stream seq decodes) :
    Answers [.ing, .ent] s (execOutriderFetch stream seq decodes s) := by
  refine Answers.of_frame ?_
  split
  · rfl
  split
  · rfl
  split
  · rfl
  extract_lets s1
  have marked : OnlyChanges [.ing, .ent] s s1 := State.modWindow_frame _ _ _ s rfl (by decide)
  split
  · exact marked
  · exact State.runAhead_frame _ s1 marked (by decide)

/-- An update and an evict begin alike (R220). -/
theorem startEntity_answers (job op again) :
    Answers [.ent, .rings, .jobs, .led, .gait, .flt, .pins, .mem, .out] s (.next (
      if s.memUp = false then s
      else
        match s.waitingJob job op with
        | none => s
        | some j => s.startEntity j again)) := by
  refine Answers.of_frame ?_
  split
  · rfl
  split
  · rfl
  · apply State.startEntity_frame
    rfl
    all_goals decide

theorem execEntityInvalidate_answers (job again) :
    Answers [.ent, .rings, .jobs, .led, .gait, .flt, .pwr, .pins, .mem, .out] s (execEntityInvalidate job again s) := by
  refine Answers.of_frame ?_
  split
  · rfl
  split
  · split
    · rfl
    extract_lets s1
    have checked : OnlyChanges [.ent, .rings, .jobs, .led, .gait, .flt, .pwr, .pins, .mem, .out] s s1 := by
      apply State.checkKeys_frame
      rfl
      all_goals decide
    split
    · apply State.finishEvict_frame _ _ checked <;> decide
    · apply State.finishUpdate_frame _ _ checked <;> decide
  · rfl

theorem execMemoryReadReturn_answers (addr line check) :
    Answers [.img, .ent, .arr, .gait, .flt, .link, .pins, .mem, .out] s (execMemoryReadReturn addr line check s) := by
  refine Answers.of_frame ?_
  extract_lets m s1 a
  split
  · rfl
  have taken : OnlyChanges [.img, .ent, .arr, .gait, .flt, .link, .pins, .mem, .out] s s1 := rfl
  split
  · exact State.write_frame _ _ s1 taken (by decide)
  split
  · apply State.cleanLine_frame _ _ s1 taken <;> decide
  · apply State.correctLine_frame _ _ s1 taken <;> decide
  · apply State.failLine_frame _ s1 taken <;> decide

theorem execMemoryWriteAcknowledged_answers (ring) :
    Answers [.rings, .out] s (execMemoryWriteAcknowledged ring s) := by
  refine Answers.of_frame ?_
  split
  · extract_lets s1
    have announced : OnlyChanges [.rings, .out] s s1 := by
      apply State.announceRing_frame
      apply State.modRing_frame
      rfl
      all_goals decide
    split
    · exact State.modRing_frame _ _ s1 announced (by decide)
    · exact announced
  · rfl

theorem execLinkLane_answers (module lane cut) :
    Answers [.ing, .flt, .pwr, .link, .pins, .out] s (execLinkLane module lane cut s) := by
  refine Answers.of_frame ?_
  split
  · rfl
  · apply State.pump_frame
    apply State.logEvent_frame
    apply State.cutFrame_frame
    apply State.startRetrain_frame
    apply State.modModule_frame
    rfl
    all_goals decide

theorem execLinkRetrainDone_answers (module width fast cut) :
    Answers [.ing, .rings, .pwr, .link, .out] s (execLinkRetrainDone module width fast cut s) := by
  refine Answers.of_frame ?_
  split
  · rfl
  extract_lets other s0 s1 down t s2
  have cutOff : OnlyChanges [.ing, .rings, .pwr, .link, .out] s s0 := by
    unfold s0
    split
    · apply State.cutFrame_frame _ _ _ rfl <;> decide
    · rfl
  have trained : OnlyChanges [.ing, .rings, .pwr, .link, .out] s s1 := State.modModule_frame _ _ s0 cutOff (by decide)
  have reissued : ∀ u n k, OnlyChanges [.ing, .rings, .pwr, .link, .out] s u →
      OnlyChanges [.ing, .rings, .pwr, .link, .out] s (State.reissue u n k) := by
    intro u n k frame
    apply State.reissue_frame _ _ u frame <;> decide
  have moved : OnlyChanges [.ing, .rings, .pwr, .link, .out] s s2 := by
    unfold s2
    split
    · split
      · exact reissued _ _ _ (reissued _ _ _ trained)
      · exact reissued _ _ _ trained
    split
    · exact reissued _ _ _ trained
    · exact trained
  apply State.pump_frame s2 moved <;> decide

/-! ## Jobs: doorbells, dispatch, offers, drains, fences, releases and commits -/

theorem execSfdRingSdb_answers (ring value) : Answers [.rings, .jobs] s (execSfdRingSdb ring value s) := by
  refine Answers.of_frame ?_
  split
  · apply State.submit_frame _ _ s rfl <;> decide
  · rfl

theorem execSfdRingCdb_answers (ring value) : Answers [.rings, .jobs, .out] s (execSfdRingCdb ring value s) := by
  refine Answers.of_frame ?_
  split
  · apply State.announceRing_frame
    apply State.freeContexts_frame
    apply State.modRing_frame
    apply State.takeHead_frame
    rfl
    all_goals decide
  · rfl

theorem execJobDispatch_answers :
    Answers [.ing, .ent, .acc, .rings, .jobs, .tally, .led, .gait, .pwr, .mem, .out] s (execJobDispatch s) := by
  refine Answers.of_frame ?_
  split
  · extract_lets s1
    have halted : OnlyChanges [.ing, .ent, .acc, .rings, .jobs, .tally, .led, .gait, .pwr, .mem, .out] s s1 :=
      State.haltBad_frame s rfl (by decide)
    split
    · exact halted
    split
    · exact halted
    · apply State.dispatch_frame _ _ s1 halted <;> decide
  · rfl

theorem execJobRefusal_answers (ring) : Answers [.rings, .mem] s (execJobRefusal ring s) := by
  refine Answers.of_frame ?_
  split
  · extract_lets s1
    have read : OnlyChanges [.rings, .mem] s s1 := by
      unfold s1
      split
      · exact State.readHead_frame ring s rfl (by decide)
      · rfl
    split
    · apply State.writeEntry_frame
      apply State.modRing_frame _ _ _ read
      all_goals decide
    · exact read
  · rfl

/-- The offers of both kinds of scoring job (R252, R320). -/
theorem scoreStep_answers (job op) :
    Answers [.acc, .rings, .jobs, .grp, .tally, .led, .gait, .mem, .out] s
      (.next (if s.up then s.scoreStep job op else s)) := by
  refine Answers.of_frame ?_
  split
  · apply State.scoreStep_frame _ _ s rfl <;> decide
  · rfl

theorem execFence_answers (job) : Answers [.jobs] s (execFence job s) := by
  refine Answers.of_frame ?_
  split
  · split
    · rfl
    · exact State.modJob_frame _ _ s rfl (by decide)
  · rfl

theorem execFenceComplete_answers (job) :
    Answers [.rings, .jobs, .led, .gait, .mem, .out] s (execFenceComplete job s) := by
  refine Answers.of_frame ?_
  split
  · split
    · rfl
    split
    · apply State.finishJob_frame _ _ _ _ s rfl <;> decide
    · rfl
  · rfl

theorem execRelease_answers (job) :
    Answers [.ing, .acc, .rings, .jobs, .led, .gait, .pwr, .mem, .out] s (execRelease job s) := by
  refine Answers.of_frame ?_
  split
  · apply State.completeRelease_frame _ s rfl <;> decide
  · rfl

theorem execSfdRelease_answers (value) : Answers [.ing, .acc, .pwr, .out] s (execSfdRelease value s) := by
  refine Answers.of_frame ?_
  extract_lets st c
  split
  · apply State.requestRelease_frame _ _ s rfl <;> decide
  · rfl

theorem execRecordCommit_answers (job) :
    Answers [.ing, .acc, .rings, .jobs, .tally, .led, .gait, .pwr, .mem, .out] s (execRecordCommit job s) := by
  refine Answers.of_frame ?_
  split
  · rfl
  split
  · rfl
  extract_lets i
  split
  · apply State.commitSpecial_frame _ _ _ s rfl <;> decide
  split
  · apply State.committedOne_frame _ _ _ s rfl <;> decide
  split
  · rfl
  split
  · rfl
  · apply State.commitPlace_frame _ _ _ s rfl <;> decide

/-- The state that a drain carries along, behind the words and the status words that it has read. -/
def drained (r : List Byte × List Byte × State) : State := r.2.2

section
variable {fs : List Part} {s0 : State} (m_tally : Part.tally ∈ fs) (m_flt : Part.flt ∈ fs) (m_out : Part.out ∈ fs)
  (m_pins : Part.pins ∈ fs)

theorem foldl_frame {α β : Type} (carried : β → State) {f : β → α → β} {b : β} (xs : List α)
    (h : OnlyChanges fs s0 (carried b))
    (keeps : ∀ r x, OnlyChanges fs s0 (carried r) → OnlyChanges fs s0 (carried (f r x))) :
    OnlyChanges fs s0 (carried (xs.foldl f b)) :=
  List.foldlRecOn (motive := fun r => OnlyChanges fs s0 (carried r)) xs f h fun r frame x _ => keeps r x frame

include m_tally m_flt m_out m_pins

/-- A drain reads the words of a tile one after another, and an error that it meets counts (R157). -/
theorem drainOne_frame (h : OnlyChanges fs s0 s) (n : Nat) : OnlyChanges fs s0 (drained (s.drainOne n)) := by
  rw [State.drainOne]
  split
  next bs s1 folded =>
    show OnlyChanges fs s0 (bs, s1).2
    rw [← folded]
    refine foldl_frame Prod.snd (List.range 256) h fun r i frame => ?_
    split
    next v t read =>
      show OnlyChanges fs s0 (v, t).2
      rw [← read]
      exact State.readTally_frame r.2 frame _ m_tally m_flt m_out m_pins

theorem drainAll_frame (h : OnlyChanges fs s0 s) (tiles : List Nat) : OnlyChanges fs s0 (drained (s.drainAll tiles)) := by
  rw [State.drainAll]
  refine foldl_frame drained tiles h fun r n frame => ?_
  split
  next w x t read =>
    show OnlyChanges fs s0 (drained (w, x, t))
    rw [← read]
    exact drainOne_frame m_tally m_flt m_out m_pins frame n

end

theorem execDrainTile_answers (job) : Answers [.jobs, .tally, .flt, .pins, .mem, .out] s (execDrainTile job s) := by
  refine Answers.of_frame ?_
  split
  · rfl
  next j _ =>
  split
  · rfl
  · apply State.modJob_frame
    apply State.write_frame
    exact drainAll_frame (by decide) (by decide) (by decide) (by decide) rfl j.tileList
    all_goals decide

theorem execDrainWritesAcked_answers (job upTo) :
    Answers [.rings, .jobs, .tally, .led, .gait, .mem, .out] s (execDrainWritesAcked job upTo s) := by
  refine Answers.of_frame ?_
  split
  · rfl
  extract_lets n s1
  split
  · rfl
  have zeroed : OnlyChanges [.rings, .jobs, .tally, .led, .gait, .mem, .out] s s1 := by
    apply State.modJob_frame
    apply State.zeroTiles_frame
    rfl
    all_goals decide
  split
  · apply State.finishJob_frame
    apply State.releaseTiles_frame _ _ zeroed
    all_goals decide
  · exact zeroed

/-! ## Images: patches, loads, Mounts and plane switches -/

/-- A patch that finds a place for every entry has staged its items in the arrays alone (R114). -/
theorem stageAll_frame {fs : List Part} {s0 : State} (m_arr : Part.arr ∈ fs) (es : List PatchEntry) :
    ∀ {s : State} {i : Nat} {r : List PatchItem × State}, OnlyChanges fs s0 s → s.stageAll i es = .ok r →
      OnlyChanges fs s0 r.2 := by
  induction es with
  | nil =>
    intro s i r h staged
    cases staged
    exact h
  | cons e es ih =>
    intro s i r h staged
    unfold State.stageAll at staged
    split at staged
    · cases staged
    · next xs t copied =>
      split at staged
      · cases staged
      · next ys u rest =>
        cases staged
        have copies : OnlyChanges fs s0 t := State.stageCopies_frame s h _ e _ m_arr _ copied
        exact ih (r := (ys, u)) copies rest

theorem execLeafPatch_answers (job) :
    Answers [.rings, .jobs, .arr, .led, .gait, .mem, .out] s (execLeafPatch job s) := by
  refine Answers.of_frame ?_
  have refused : ∀ u st done detail, OnlyChanges [.rings, .jobs, .arr, .led, .gait, .mem, .out] s u →
      OnlyChanges [.rings, .jobs, .arr, .led, .gait, .mem, .out] s (State.finishJob u job st done detail) := by
    intro u st done detail frame
    apply State.finishJob_frame _ _ _ _ u frame <;> decide
  split
  · rfl
  split
  · rfl
  extract_lets es
  split
  · exact refused _ _ _ _ rfl
  split
  · exact refused _ _ _ _ rfl
  · next items s1 staged =>
    split
    · exact refused _ _ _ _ rfl
    extract_lets groups s2
    have begun : OnlyChanges [.rings, .jobs, .arr, .led, .gait, .mem, .out] s s2 :=
      State.modJob_frame _ _ s1 (stageAll_frame (by decide) _ rfl staged) (by decide)
    exact OnlyChanges.trans begun rfl

theorem execPatchBoundary_answers (job base) :
    Answers [.img, .rings, .jobs, .arr, .grp, .led, .gait, .mem, .out] s (execPatchBoundary job base s) := by
  refine Answers.of_frame ?_
  split
  · split
    · rfl
    split
    · apply State.applyPatch_frame _ _ _ s rfl <;> decide
    · rfl
  · rfl

theorem execLoadHarness_answers (job) :
    Answers [.img, .rings, .jobs, .led, .gait, .mem, .out] s (execLoadHarness job s) := by
  refine Answers.of_frame ?_
  split
  · rfl
  split
  · rfl
  extract_lets a len b l s1
  have begun : OnlyChanges [.img, .rings, .jobs, .led, .gait, .mem, .out] s s1 := State.modJob_frame _ _ s rfl (by decide)
  split
  · apply State.endLoad_frame _ _ _ _ _ s1 begun <;> decide
  · exact OnlyChanges.trans begun rfl

theorem execLoadFirstPass_answers (job) :
    Answers [.img, .rings, .jobs, .led, .gait, .mem, .out] s (execLoadFirstPass job s) := by
  refine Answers.of_frame ?_
  have ended : ∀ l f build d rec3, OnlyChanges [.img, .rings, .jobs, .led, .gait, .mem, .out] s (s.endLoad l f build d rec3) := by
    intro l f build d rec3
    apply State.endLoad_frame _ _ _ _ _ s rfl <;> decide
  split
  · rfl
  split
  · rfl
  extract_lets b d build x img disp rs rec3
  split
  · exact ended _ _ _ _ _
  split
  · exact ended _ _ _ _ _
  split
  · exact ended _ _ _ _ _
  split
  · exact ended _ _ _ _ _
  · rfl

theorem execLoadSecondPass_answers (job badCell) :
    Answers [.img, .rings, .jobs, .arr, .led, .gait, .mem, .out] s (execLoadSecondPass job badCell s) := by
  refine Answers.of_frame ?_
  extract_lets s0
  have freed : OnlyChanges [.img, .rings, .jobs, .arr, .led, .gait, .mem, .out] s s0 := State.freeTables_frame s rfl (by decide)
  split
  · rfl
  split
  · rfl
  split
  · rfl
  · apply State.retarget_frame
    apply State.secondPass_frame _ _ s0 freed
    all_goals decide

theorem execMount_answers (job) : Answers [.jobs, .mnt] s (execMount job s) := by
  refine Answers.of_frame ?_
  split
  · rfl
  split
  · apply State.requestMount_frame
    apply State.modJob_frame
    rfl
    all_goals decide
  · rfl

theorem execMountGo_answers (discard) : Answers [.shadow, .mnt, .gait, .out] s (execMountGo discard s) := by
  refine Answers.of_frame ?_
  split
  · apply State.goMount_frame (m_mnt := by decide)
    split
    · apply State.discard_frame s rfl <;> decide
    · rfl
  · rfl

theorem execMountDiscard_answers : Answers [.shadow, .gait, .out] s (execMountDiscard s) := by
  refine Answers.of_frame ?_
  split
  · apply State.discard_frame s rfl <;> decide
  · rfl

theorem execMountApply_answers :
    Answers [.live, .shadow, .img, .ing, .snd, .acc, .rings, .jobs, .grp, .tally, .mnt, .led, .gait, .flt, .pwr, .pins, .mem,
      .out] s (execMountApply s) := by
  refine Answers.of_frame ?_
  split
  · rfl
  split
  · apply State.failMount_frame _ s rfl <;> decide
  split
  · rfl
  · apply State.applyMount_frame s rfl <;> decide

theorem execGroupPlaneSwitch_answers (base bad) :
    Answers [.img, .acc, .rings, .jobs, .arr, .grp, .tally, .mnt, .led, .gait, .flt, .pins, .mem, .out] s
      (execGroupPlaneSwitch base bad s) := by
  refine Answers.of_frame ?_
  split
  · rfl
  split
  · apply State.reportMount_frame
    apply State.switchGroup_frame
    rfl
    all_goals decide
  · rfl

theorem execPlaneEndInvalidate_answers (ended) : Answers [.img, .arr, .grp, .flt] s (execPlaneEndInvalidate ended s) := by
  refine Answers.of_frame ?_
  split
  · rfl
  split
  · apply State.endGroup_frame _ s rfl <;> decide
  · rfl

/-! ## Scoring: dispatch, the stages of an attempt, faults and Curry passes -/

theorem execRecordDispatch_answers (base again ups) :
    Answers [.acc, .rings, .jobs, .arr, .grp, .tally, .led, .gait, .flt, .pins, .mem, .out] s
      (execRecordDispatch base again ups s) := by
  refine Answers.of_frame ?_
  split
  · split
    · rfl
    split
    · rfl
    · apply State.dispatchGroup_frame
      apply State.disturbAll_frame
      rfl
      all_goals decide
  · rfl

theorem execBridgeSearch_answers (attempt pos bank ups) :
    Answers [.sel, .acc, .arr, .grp, .tally, .flt] s (execBridgeSearch attempt pos bank ups s) := by
  refine Answers.of_frame ?_
  split
  · rfl
  extract_lets p n s1 b
  have disturbed : OnlyChanges [.sel, .acc, .arr, .grp, .tally, .flt] s s1 := by
    apply State.disturbAll_frame _ s rfl <;> decide
  split
  · rfl
  split
  · apply State.putAttempt_frame _ _ s1 disturbed <;> decide
  · apply State.putAttempt_frame
    apply State.searchBoth_frame s1 disturbed
    all_goals decide

theorem execAccumulationColumn_answers (attempt pos ups) :
    Answers [.acc, .arr, .grp, .tally, .flt] s (execAccumulationColumn attempt pos ups s) := by
  refine Answers.of_frame ?_
  split
  · rfl
  extract_lets p s1
  split
  · rfl
  split
  · rfl
  have disturbed : OnlyChanges [.acc, .arr, .grp, .tally, .flt] s s1 := by
    apply State.disturbAll_frame _ s rfl <;> decide
  split
  · apply State.failAttempt_frame _ _ s1 disturbed <;> decide
  · exact State.modAttempt_frame _ _ s1 disturbed (by decide)

theorem execChordNode_answers (attempt level node ups) :
    Answers [.sel, .acc, .arr, .grp, .tally, .flt] s (execChordNode attempt level node ups s) := by
  refine Answers.of_frame ?_
  split
  · rfl
  split
  · rfl
  split
  · rfl
  split
  · apply State.chordNode_frame
    apply State.disturbAll_frame
    rfl
    all_goals decide
  · rfl

theorem execTunerAdd_answers (attempt ups) : Answers [.acc, .arr, .grp, .tally, .flt] s (execTunerAdd attempt ups s) := by
  refine Answers.of_frame ?_
  split
  · rfl
  split
  · extract_lets tremolo earlier s1 b s2
    split
    · rfl
    have disturbed : OnlyChanges [.acc, .arr, .grp, .tally, .flt] s s1 := by
      apply State.disturbAll_frame _ s rfl <;> decide
    split
    · apply State.failAttempt_frame _ _ s1 disturbed <;> decide
    have tuned : OnlyChanges [.acc, .arr, .grp, .tally, .flt] s s2 := State.modAttempt_frame _ _ s1 disturbed (by decide)
    split
    · exact State.tunePass_frame _ _ _ s2 tuned (by decide)
    · exact tuned
  · rfl

theorem execTallyWrite_answers (attempt ups) :
    Answers [.acc, .rings, .jobs, .arr, .grp, .tally, .led, .gait, .flt, .pins, .mem, .out] s
      (execTallyWrite attempt ups s) := by
  refine Answers.of_frame ?_
  split
  · rfl
  split
  · split
    · rfl
    extract_lets s1
    have disturbed : OnlyChanges [.acc, .rings, .jobs, .arr, .grp, .tally, .led, .gait, .flt, .pins, .mem, .out] s s1 := by
      apply State.disturbAll_frame _ s rfl <;> decide
    split
    · apply State.failAttempt_frame _ _ s1 disturbed <;> decide
    · apply State.tallyStage_frame _ _ _ _ s1 disturbed <;> decide
  · rfl

theorem execDoubleRunSwitch_answers (base) : Answers [.grp] s (execDoubleRunSwitch base s) := by
  refine Answers.of_frame ?_
  split
  · rfl
  extract_lets k
  split
  · exact State.modGroup_frame _ _ s rfl (by decide)
  · rfl

theorem execFaultRecovery_answers (ups badSpares twinWrong) :
    Answers [.sel, .img, .acc, .rings, .jobs, .arr, .grp, .tally, .led, .gait, .flt, .pins, .mem, .out] s
      (execFaultRecovery ups badSpares twinWrong s) := by
  refine Answers.of_frame ?_
  split
  · rfl
  split
  · rfl
  · apply State.endRecovery_frame
    apply State.classify_frame
    rfl
    all_goals decide

theorem execCurryItem_answers (phys ups) : Answers [.acc, .arr, .grp, .tally, .flt] s (execCurryItem phys ups s) := by
  refine Answers.of_frame ?_
  split
  · rfl
  extract_lets n s1 last _ f s2 pos i d
  have counted : OnlyChanges [.acc, .arr, .grp, .tally, .flt] s s2 :=
    OnlyChanges.trans (State.disturbAll_frame ups s rfl (by decide) (by decide) (by decide)) rfl
  split
  · exact counted
  split
  · exact counted
  · apply State.enqueueFault_frame _ _ (OnlyChanges.trans counted rfl) <;> decide

theorem execTileSpared_answers (tile) : Answers [.tally, .flt, .pins, .out] s (execTileSpared tile s) := by
  refine Answers.of_frame ?_
  split
  · rfl
  extract_lets _ s1 fix words
  split
  · apply State.logEvent_frame _ _ _ _ _ _ rfl <;> decide
  · apply State.logEvent_frame _ _ _ _ _ s1 rfl <;> decide

theorem execSfdFaultAck_answers (value) : Answers [.flt, .pins] s (execSfdFaultAck value s) := by
  refine Answers.of_frame ?_
  split
  · apply State.ackFaults_frame _ s rfl <;> decide
  · rfl

/-! ## Registers: the ledger, gaits, sensors, debug windows and register writes -/

theorem execSfdLedger_answers (value) : Answers [.led, .gait, .out] s (execSfdLedger value s) := by
  refine Answers.of_frame ?_
  split
  · apply State.deriveLedger_frame _ rfl <;> decide
  · rfl

theorem execLedgerDebit_answers (rail) : Answers [.led, .gait, .out] s (execLedgerDebit rail s) := by
  refine Answers.of_frame ?_
  split
  · apply State.ledgerMoved_frame _ rfl <;> decide
  · rfl

theorem execAvsPoll_answers (wrote ok vdone) : Answers [.gait, .out] s (execAvsPoll wrote ok vdone s) := by
  refine Answers.of_frame ?_
  extract_lets g
  split
  · split
    · apply State.pollStatus_frame _ _ s rfl <;> decide
    split
    · apply State.pollStatus_frame _ _ _ rfl <;> decide
    · apply State.writeFailed_frame s rfl <;> decide
  · rfl

theorem execGaitReached_answers (mv) : Answers [.gait] s (execGaitReached mv s) := by
  refine Answers.of_frame ?_
  extract_lets g
  split <;> rfl

theorem execAvsErr_answers (timeout) : Answers [.gait, .flt, .pins, .out] s (execAvsErr timeout s) := by
  refine Answers.of_frame ?_
  extract_lets g
  split
  · apply State.logEvent_frame _ _ _ _ _ _ rfl <;> decide
  · rfl

theorem execAvsErrClear_answers (value) : Answers [.gait, .out] s (execAvsErrClear value s) := by
  refine Answers.of_frame ?_
  split
  · apply State.clearAvsErr_frame _ s rfl <;> decide
  · rfl

theorem execSensorConversion_answers (sensor code ok) :
    Answers [.grp, .gait, .flt, .pins, .out] s (execSensorConversion sensor code ok s) := by
  refine Answers.of_frame ?_
  split
  · extract_lets x _ s1 s2
    have noted : OnlyChanges [.grp, .gait, .flt, .pins, .out] s s2 := by
      unfold s2
      split
      · apply State.logEvent_frame _ _ _ _ _ s1 rfl <;> decide
      · rfl
    apply State.retarget_frame
    apply State.thermal_frame _ noted
    all_goals decide
  · rfl

theorem execSfdDbgCapCtl_answers (value) : Answers [.sel] s (execSfdDbgCapCtl value s) := by
  refine Answers.of_frame ?_
  split <;> rfl

theorem execSfdDbgChordSel_answers (value) : Answers [.sel] s (execSfdDbgChordSel value s) := by
  refine Answers.of_frame ?_
  split <;> rfl

theorem execSfdDbgTally_answers : Answers [.sel, .tally, .flt, .pins, .out] s (execSfdDbgTally s) := by
  refine Answers.of_frame ?_
  split
  · extract_lets w x
    split
    split
    next s1 read =>
      have word : OnlyChanges [.sel, .tally, .flt, .pins, .out] s (s.readTally w).2 := by
        apply State.readTally_frame s rfl <;> decide
      rw [read] at word
      exact OnlyChanges.trans word rfl
  · rfl

theorem execSfdImgExpectWrite_answers (agent index value) :
    Answers [.shadow, .img, .mnt, .gait, .out] s (execSfdImgExpectWrite agent index value s) := by
  refine Answers.of_frame ?_
  split
  · apply State.writeExpect_frame _ _ _ s rfl <;> decide
  · rfl

theorem eq_or_of_ite_some {α : Type} {p : Prop} [Decidable p] {x y : α} {rest : Option α}
    (found : (if p then some x else rest) = some y) : x = y ∨ rest = some y := by
  by_cases here : p
  · rw [if_pos here] at found
    exact .inl (Option.some.inj found)
  · rw [if_neg here] at found
    exact .inr found

/-- A register with behaviour of its own is a command, and changes what that command changes (R347). -/
theorem immediateWrite_answers {offset : Nat} {value : Word} {f : State → Host.Outcome State Fault Refusal}
    (own : immediateWrite offset value = some f) :
    Answers [.shadow, .sel, .img, .ing, .snd, .acc, .rings, .jobs, .mnt, .led, .gait, .flt, .pwr, .pins, .out] s (f s) := by
  unfold immediateWrite at own
  obtain rfl | own := eq_or_of_ite_some own
  · exact (execSfdSndDb_answers _).mono (by decide)
  obtain rfl | own := eq_or_of_ite_some own
  · exact (execSfdRingSdb_answers _ _).mono (by decide)
  obtain rfl | own := eq_or_of_ite_some own
  · exact (execSfdRingCdb_answers _ _).mono (by decide)
  obtain rfl | own := eq_or_of_ite_some own
  · exact (execSfdRelease_answers _).mono (by decide)
  obtain rfl | own := eq_or_of_ite_some own
  · exact (execSfdLedger_answers _).mono (by decide)
  obtain rfl | own := eq_or_of_ite_some own
  · exact (execAvsErrClear_answers _).mono (by decide)
  obtain rfl | own := eq_or_of_ite_some own
  · exact (execSfdFaultAck_answers _).mono (by decide)
  obtain rfl | own := eq_or_of_ite_some own
  · split
    · exact (execMountGo_answers _).mono (by decide)
    split
    · exact execMountDiscard_answers.mono (by decide)
    · exact Answers.of_frame rfl
  obtain rfl | own := eq_or_of_ite_some own
  · exact (execSfdDbgCapCtl_answers _).mono (by decide)
  obtain rfl | own := eq_or_of_ite_some own
  · exact (execSfdDbgChordSel_answers _).mono (by decide)
  · cases own

theorem execRegisterWrite_answers (agent offset value) :
    Answers [.shadow, .sel, .img, .ing, .snd, .acc, .rings, .jobs, .mnt, .led, .gait, .flt, .pwr, .pins, .out] s
      (execRegisterWrite agent offset value s) := by
  unfold execRegisterWrite
  split
  · exact Answers.of_frame rfl
  split
  · refine Answers.of_frame ?_
    apply State.writeExpect_frame _ _ _ s rfl <;> decide
  split
  · next own => exact immediateWrite_answers own
  split
  · exact Answers.of_frame rfl
  extract_lets ch
  split
  · refine Answers.of_frame ?_
    apply State.stageWrite_frame _ _ s rfl <;> decide
  · exact Answers.of_frame rfl

/-! ## Supplies: starts, resets, saves and the replay -/

/-- A start changes all but the package and the queue (R436). -/
abbrev startParts : List Part :=
  [.live, .shadow, .sel, .img, .ing, .ent, .snd, .acc, .rings, .jobs, .arr, .grp, .tally, .mnt, .led, .gait, .flt, .pwr, .bag,
    .link, .tele, .tap, .pins, .mem, .out]

/-- ENGINE_RESET leaves the Saddlebag, the telemetry target and the TAP besides (R442). -/
abbrev engineResetParts : List Part :=
  [.live, .shadow, .sel, .img, .ing, .ent, .snd, .acc, .rings, .jobs, .arr, .grp, .tally, .mnt, .led, .gait, .flt, .pwr, .link,
    .pins, .mem, .out]

abbrev replayParts : List Part := [.acc, .rings, .jobs, .arr, .grp, .tally, .led, .gait, .flt, .pwr, .pins, .mem, .out]

theorem execPowerOn_answers (vdd vddm vpp vhold regionsOk) :
    Answers startParts s (execPowerOn vdd vddm vpp vhold regionsOk s) := by
  refine Answers.of_frame ?_
  split
  · rfl
  split
  · rfl
  extract_lets c _ _ s1 s2 _
  have started : OnlyChanges startParts s s1 := by
    unfold s1
    split
    · apply State.restore_frame _ _ s rfl <;> decide
    · refine OnlyChanges.trans (t := c) ?_ rfl
      apply State.cold_frame s rfl <;> decide
  have telemetry : OnlyChanges startParts s s2 := by
    unfold s2
    split
    · exact started
    · exact OnlyChanges.trans started rfl
  apply State.announceStart_frame
  · exact OnlyChanges.trans telemetry rfl
  all_goals decide

theorem execEngineReset_answers :
    Answers engineResetParts s (execEngineReset s) := by
  refine Answers.of_frame ?_
  split
  · extract_lets s1 s2
    have ended : OnlyChanges engineResetParts s s1 := by
      apply State.retarget_frame
      apply State.kept_frame
      apply State.markReplay_frame
      apply State.dropPending_frame
      apply State.endJobs_frame
      rfl
      all_goals decide
    have written : OnlyChanges engineResetParts s s2 := by
      refine OnlyChanges.foldl _ ended fun x t frame => ?_
      split
      · apply State.writeAccept_frame _ t frame <;> decide
      · exact frame
    apply State.pump_frame
    apply State.announceStart_frame
    apply State.reload_frame s2 written
    all_goals decide
  · rfl

theorem execWarmRequest_answers : Answers [.pwr, .bag, .pins] s (execWarmRequest s) := by
  refine Answers.of_frame ?_
  split
  · apply State.beginSave_frame _ _ s rfl <;> decide
  · rfl

theorem execPackageWarmReset_answers (vddmKept) : Answers [.pwr] s (execPackageWarmReset vddmKept s) := by
  refine Answers.of_frame ?_
  split <;> rfl

theorem execSag_answers (source mv) : Answers [.pwr, .bag, .pins] s (execSag source mv s) := by
  refine Answers.of_frame ?_
  extract_lets s0 s1
  split
  · rfl
  have trips : OnlyChanges [.pwr, .bag, .pins] s s1 := by
    apply State.tripped_frame _ s0 rfl <;> decide
  split
  · apply State.beginSave_frame _ _ s1 trips <;> decide
  · split
    · apply State.refreshFault_frame
      · exact OnlyChanges.trans trips rfl
      · decide
    · exact trips
  · exact trips

theorem execSaveSealed_answers (vhold) : Answers [.pwr, .bag, .link, .pins, .out] s (execSaveSealed vhold s) := by
  refine Answers.of_frame ?_
  split
  · rfl
  extract_lets warm _ _ s1 s2
  have told : OnlyChanges [.pwr, .bag, .link, .pins, .out] s s2 := by
    unfold s2
    split
    · exact State.send_frame _ s1 rfl (by decide)
    · rfl
  apply State.enterReset_frame s2 told <;> decide

theorem execSaveIncomplete_answers : Answers [.pwr, .link, .pins] s (execSaveIncomplete s) := by
  refine Answers.of_frame ?_
  split
  · apply State.enterReset_frame _ rfl <;> decide
  · rfl

theorem execVholdLow_answers (mv) : Answers [.pwr, .out] s (execVholdLow mv s) := by
  refine Answers.of_frame ?_
  extract_lets _ s1
  split
  · apply State.refreshHeld_frame s1 rfl <;> decide
  · rfl

theorem execReplay_answers (again) :
    Answers replayParts s (execReplay again s) := by
  refine Answers.of_frame ?_
  split
  · extract_lets s0 s1 s2
    have repaid : OnlyChanges replayParts s s0 := by
      refine OnlyChanges.foldl _ rfl fun j t frame => ?_
      apply State.repayVoids_frame _ t frame <;> decide
    have advanced : OnlyChanges replayParts s s1 := by
      apply State.advanceGens_frame s0 repaid <;> decide
    have replayed : OnlyChanges replayParts s s2 := by
      refine OnlyChanges.foldl _ advanced fun x t frame => ?_
      apply State.replayOne_frame _ _ t frame <;> decide
    split
    · apply State.endReplay_frame
      apply State.advanceGens_frame s2 replayed
      all_goals decide
    · exact replayed
  · rfl

/-! ## The board: telemetry and the TAP -/

theorem execTelemetrySelect_answers (addr bytes) : Answers [.tele] s (execTelemetrySelect addr bytes s) := by
  refine Answers.of_frame ?_
  split
  · rfl
  split <;> rfl

theorem execTelemetryRead_answers (addr) : Answers [.tele] s (execTelemetryRead addr s) := by
  refine Answers.of_frame ?_
  split <;> rfl

/-- A command code of the bus touches the telemetry target alone (R481). -/
theorem ccc_answers (x) : Answers [.tele] s (.next (s.ccc x)) :=
  Answers.of_frame (State.ccc_frame x s rfl (by decide))

theorem selectTap_answers (x) : Answers [.tap, .pins] s (.next (s.selectTap x)) := by
  refine Answers.of_frame ?_
  apply State.selectTap_frame x s rfl <;> decide

theorem execExtest_answers : Answers [.tap, .pins] s (execExtest s) := by
  unfold execExtest
  split
  · exact Answers.of_frame rfl
  · exact selectTap_answers _

/-! ## The statement -/

/-- Every command answers, and changes no part of the state but those that partsOf lists for it. -/
theorem exec_answers (c : Instr) (s : State) : Answers (partsOf c) s (exec c s) := by
  cases c with
  | frameArrival module bytes => exact execFrameArrival_answers module bytes
  | decodeDone lane wait => exact execDecodeDone_answers lane wait
  | decodeBudget lane wait => exact execDecodeBudget_answers lane wait
  | entityJoin stream seq again ups => exact execEntityJoin_answers stream seq again ups
  | outriderFetch stream seq decodes => exact execOutriderFetch_answers stream seq decodes
  | acceptance stream => exact execAcceptance_answers stream
  | jobDispatch => exact execJobDispatch_answers
  | jobRefusal ring => exact execJobRefusal_answers ring
  | score job => exact scoreStep_answers job opScore
  | scoreTremolo job => exact scoreStep_answers job opTremolo
  | entityUpdate job again => exact startEntity_answers job opEntUpdate again
  | entityEvict job again => exact startEntity_answers job opEntEvict again
  | entityInvalidate job again => exact execEntityInvalidate_answers job again
  | leafPatch job => exact execLeafPatch_answers job
  | patchBoundary job base => exact execPatchBoundary_answers job base
  | loadHarness job => exact execLoadHarness_answers job
  | loadFirstPass job => exact execLoadFirstPass_answers job
  | loadSecondPass job badCell => exact execLoadSecondPass_answers job badCell
  | mount job => exact execMount_answers job
  | mountGo discard => exact execMountGo_answers discard
  | mountDiscard => exact execMountDiscard_answers
  | mountApply => exact execMountApply_answers
  | groupPlaneSwitch base badCopies => exact execGroupPlaneSwitch_answers base badCopies
  | planeEndInvalidate ended => exact execPlaneEndInvalidate_answers ended
  | drainTile job => exact execDrainTile_answers job
  | drainWritesAcked job upTo => exact execDrainWritesAcked_answers job upTo
  | fence job => exact execFence_answers job
  | fenceComplete job => exact execFenceComplete_answers job
  | release job => exact execRelease_answers job
  | sfdRelease value => exact execSfdRelease_answers value
  | recordDispatch base again ups => exact execRecordDispatch_answers base again ups
  | bridgeSearch attempt pos bank ups => exact execBridgeSearch_answers attempt pos bank ups
  | accumulationColumn attempt pos ups => exact execAccumulationColumn_answers attempt pos ups
  | chordNode attempt level node ups => exact execChordNode_answers attempt level node ups
  | tunerAdd attempt ups => exact execTunerAdd_answers attempt ups
  | tallyWrite attempt ups => exact execTallyWrite_answers attempt ups
  | recordCommit job => exact execRecordCommit_answers job
  | doubleRunSwitch base => exact execDoubleRunSwitch_answers base
  | faultRecovery ups badSpares twinWrong => exact execFaultRecovery_answers ups badSpares twinWrong
  | curryItem phys ups => exact execCurryItem_answers phys ups
  | tileSpared tile => exact execTileSpared_answers tile
  | memoryReadReturn addr line check => exact execMemoryReadReturn_answers addr line check
  | linkLane module lane cut => exact execLinkLane_answers module lane cut
  | linkRetrainDone module width fast cut => exact execLinkRetrainDone_answers module width fast cut
  | sfdRingSdb ring value => exact execSfdRingSdb_answers ring value
  | sfdRingCdb ring value => exact execSfdRingCdb_answers ring value
  | sfdSndDb value => exact execSfdSndDb_answers value
  | sndFrameStart => exact execSndFrameStart_answers
  | sndFrameDone => exact execSndFrameDone_answers
  | sfdLedger value => exact execSfdLedger_answers value
  | ledgerDebit rail => exact execLedgerDebit_answers rail
  | avsPoll wrote ok vdone => exact execAvsPoll_answers wrote ok vdone
  | gaitReached mv => exact execGaitReached_answers mv
  | avsErr timeout => exact execAvsErr_answers timeout
  | avsErrClear value => exact execAvsErrClear_answers value
  | sensorConversion sensor code ok => exact execSensorConversion_answers sensor code ok
  | sfdFaultAck value => exact execSfdFaultAck_answers value
  | sfdDbgCapCtl value => exact execSfdDbgCapCtl_answers value
  | sfdDbgChordSel value => exact execSfdDbgChordSel_answers value
  | sfdDbgTally => exact execSfdDbgTally_answers
  | registerWrite agent offset value => exact execRegisterWrite_answers agent offset value
  | sfdImgExpectWrite agent index value => exact execSfdImgExpectWrite_answers agent index value
  | powerOn vdd vddm vpp vhold regionsOk => exact execPowerOn_answers vdd vddm vpp vhold regionsOk
  | engineReset => exact execEngineReset_answers
  | warmRequest => exact execWarmRequest_answers
  | packageWarmReset vddmKept => exact execPackageWarmReset_answers vddmKept
  | sag source mv => exact execSag_answers source mv
  | saveSealed vhold => exact execSaveSealed_answers vhold
  | saveIncomplete => exact execSaveIncomplete_answers
  | vholdLow mv => exact execVholdLow_answers mv
  | replay again => exact execReplay_answers again
  | telemetrySelect addr bytes => exact execTelemetrySelect_answers addr bytes
  | telemetryRead addr => exact execTelemetryRead_answers addr
  | enec => exact ccc_answers _
  | disec => exact ccc_answers _
  | rstdaa => exact ccc_answers _
  | entdaa addr => exact ccc_answers _
  | setdasa addr => exact ccc_answers _
  | getpid => exact ccc_answers _
  | getbcr => exact ccc_answers _
  | getdcr => exact ccc_answers _
  | getstatus => exact ccc_answers _
  | getmrl => exact ccc_answers _
  | bypass => exact selectTap_answers _
  | idcode => exact selectTap_answers _
  | samplePreload cells => exact selectTap_answers _
  | extest => exact execExtest_answers
  | memoryWriteAcknowledged ring => exact execMemoryWriteAcknowledged_answers ring

theorem pending_not_mem_partsOf (c : Instr) : Part.pending ∉ partsOf c := by
  cases c <;> exact of_decide_eq_true rfl

/-- Settles O2: every command answers with a change of the parts listed for it, and the queue is never among them. -/
theorem everyCommandAnswers : Obligations.EveryCommandAnswers := by
  unfold Obligations.EveryCommandAnswers
  intro c s
  obtain ⟨t, next, frame⟩ := exec_answers c s
  exact ⟨t, next, pending_eq_of_onlyChanges frame (pending_not_mem_partsOf c)⟩

end Sys2Proof.Answering
end

section
/-! PROOFS. Submission doorbells (O25): the halt of a ring that reads its head, and the outcomes of a write of TAIL. -/

namespace Sys2Proof.SubmissionRings
open Sys2Proof Sys2Proof.Machine Sys2Proof.Safety Sys2Proof.Laws Sys2Proof.Doorbells

section
variable {s : State} {r : Nat} {tail : Word32}

/-- A ring whose descriptors end at an index has one at its head, and that one breaks R311. -/
def headBreaks (s : State) (r : Nat) (tail : Word32) : Bool := (s.ring r).subHead != tail && !s.dgenOk r

/-- HALT of a ring that has taken a doorbell which leaves TAIL at an index: a halted ring resumes and reads its head. -/
def resumedHalt (s : State) (r : Nat) (tail : Word32) : Nat :=
  if (s.ring r).halt = 0 then 0 else if headBreaks s r tail then 1 else 0

theorem readHead_of_good (good : headBreaks s r (s.ring r).subTail = false) : s.readHead r = s := by
  have keeps : (s.ring r).subHead = (s.ring r).subTail ∨ s.dgenOk r = true := by
    rcases Bool.and_eq_false_iff.mp good with empty | keepsDgen
    · exact .inl (bne_eq_false_iff_eq.mp empty)
    · exact .inr (by simpa only [Bool.not_eq_eq_eq_not, Bool.not_false] using keepsDgen)
  simp only [State.readHead, if_pos keeps]

theorem readHead_of_bad (bad : headBreaks s r (s.ring r).subTail = true) :
    s.readHead r = s.modRing r (fun y => { y with halt := haltDgen }) := by
  have breaks : ¬((s.ring r).subHead = (s.ring r).subTail ∨ s.dgenOk r = true) := by
    simpa [headBreaks] using bad
  simp only [State.readHead, if_neg breaks]

theorem readHead_ring (inRange : r < s.rings.length) (k : Nat) :
    (s.readHead r).ring k = if k = r then
      { s.ring r with halt := if headBreaks s r (s.ring r).subTail then haltDgen else (s.ring r).halt } else s.ring k := by
  cases breaks : headBreaks s r (s.ring r).subTail with
  | false =>
    rw [readHead_of_good breaks]
    split
    · next own => rw [own]; rfl
    · rfl
  | true =>
    rw [readHead_of_bad breaks]
    exact State.modRing_ring r k _ inRange

/-- A change of the ring that leaves its submission head reads the same descriptor. -/
theorem headBreaks_modRing {f : Ring → Ring} (inRange : r < s.rings.length)
    (head : (f (s.ring r)).subHead = (s.ring r).subHead) :
    headBreaks (s.modRing r f) r tail = headBreaks s r tail := by
  have ring := (State.modRing_ring r r f inRange).trans (if_pos rfl)
  simp only [headBreaks, State.dgenOk, ring, head]
  rfl

/-- A ring that resumes: its halt is cleared, whatever else its update does, and it reads its head. -/
theorem readHead_modRing_ring {f : Ring → Ring} (inRange : r < s.rings.length)
    (head : (f (s.ring r)).subHead = (s.ring r).subHead) (runs : (f (s.ring r)).halt = 0) (k : Nat) :
    ((s.modRing r f).readHead r).ring k =
      if k = r then { f (s.ring r) with halt := if headBreaks s r (f (s.ring r)).subTail then 1 else 0 } else s.ring k := by
  have rings := fun k => State.modRing_ring r k f inRange
  rw [readHead_ring (by simpa [State.modRing] using inRange), rings, rings, if_pos rfl, headBreaks_modRing inRange head, runs]
  split <;> rfl

/-! ## A write of TAIL (R309) -/

/-- The ring after a write of TAIL. -/
def submitted (s : State) (r : Nat) (tail : Word32) : Ring :=
  let x := s.ring r
  if (tail - x.subTail).toNat = 0 then { x with halt := resumedHalt s r x.subTail }
  else if (tail - x.subTail).toNat + (x.subTail - x.subHead).toNat ≤ 2 ^ (s.live.ring r).sSize then
    { x with subTail := tail, tails := x.tails ++ [(tail, s.jobs.doorbells)], halt := resumedHalt s r tail }
  else { x with halt := haltTail }

theorem readHead_jobs : (s.readHead r).jobs = s.jobs := by
  simp only [State.readHead]
  split <;> rfl

/-- A write of TAIL counts as a doorbell, and changes nothing else of the jobs. -/
theorem submit_jobs : (s.submit r tail).jobs = { s.jobs with doorbells := (s.submit r tail).jobs.doorbells } := by
  simp only [State.submit]
  split
  · split
    · rw [readHead_jobs]; rfl
    · rfl
  · split
    · split
      · rw [readHead_jobs]; rfl
      · rfl
    · rfl

theorem resumedHalt_of_running (running : (s.ring r).halt = 0) : resumedHalt s r tail = 0 := if_pos running

theorem resumedHalt_of_halted (halted : (s.ring r).halt ≠ 0) :
    resumedHalt s r tail = if headBreaks s r tail then 1 else 0 := if_neg halted

theorem submitted_of_same (same : (tail - (s.ring r).subTail).toNat = 0) :
    submitted s r tail = { s.ring r with halt := resumedHalt s r (s.ring r).subTail } := if_pos same

theorem submitted_of_room (differs : (tail - (s.ring r).subTail).toNat ≠ 0)
    (room : (tail - (s.ring r).subTail).toNat + ((s.ring r).subTail - (s.ring r).subHead).toNat ≤ 2 ^ (s.live.ring r).sSize) :
    submitted s r tail = { s.ring r with
      subTail := tail, tails := (s.ring r).tails ++ [(tail, s.jobs.doorbells)], halt := resumedHalt s r tail } :=
  (if_neg differs).trans (if_pos room)

theorem submitted_of_beyond (differs : (tail - (s.ring r).subTail).toNat ≠ 0)
    (beyond : 2 ^ (s.live.ring r).sSize < (tail - (s.ring r).subTail).toNat + ((s.ring r).subTail - (s.ring r).subHead).toNat) :
    submitted s r tail = { s.ring r with halt := haltTail } :=
  (if_neg differs).trans (if_neg (Nat.not_le.mpr beyond))

/-- A write of TAIL touches no field of its ring but the tail, the halt and the ages. -/
theorem submitted_rest : submitted s r tail = { s.ring r with
    subTail := (submitted s r tail).subTail, halt := (submitted s r tail).halt, tails := (submitted s r tail).tails } := by
  unfold submitted
  dsimp only
  split
  · rfl
  · split <;> rfl

theorem submit_ring (inRange : r < s.rings.length) (k : Nat) :
    (s.submit r tail).ring k = if k = r then submitted s r tail else s.ring k := by
  by_cases same : (tail - (s.ring r).subTail).toNat = 0
  · rw [submitted_of_same same]
    by_cases running : (s.ring r).halt = 0
    · simp only [State.submit, Machine.dist, same, running, bne_self_eq_false, if_true, Bool.false_eq_true, if_false,
        resumedHalt_of_running running]
      split
      · next own => rw [own, ← running]
      · rfl
    · simp only [State.submit, Machine.dist, same, bne_iff_ne.mpr running, if_true, resumedHalt_of_halted running]
      exact readHead_modRing_ring inRange rfl rfl k
  · by_cases room : (tail - (s.ring r).subTail).toNat + ((s.ring r).subTail - (s.ring r).subHead).toNat ≤
        2 ^ (s.live.ring r).sSize
    · rw [submitted_of_room same room]
      by_cases running : (s.ring r).halt = 0
      · simp only [State.submit, Machine.dist, same, room, running, bne_self_eq_false, if_true, Bool.false_eq_true, if_false,
          resumedHalt_of_running running]
        exact State.modRing_ring r k _ inRange
      · simp only [State.submit, Machine.dist, same, room, bne_iff_ne.mpr running, if_true, if_false,
          resumedHalt_of_halted running]
        exact readHead_modRing_ring (s := { s with jobs := { s.jobs with doorbells := s.jobs.doorbells + 1 } }) inRange rfl rfl k
    · rw [submitted_of_beyond same (Nat.not_le.mp room)]
      simp only [State.submit, Machine.dist, same, room, if_false]
      exact State.modRing_ring r k _ inRange

theorem exec_sfdRingSdb_of_on {v : Word} (up : s.up = true) (on : s.ringOn r = true) :
    exec (.sfdRingSdb r v) s = .next (s.submit r (v.setWidth 32)) := by
  show execSfdRingSdb r v s = _
  simp [execSfdRingSdb, up, on, writeField_eq]

theorem exec_sfdRingSdb_of_off {v : Word} (off : s.ringOn r = false) : exec (.sfdRingSdb r v) s = .next s := by
  show execSfdRingSdb r v s = _
  simp [execSfdRingSdb, off]

end

/-- Settles O25: a write of TAIL that moves nothing, fits the room or exceeds it leaves the ring as `submitted` has it. -/
theorem submissionDoorbell : Obligations.SubmissionDoorbell := by
  unfold Obligations.SubmissionDoorbell
  refine ⟨?on, fun r v s => exec_sfdRingSdb_of_off⟩
  intro r v s up inRange on x tail d bad
  have rings := fun k => submit_ring (s := s) (tail := tail) inRange k
  have own := (rings r).trans (if_pos rfl)
  refine ⟨_, exec_sfdRingSdb_of_on up on, State.submit_frame r tail s (OnlyChanges.refl _ s) (by decide) (by decide),
    submit_jobs, fun q other => (rings q).trans (if_neg other), ?_, fun same => ?_, fun differs room => ?_,
    fun differs beyond => ?_⟩
  · rw [own]
    exact submitted_rest
  · rw [own, submitted_of_same same]
    exact ⟨rfl, rfl⟩
  · rw [own, submitted_of_room differs room]
    exact ⟨rfl, rfl⟩
  · rw [own, submitted_of_beyond differs beyond]
    exact ⟨rfl, rfl⟩

end Sys2Proof.SubmissionRings
end

section
/-! PROOFS. Completion entries: what one leaves in its slot, on its ring and of all other bytes, and how a job ends (R308, R325,
R327). -/

namespace Sys2Proof.JobEntries
open Sys2Proof Sys2Proof.Machine Sys2Proof.Safety Sys2Proof.Laws Sys2Proof.InOrder

/-! ## Parts outside a frame -/

section
variable {fs : List Part} {s t : State}

theorem live_eq_of_onlyChanges (frame : OnlyChanges fs s t) (kept : Part.live ∉ fs) : t.live = s.live := by
  simpa [mask, kept] using congrArg State.live frame

theorem rings_eq_of_onlyChanges (frame : OnlyChanges fs s t) (kept : Part.rings ∉ fs) : t.rings = s.rings := by
  simpa [mask, kept] using congrArg State.rings frame

theorem jobs_eq_of_onlyChanges (frame : OnlyChanges fs s t) (kept : Part.jobs ∉ fs) : t.jobs = s.jobs := by
  simpa [mask, kept] using congrArg State.jobs frame

theorem tally_eq_of_onlyChanges (frame : OnlyChanges fs s t) (kept : Part.tally ∉ fs) : t.tally = s.tally := by
  simpa [mask, kept] using congrArg State.tally frame

theorem up_eq_of_onlyChanges (frame : OnlyChanges fs s t) (kept : Part.pwr ∉ fs) : t.up = s.up := by
  have pwr : t.pwr = s.pwr := by simpa [mask, kept] using congrArg State.pwr frame
  rw [State.up, pwr]
  rfl

end

/-! ## One entry -/

section
variable {s : State} {r : Nat} {p : Word32} {body : Nat}

theorem leBytes_length (k n : Nat) : (leBytes k n).length = k := by
  induction k generalizing n with
  | zero => rfl
  | succ k ih => rw [leBytes, List.length_cons, ih]

theorem writeEntry_of_en (en : (s.live.ring r).en = true) :
    s.writeEntry r p body =
      (s.write ((s.live.ring r).slotAddr p) (leBytes 16 (body + phaseDue p (s.live.ring r).cSize))).modRing r (fun x =>
        { x with
          unacked := x.unacked ++ [(s.readModule ((s.live.ring r).slotAddr p), (s.live.ring r).slotAddr p)]
          announce := x.announce || x.armed }) := if_pos en

theorem writeEntry_of_not_en (off : (s.live.ring r).en = false) : s.writeEntry r p body = s := by
  simp only [State.writeEntry, off, Bool.false_eq_true, if_false]

theorem writeEntry_stands (wf : Memory.wf s.mem = true) (en : (s.live.ring r).en = true) :
    EntryStands (s.live.ring r) (s.writeEntry r p body).mem p body := by
  rw [writeEntry_of_en en]
  have reads := memRead_memWrite ((s.live.ring r).slotAddr p) (leBytes 16 (body + phaseDue p (s.live.ring r).cSize)) wf
    (by rw [leBytes_length]; decide)
  rwa [leBytes_length] at reads

/-- An entry is written in its slot alone; a ring that is not enabled has none. -/
theorem writeEntry_onlySlots (wf : Memory.wf s.mem = true) :
    OnlySlots (s.live.ring r) [p] s.mem (s.writeEntry r p body).mem := by
  intro a outside
  cases en : (s.live.ring r).en with
  | false => rw [writeEntry_of_not_en en]
  | true =>
    rw [writeEntry_of_en en]
    refine write_other _ a _ wf ?_
    rw [leBytes_length]
    exact outside p List.mem_cons_self

theorem writeEntry_ring (en : (s.live.ring r).en = true) (inRange : r < s.rings.length) (k : Nat) :
    (s.writeEntry r p body).ring k = if k = r then
      { s.ring r with
        unacked := (s.ring r).unacked ++ [(s.readModule ((s.live.ring r).slotAddr p), (s.live.ring r).slotAddr p)]
        announce := (s.ring r).announce || (s.ring r).armed } else s.ring k := by
  rw [writeEntry_of_en en]
  exact State.modRing_ring r k _ inRange

end

/-! ## A job ends -/

section
variable {s : State} {id status done detail : Nat} {j : Job}

/-- What a job context says once the job entry is written. -/
def ended (status done detail : Nat) (x : Job) : Job :=
  { x with written := true, status := status, done := done, detail := detail, costLeft := 0 }

/-- The job entry of a job is written, and its context says so. -/
def entered (s : State) (id status done detail : Nat) (j : Job) : State :=
  (s.writeEntry j.ring j.entrySlot (jobBody status j.op j.tag done detail)).modJob id (ended status done detail)

theorem finishJob_of_job (found : s.job id = some j) :
    s.finishJob id status done detail = ((entered s id status done detail j).unreserve j.costLeft).freeContexts := by
  simp only [State.finishJob, found]
  rfl

theorem job_id (found : s.job id = some j) : j.id = id := by
  simpa using List.find?_some found

theorem unreserve_frame (s : State) (nj : Nat) : OnlyChanges [.led, .gait, .out] s (s.unreserve nj) :=
  State.unreserve_frame nj s (OnlyChanges.refl _ s) (by decide) (by decide) (by decide)

theorem finishJob_frame (s : State) (id status done detail : Nat) :
    OnlyChanges [.rings, .jobs, .led, .gait, .mem, .out] s (s.finishJob id status done detail) :=
  State.finishJob_frame id status done detail s (OnlyChanges.refl _ s) (by decide) (by decide) (by decide) (by decide)
    (by decide) (by decide)

theorem finishJob_mem (found : s.job id = some j) :
    (s.finishJob id status done detail).mem =
      (s.writeEntry j.ring j.entrySlot (jobBody status j.op j.tag done detail)).mem := by
  have kept := mem_eq_of_onlyChanges (unreserve_frame (entered s id status done detail j) j.costLeft) (by decide)
  rw [finishJob_of_job found]
  exact kept

/-- Whatever contexts of the job are left, the job has ended in them. -/
theorem finishJob_contexts (found : s.job id = some j) {x : Job}
    (left : x ∈ (s.finishJob id status done detail).jobs.jobs) (own : x.id = id) :
    x.written = true ∧ x.status = status ∧ x.done = done ∧ x.detail = detail := by
  rw [finishJob_of_job found] at left
  have held := (List.mem_filter.mp left).1
  rw [jobs_eq_of_onlyChanges (unreserve_frame _ _) (by decide)] at held
  obtain ⟨y, -, rfl⟩ := List.mem_map.mp held
  by_cases same : y.id = id
  · rw [if_pos same]
    exact ⟨rfl, rfl, rfl, rfl⟩
  · rw [if_neg same] at own
    exact absurd own same

theorem finishJob_jobEnds (wf : Memory.wf s.mem = true) (found : s.job id = some j) :
    JobEnds s (s.finishJob id status done detail) j status done detail := by
  refine ⟨fun en => ?_, fun x left own => finishJob_contexts found left (own.trans (job_id found))⟩
  rw [finishJob_mem found]
  exact writeEntry_stands wf en

theorem finishJob_onlySlots (wf : Memory.wf s.mem = true) (found : s.job id = some j) :
    OnlySlots (s.live.ring j.ring) [j.entrySlot] s.mem (s.finishJob id status done detail).mem := by
  rw [finishJob_mem found]
  exact writeEntry_onlySlots wf

theorem jobEnds_of_live {u t : State} (live : u.live = s.live) (ends : JobEnds u t j status done detail) :
    JobEnds s t j status done detail := by
  unfold JobEnds at *
  rwa [← live]

/-! ## Open jobs -/

theorem openJob_eq_some_iff {op : Nat} :
    s.openJob id op = some j ↔ s.job id = some j ∧ j.op = op ∧ j.written = false := by
  cases found : s.job id with
  | none => simp [State.openJob, found]
  | some x =>
    simp only [State.openJob, found, Option.ite_none_right_eq_some, Option.some.injEq]
    constructor
    · rintro ⟨holds, rfl⟩
      exact ⟨rfl, holds⟩
    · rintro ⟨rfl, holds⟩
      exact ⟨holds, rfl⟩

end

/-! ## The head of a ring -/

section
variable {s : State} {r : Nat} {d : BitVec 512}

/-- A ring has a job at its head where it is up, runs, holds a descriptor, and that one keeps R311. -/
theorem headDesc_eq_some_iff : s.headDesc r = some d ↔ s.ringOn r = true ∧ (s.ring r).halt = 0 ∧
    (s.ring r).subHead ≠ (s.ring r).subTail ∧ s.dgenOk r = true ∧ s.descriptor r (s.ring r).subHead = d := by
  simp [State.headDesc, Option.ite_none_left_eq_some, not_or, and_assoc]

theorem en_of_ringOn (on : s.ringOn r = true) : (s.live.ring r).en = true := (Bool.and_eq_true_iff.mp on).1

/-- A ring with a job at its head has no descriptor to halt for. -/
theorem readHead_of_headDesc (head : s.headDesc r = some d) : s.readHead r = s := by
  obtain ⟨-, -, -, good, -⟩ := headDesc_eq_some_iff.mp head
  simp only [State.readHead, good, or_true, if_true]

theorem headState_of_held {c : Nat} {cs : List Nat} (head : s.headDesc r = some d) (gate : s.gateCauses r d = c :: cs) :
    s.headState r = .held (c :: cs) := by
  simp only [State.headState, head, gate]

theorem headState_of_refused {st : Nat} (head : s.headDesc r = some d) (gate : s.gateCauses r d = [])
    (fails : s.jobCheck r d = some st) :
    s.headState r = if s.freeSlots r = 0 then .held [holdSlots] else .refused st := by
  simp only [State.headState, head, gate, fails]

theorem headDesc_isSome_of_ready (ready : s.headState r = .ready) : ∃ d, s.headDesc r = some d := by
  cases head : s.headDesc r with
  | none => simp [State.headState, head] at ready
  | some d => exact ⟨d, rfl⟩

end

end Sys2Proof.JobEntries
end

section
/-! PROOFS. Refused jobs (O28): a job that fails a check of R315 at the head of its ring. -/

namespace Sys2Proof.Refusals
open Sys2Proof Sys2Proof.Machine Sys2Proof.Safety Sys2Proof.Laws Sys2Proof.JobEntries

section
variable {s : State} {r st : Nat} {d : BitVec 512}

/-- The job at the head of a ring has gone, and a completion slot is reserved. -/
def passed (s : State) (r : Nat) : State := s.modRing r (fun x => { x.taken with cmpTail := x.cmpTail + 1 })

theorem exec_jobRefusal_of_refused (up : s.up = true) (head : s.headDesc r = some d) (refused : s.headState r = .refused st) :
    exec (.jobRefusal r) s = .next ((passed s r).writeEntry r (s.ring r).cmpTail
      (jobBody st (descOp d) (descTag d) (s.refusalDetail d).1 (s.refusalDetail d).2)) := by
  show execJobRefusal r s = _
  simp only [execJobRefusal, up, if_true, readHead_of_headDesc head, ite_self, head, refused]
  rfl

theorem exec_jobRefusal_of_held {cs : List Nat} (head : s.headDesc r = some d) (held : s.headState r = .held cs) :
    exec (.jobRefusal r) s = .next s := by
  show execJobRefusal r s = _
  simp only [execJobRefusal, readHead_of_headDesc head, ite_self, head, held]

theorem passed_ring (inRange : r < s.rings.length) (k : Nat) :
    (passed s r).ring k = if k = r then { (s.ring r).taken with cmpTail := (s.ring r).cmpTail + 1 } else s.ring k :=
  State.modRing_ring r k _ inRange

theorem refusalDetail_of_not_release (other : descOp d ≠ 10) : s.refusalDetail d = (0, 0) := if_neg other

end

/-- Settles O28: the refused job leaves its ring and its entry is written at CMP_TAIL, where a slot is free for it. -/
theorem jobRefusal : Obligations.JobRefusal := by
  unfold Obligations.JobRefusal
  refine ⟨?refused, ?waits⟩
  case refused =>
    intro r st d s up inRange wf head refused x c
    obtain ⟨on, -⟩ := headDesc_eq_some_iff.mp head
    have en : ((passed s r).live.ring r).en = true := en_of_ringOn (s := s) on
    have rings := passed_ring (s := s) inRange
    have entered := writeEntry_ring (s := passed s r) (p := x.cmpTail)
      (body := jobBody st (descOp d) (descTag d) (s.refusalDetail d).1 (s.refusalDetail d).2) en
      (by simpa [passed, State.modRing] using inRange)
    refine ⟨_, (s.refusalDetail d).1, (s.refusalDetail d).2, exec_jobRefusal_of_refused up head refused, ?_, ?_,
      fun q other => ?_, writeEntry_stands (s := passed s r) wf en, fun other => ?_, writeEntry_onlySlots (s := passed s r) wf⟩
    · exact State.writeEntry_frame _ _ _ _ (State.modRing_frame _ _ s (OnlyChanges.refl _ s) (by decide)) (by decide) (by decide)
    · rw [entered, if_pos rfl, rings, if_pos rfl]
      rfl
    · rw [entered, if_neg other, rings, if_neg other]
    · rw [refusalDetail_of_not_release other]
      exact ⟨rfl, rfl⟩
  case waits =>
    intro r d s head gate fails full
    obtain ⟨st, fails⟩ := Option.isSome_iff_exists.mp fails
    have held : s.headState r = .held [2] := (headState_of_refused head gate fails).trans (if_pos full)
    exact ⟨held, exec_jobRefusal_of_held head held⟩

end Sys2Proof.Refusals
end

section
/-! PROOFS. Fences (O29): a fence waits for the job entries of earlier jobs, and holds the jobs behind it on its ring. -/

namespace Sys2Proof.FenceJobs
open Sys2Proof Sys2Proof.Machine Sys2Proof.Safety Sys2Proof.Laws Sys2Proof.JobEntries

section
variable {s : State} {id : Nat} {j : Job}

/-- What keeps a fence waiting: an earlier job of a ring it waits for that has not written its job entry. -/
theorem fenceClear_iff : s.fenceClear j = true ↔
    ∀ x ∈ s.jobs.jobs, x.id < j.id → x.ring = j.ring ∨ descGlobal j.desc = true → x.written = true := by
  simp only [State.fenceClear, List.all_eq_true]
  refine forall₂_congr fun x _ => ?_
  by_cases later : j.id ≤ x.id
  · simp [later, Nat.not_lt.mpr later]
  · by_cases written : x.written = true
    · simp [written]
    · by_cases same : x.ring = j.ring <;> simp [later, Nat.not_le.mp later, written, same]

theorem exec_fence_of_open (up : s.up = true) (isOpen : s.openJob id 9 = some j) :
    exec (.fence id) s = .next (s.modJob id (fun x => { x with begun := true })) := by
  obtain ⟨found, -⟩ := openJob_eq_some_iff.mp isOpen
  show execFence id s = _
  simp only [execFence, up, if_true, isOpen, job_id found]

theorem exec_fenceComplete_of_clear (up : s.up = true) (isOpen : s.openJob id 9 = some j) (begun : j.begun = true)
    (clear : s.fenceClear j = true) : exec (.fenceComplete id) s = .next (s.finishJob id stJobOk 0 0) := by
  show execFenceComplete id s = _
  simp only [execFenceComplete, up, if_true, isOpen, begun, clear, Bool.and_self]

theorem exec_fenceComplete_of_blocked (isOpen : s.openJob id 9 = some j) (blocked : s.fenceClear j = false) :
    exec (.fenceComplete id) s = .next s := by
  show execFenceComplete id s = _
  simp only [execFenceComplete, isOpen, blocked, Bool.and_false, Bool.false_eq_true, if_false, ite_self]

/-- An open fence of a ring holds what comes behind it with ORDER (R317). -/
theorem gateCauses_of_fence {d : BitVec 512} (held : j ∈ s.jobs.jobs) (fence : j.op = 9) (unwritten : j.written = false) :
    s.gateCauses j.ring d = holdOrder :: if s.gateHolds j.ring d then [holdReplay] else [] := by
  have waits : (s.openJobs j.ring).any (fun x => x.op == opFence || x.op == opMount) = true :=
    List.any_eq_true.mpr ⟨j, List.mem_filter.mpr ⟨held, by simp [unwritten]⟩, by simp [fence]⟩
  simp only [State.gateCauses, waits, if_true, List.singleton_append]

end

/-- Settles O29: a fence that is clear ends as any job does, one that is not waits, and its ring waits with it. -/
theorem fences : Obligations.Fences := by
  unfold Obligations.Fences
  refine ⟨fun id j s => exec_fence_of_open, ?completes, ?waits, ?orders⟩
  case completes =>
    intro id j s up wf isOpen begun earlier
    obtain ⟨found, -⟩ := openJob_eq_some_iff.mp isOpen
    exact ⟨_, exec_fenceComplete_of_clear up isOpen begun (fenceClear_iff.mpr earlier),
      finishJob_frame s id stJobOk 0 0, finishJob_jobEnds wf found, finishJob_onlySlots wf found⟩
  case waits =>
    intro id j x s isOpen held earlier awaited unwritten
    refine exec_fenceComplete_of_blocked isOpen (Bool.eq_false_iff.mpr fun clear => ?_)
    exact Bool.eq_false_iff.mp unwritten (fenceClear_iff.mp clear x held earlier awaited)
  case orders =>
    intro j d s held fence unwritten head
    exact ⟨_, headState_of_held head (gateCauses_of_fence held fence unwritten), List.mem_cons_self⟩

end Sys2Proof.FenceJobs
end

section
/-! PROOFS. Release requests (O30): how far the effective cursor of a stream moves, and how a request is answered. -/

namespace Sys2Proof.Releases
open Sys2Proof Sys2Proof.Machine Sys2Proof.Safety Sys2Proof.Laws Sys2Proof.InOrder Sys2Proof.Doorbells Sys2Proof.JobEntries
open Sys2Proof.Answering (onlyChanges_mono)

/-! ## The effective release cursor (R333) -/

/-- The effective cursor of a stream has moved by k records: past none that a dispatched job still names, not beyond REQUESTED, and
with the head and block of each record gone. -/
structure Advanced (s t : State) (st k : Nat) : Prop where
  own : t.stream st = { s.stream st with release := (s.stream st).release + BitVec.ofNat 32 k }
  others : ∀ q, q ≠ st → t.stream q = s.stream q
  free : ∀ i, i < k → s.namedUncommitted st ((s.stream st).release + BitVec.ofNat 32 i) = false
  heads : ∀ h, h ∈ t.acc.heads ↔
    h ∈ s.acc.heads ∧ ¬∃ i, i < k ∧ h.stream = st ∧ h.seq = (s.stream st).release + BitVec.ofNat 32 i
  within : k ≤ ((s.stream st).requested - (s.stream st).release).toNat

section
variable {s t : State} {st k n : Nat}

/-- The cursor has nothing to pass, or may not pass the next record. -/
def Stopped (s : State) (st : Nat) : Prop :=
  (s.stream st).release = (s.stream st).requested ∨ s.namedUncommitted st (s.stream st).release = true

theorem advanced_refl (s : State) (st : Nat) : Advanced s s st 0 where
  own := by simp
  others _ _ := rfl
  free i below := absurd below (Nat.not_lt_zero i)
  heads := by simp
  within := Nat.zero_le _

/-- The cursor has passed one record. -/
def passRecord (s : State) (st : Nat) : State :=
  let heads := s.acc.heads.filter (fun h => !(h.stream == st && h.seq == (s.stream st).release))
  ({ s with acc := { s.acc with heads := heads } } : State).modStream st (fun y => { y with release := y.release + 1 })

theorem advanceRelease_of_stopped (stopped : Stopped s st) : s.advanceRelease st n = s := by
  cases n with
  | zero => rfl
  | succ n => exact if_pos stopped

theorem advanceRelease_of_moving (moving : ¬Stopped s st) :
    s.advanceRelease st (n + 1) = (passRecord s st).advanceRelease st n := if_neg moving

theorem passRecord_stream (started : (s.stream st).started = true) (q : Nat) :
    (passRecord s st).stream q =
      if q = st then { s.stream st with release := (s.stream st).release + 1 } else s.stream q :=
  modStream_stream_of_started (f := fun y => { y with release := y.release + 1 }) started q

theorem mem_passRecord_heads {h : Head} :
    h ∈ (passRecord s st).acc.heads ↔ h ∈ s.acc.heads ∧ ¬(h.stream = st ∧ h.seq = (s.stream st).release) := by
  refine List.mem_filter.trans (and_congr_right fun _ => ?_)
  rw [Bool.not_eq_true', ← Bool.not_eq_true, Bool.and_eq_true, beq_iff_eq, beq_iff_eq]

/-- The record after the next i is the one i behind the next. -/
theorem cursor_succ (a : Word32) (i : Nat) : a + 1 + BitVec.ofNat 32 i = a + BitVec.ofNat 32 (i + 1) := by
  rw [BitVec.add_assoc, Nat.add_comm i 1]
  exact congrArg (a + ·) (BitVec.ofNat_add 1 i).symm

/-- One record nearer. -/
theorem distance_succ {a b : Word32} (differs : a ≠ b) : (b - a).toNat = (b - (a + 1)).toNat + 1 := by
  bv_omega

/-- One record passed, and k more from there. -/
theorem advanced_succ (started : (s.stream st).started = true) (moving : ¬Stopped s st)
    (rest : Advanced (passRecord s st) t st k) : Advanced s t st (k + 1) := by
  obtain ⟨notThere, unnamed⟩ := not_or.mp moving
  obtain ⟨own, others, free, heads, within⟩ := rest
  have streams := passRecord_stream started
  rw [streams, if_pos rfl] at own free heads within
  refine ⟨?_, fun q other => ?_, fun i below => ?_, fun h => ?_, ?_⟩
  · rw [own, ← cursor_succ]
  · rw [others q other, streams, if_neg other]
  · cases i with
    | zero => simpa using unnamed
    | succ i =>
      rw [← cursor_succ]
      exact free i (by omega)
  · rw [heads, mem_passRecord_heads, Nat.exists_lt_succ_left, not_or, and_assoc, BitVec.add_zero]
    simp only [cursor_succ]
  · rw [distance_succ notThere]
    exact Nat.succ_le_succ within

theorem advanceRelease_advanced (started : (s.stream st).started = true) (n : Nat) :
    ∃ k, Advanced s (s.advanceRelease st n) st k ∧
      (((s.stream st).requested - (s.stream st).release).toNat ≤ n → Stopped (s.advanceRelease st n) st) := by
  induction n generalizing s with
  | zero =>
    refine ⟨0, advanced_refl s st, fun arrived => .inl ?_⟩
    show (s.stream st).release = (s.stream st).requested
    bv_omega
  | succ n ih =>
    by_cases stopped : Stopped s st
    · rw [advanceRelease_of_stopped stopped]
      exact ⟨0, advanced_refl s st, fun _ => stopped⟩
    · rw [advanceRelease_of_moving stopped]
      have streams := passRecord_stream started
      obtain ⟨k, rest, stops⟩ := ih (s := passRecord s st) (by rw [streams, if_pos rfl]; exact started)
      refine ⟨k + 1, advanced_succ started stopped rest, fun near => stops ?_⟩
      rw [streams, if_pos rfl]
      rw [distance_succ (not_or.mp stopped).1] at near
      exact Nat.le_of_succ_le_succ near

end

/-! ## Requests (R332) -/

section
variable {c : Word32} {x : Stream}

theorem releaseCheck_of_behind (behind : (c - x.release).toNat = 0 ∨ 2 ^ 31 ≤ (c - x.release).toNat) :
    x.releaseCheck c = .ignored := if_pos behind

theorem releaseCheck_of_beyond (ahead : ¬((c - x.release).toNat = 0 ∨ 2 ^ 31 ≤ (c - x.release).toNat))
    (beyond : (x.accept - x.release).toNat < (c - x.release).toNat) : x.releaseCheck c = .refused :=
  (if_neg ahead).trans (if_pos beyond)

theorem releaseCheck_of_within (ahead : ¬((c - x.release).toNat = 0 ∨ 2 ^ 31 ≤ (c - x.release).toNat))
    (within : ¬(x.accept - x.release).toNat < (c - x.release).toNat) : x.releaseCheck c = .taken :=
  (if_neg ahead).trans (if_neg within)

theorem releaseCheck_refused_iff : x.releaseCheck c = .refused ↔
    (c - x.release).toNat ≠ 0 ∧ (c - x.release).toNat < 2 ^ 31 ∧ (x.accept - x.release).toNat < (c - x.release).toNat := by
  by_cases behind : (c - x.release).toNat = 0 ∨ 2 ^ 31 ≤ (c - x.release).toNat
  · rw [releaseCheck_of_behind behind]
    refine ⟨nofun, fun ahead => ?_⟩
    omega
  · by_cases beyond : (x.accept - x.release).toNat < (c - x.release).toNat
    · rw [releaseCheck_of_beyond behind beyond]
      refine ⟨fun _ => ?_, fun _ => rfl⟩
      omega
    · rw [releaseCheck_of_within behind beyond]
      exact ⟨nofun, fun ahead => absurd ahead.2.2 beyond⟩

theorem releaseCheck_ne_taken (outside : (c - x.release).toNat = 0 ∨ 2 ^ 31 ≤ (c - x.release).toNat ∨
    (x.accept - x.release).toNat < (c - x.release).toNat) : x.releaseCheck c ≠ .taken := by
  by_cases behind : (c - x.release).toNat = 0 ∨ 2 ^ 31 ≤ (c - x.release).toNat
  · rw [releaseCheck_of_behind behind]
    nofun
  · rw [releaseCheck_of_beyond behind (by omega)]
    nofun

/-- A stream after a request that is taken, which moves REQUESTED on only. -/
def requestedBy (c : Word32) (x : Stream) : Stream :=
  if (x.requested - x.release).toNat < (c - x.release).toNat then { x with requested := c } else x

theorem requestedBy_requested : (requestedBy c x).requested =
    if (x.requested - x.release).toNat < (c - x.release).toNat then c else x.requested := by
  unfold requestedBy
  split <;> rfl

theorem requestedBy_rest : requestedBy c x = { x with requested := (requestedBy c x).requested } := by
  unfold requestedBy
  split <;> rfl

end

section
variable {s : State} {st : Nat} {c : Word32}

/-- The request is noted. -/
def noted (s : State) (st : Nat) (c : Word32) : State := s.modStream st (requestedBy c)

theorem noted_stream (started : (s.stream st).started = true) (q : Nat) :
    (noted s st c).stream q = if q = st then requestedBy c (s.stream st) else s.stream q :=
  modStream_stream_of_started (by rw [requestedBy_rest]; exact started) q

/-- Where the effective cursor has come to once a request is noted. -/
def requestMoved (s : State) (st : Nat) (c : Word32) : State := (noted s st c).advanceRelease st (s.acc.heads.length + 1)

theorem refreshHeld_frame (u : State) : OnlyChanges [.pwr, .out] u u.refreshHeld :=
  State.refreshHeld_frame u (OnlyChanges.refl _ u) (by decide) (by decide)

theorem requestRelease_ing : (s.requestRelease st c).ing = (requestMoved s st c).ing :=
  ing_eq_of_onlyChanges (refreshHeld_frame _) (by decide)

theorem requestRelease_stream (q : Nat) : (s.requestRelease st c).stream q = (requestMoved s st c).stream q := by
  rw [State.stream, requestRelease_ing]
  rfl

theorem requestRelease_acc : (s.requestRelease st c).acc = (requestMoved s st c).acc :=
  acc_eq_of_onlyChanges (refreshHeld_frame _) (by decide)

theorem requestRelease_frame (s : State) (st : Nat) (c : Word32) :
    OnlyChanges [.ing, .acc, .pwr, .out] s (s.requestRelease st c) :=
  State.requestRelease_frame st c s (OnlyChanges.refl _ s) (by decide) (by decide) (by decide) (by decide)

theorem requestMoved_jobs : (requestMoved s st c).jobs = s.jobs :=
  jobs_eq_of_onlyChanges (fs := [.acc, .ing])
    (State.advanceRelease_frame _ _ _ (OnlyChanges.refl _ (noted s st c)) (by decide) (by decide)) (by decide)

theorem exec_sfdRelease (v : Word) (s : State) : exec (.sfdRelease v) s = .next
    (if s.up && (s.stream ((v.toNat >>> 32) % 4096)).releaseCheck (v.setWidth 32) == .taken then
      s.requestRelease ((v.toNat >>> 32) % 4096) (v.setWidth 32) else s) := by
  rw [← writeField_eq]
  rfl

theorem noted_stream_own (started : (s.stream st).started = true) :
    (noted s st c).stream st = { s.stream st with requested := (requestedBy c (s.stream st)).requested } := by
  rw [noted_stream started, if_pos rfl]
  exact requestedBy_rest

/-- A request that is taken moves the effective cursor, and where the heads let it, as far as it may. -/
theorem requestRelease_advanced (started : (s.stream st).started = true) :
    ∃ k, Advanced (noted s st c) (s.requestRelease st c) st k ∧
      (((requestedBy c (s.stream st)).requested - (s.stream st).release).toNat ≤ s.acc.heads.length + 1 →
        Stopped (requestMoved s st c) st) := by
  have own := noted_stream_own (c := c) started
  obtain ⟨k, moved, stops⟩ := advanceRelease_advanced (s := noted s st c) (st := st) (by rw [own]; exact started)
    (s.acc.heads.length + 1)
  rw [own] at stops
  refine ⟨k, ⟨?_, fun q other => ?_, moved.free, fun h => ?_, moved.within⟩, stops⟩
  · rw [requestRelease_stream]
    exact moved.own
  · rw [requestRelease_stream]
    exact moved.others q other
  · rw [requestRelease_acc]
    exact moved.heads h

/-- REQUESTED stands where the request has put it, however far the effective cursor has come. -/
theorem requestRelease_requested (started : (s.stream st).started = true) :
    ((s.requestRelease st c).stream st).requested = (requestedBy c (s.stream st)).requested := by
  obtain ⟨k, moved, -⟩ := requestRelease_advanced (c := c) started
  rw [moved.own, noted_stream_own started]

/-- A cursor that has stopped has come to REQUESTED or to a record that a job still names. -/
theorem stopped_requestMoved (stopped : Stopped (requestMoved s st c) st) :
    ((s.requestRelease st c).stream st).release = ((s.requestRelease st c).stream st).requested ∨
      s.namedUncommitted st ((s.requestRelease st c).stream st).release = true := by
  rw [requestRelease_stream]
  rwa [Stopped, State.namedUncommitted, requestMoved_jobs] at stopped

end

/-! ## RELEASE jobs (R315, R327) -/

section
variable {s : State} {d : BitVec 512} {r : Nat}

/-- A RELEASE job that passes the check of its descriptor can fail no check but that of its cursor. -/
theorem jobCheck_of_release (ok : descOk d = true) (release : descOp d = 10) : s.jobCheck r d =
    if (s.stream (descRelStream d)).releaseCheck (descCursor d) = .refused then some 0x109 else none := by
  have notScoring : isScoring 10 = false := rfl
  have notDrain : (10 == opDrain) = false ∧ 10 ≠ opDrain := by decide
  have room : ¬2 ^ (s.live.ring r).cSize < descSlots d := by
    rw [descSlots, release, notScoring]
    exact Nat.not_lt.mpr Nat.one_le_two_pow
  simp only [State.jobCheck, ok, release, notScoring, notDrain, room, Bool.true_eq_false, Bool.false_eq_true, Bool.false_and,
    Bool.or_self, false_and, true_and, if_false]

/-- The state in which a RELEASE job ends: its request has been taken, or is ignored. -/
def requestHandled (s : State) (j : Job) : State :=
  if (s.stream (descRelStream j.desc)).releaseCheck (descCursor j.desc) = .taken then
    s.requestRelease (descRelStream j.desc) (descCursor j.desc)
  else s

variable {j : Job} {id : Nat}

theorem requestHandled_frame : OnlyChanges [.ing, .acc, .pwr, .out] s (requestHandled s j) := by
  unfold requestHandled
  split
  · exact requestRelease_frame _ _ _
  · exact OnlyChanges.refl _ s

theorem requestHandled_of_taken
    (taken : (s.stream (descRelStream j.desc)).releaseCheck (descCursor j.desc) = .taken) :
    requestHandled s j = s.requestRelease (descRelStream j.desc) (descCursor j.desc) := if_pos taken

theorem requestHandled_of_outside (outside :
    let x := s.stream (descRelStream j.desc)
    let d := (descCursor j.desc - x.release).toNat
    d = 0 ∨ 2 ^ 31 ≤ d ∨ (x.accept - x.release).toNat < d) : requestHandled s j = s :=
  if_neg (releaseCheck_ne_taken outside)

theorem requestHandled_job (found : s.job id = some j) : (requestHandled s j).job id = some j := by
  rw [State.job, jobs_eq_of_onlyChanges requestHandled_frame (by decide)]
  exact found

/-- A RELEASE job after its step: its request is answered, and it has ended with JOB_OK. -/
def releaseDone (s : State) (id : Nat) (j : Job) : State :=
  (requestHandled s j).finishJob id stJobOk ((requestHandled s j).stream (descRelStream j.desc)).release.toNat
    (descCursor j.desc).toNat

theorem exec_release_of_open (up : s.up = true) (isOpen : s.openJob id 10 = some j) :
    exec (.release id) s = .next (releaseDone s id j) := by
  show execRelease id s = _
  simp only [execRelease, up, if_true, State.completeRelease, isOpen]
  rfl

theorem releaseDone_ing : (releaseDone s id j).ing = (requestHandled s j).ing :=
  ing_eq_of_onlyChanges (finishJob_frame _ _ _ _ _) (by decide)

theorem releaseDone_acc : (releaseDone s id j).acc = (requestHandled s j).acc :=
  acc_eq_of_onlyChanges (finishJob_frame _ _ _ _ _) (by decide)

theorem releaseDone_stream (q : Nat) : (releaseDone s id j).stream q = (requestHandled s j).stream q := by
  rw [State.stream, releaseDone_ing]
  rfl

theorem releaseDone_frame :
    OnlyChanges [.ing, .acc, .rings, .jobs, .led, .gait, .pwr, .mem, .out] s (releaseDone s id j) :=
  OnlyChanges.trans (onlyChanges_mono (by decide) requestHandled_frame)
    (onlyChanges_mono (by decide) (finishJob_frame (requestHandled s j) _ _ _ _))

end

/-- Settles O30: a request is answered by the distances of R332, and the effective cursor moves by induction on the records it
may pass. -/
theorem releaseRequests : Obligations.ReleaseRequests := by
  unfold Obligations.ReleaseRequests
  refine ⟨?register, ?checks, ?job⟩
  case register =>
    intro v s up st c x d
    refine ⟨fun outside => ?_, fun started ahead near within => ?_⟩
    · have untaken : (x.releaseCheck c == .taken) = false := beq_eq_false_iff_ne.mpr (releaseCheck_ne_taken outside)
      rw [exec_sfdRelease, untaken, Bool.and_false, if_neg Bool.false_ne_true]
    · have taken : x.releaseCheck c = .taken := releaseCheck_of_within (by omega) (by omega)
      obtain ⟨k, ⟨own, others, free, heads, most⟩, stops⟩ := requestRelease_advanced (c := c) started
      rw [noted_stream_own started] at own free heads most
      refine ⟨_, k, ?_, requestRelease_frame s st c, ?_, ?_, ?_, fun q other => ?_, free, heads, ?_, fun close => ?_⟩
      · rw [exec_sfdRelease, taken, up]
        rfl
      · rw [requestRelease_requested started, requestedBy_requested]
      · rw [own]
      · rw [own]
      · rw [others q other, noted_stream started, if_neg other]
      · rw [requestRelease_requested started]
        exact most
      · rw [requestRelease_requested started] at close
        exact stopped_requestMoved (stops close)
  case checks =>
    intro r d s ok release x n
    rw [jobCheck_of_release ok release]
    refine ⟨?_, ?_⟩
    · rw [← releaseCheck_refused_iff]
      simp [x]
    · split
      · exact .inl rfl
      · exact .inr rfl
  case job =>
    intro id j s up wf isOpen st x d
    obtain ⟨found, -⟩ := openJob_eq_some_iff.mp isOpen
    have live := live_eq_of_onlyChanges (requestHandled_frame (s := s) (j := j)) (by decide)
    have mem := mem_eq_of_onlyChanges (requestHandled_frame (s := s) (j := j)) (by decide)
    have held := requestHandled_job found
    refine ⟨_, exec_release_of_open up isOpen, releaseDone_frame, ?_, ?_, fun outside => ?_,
      fun started ahead near within => ?_⟩
    · rw [releaseDone_stream]
      exact jobEnds_of_live live (finishJob_jobEnds (mem ▸ wf) held)
    · rw [← live, ← mem]
      exact finishJob_onlySlots (mem ▸ wf) held
    · rw [releaseDone_ing, releaseDone_acc, requestHandled_of_outside outside]
      exact ⟨rfl, rfl⟩
    · have taken : x.releaseCheck (descCursor j.desc) = .taken := releaseCheck_of_within (by omega) (by omega)
      rw [releaseDone_stream, requestHandled_of_taken taken]
      exact (requestRelease_requested started).trans requestedBy_requested

end Sys2Proof.Releases
end

section
/-! PROOFS. Dispatch (O27): the ring that the Rein chooses, and what a dispatched job takes. -/

namespace Sys2Proof.Dispatches
open Sys2Proof Sys2Proof.Machine Sys2Proof.Safety Sys2Proof.Laws Sys2Proof.JobEntries
open Sys2Proof.Answering (onlyChanges_mono)

/-! ## The choice of the Rein (R375) -/

/-- The Rein takes a job of ring r no later than one of ring q. -/
def NotAfter (s : State) (r q : Nat) : Prop :=
  (s.live.ring q).prio < (s.live.ring r).prio ∨
    ((s.live.ring q).prio = (s.live.ring r).prio ∧ (s.ring r).age ≤ (s.ring q).age)

/-- A ring before the best one so far: a higher PRIO, or an older head of the same. -/
def Before (s : State) (r b : Nat) : Prop :=
  (s.live.ring b).prio < (s.live.ring r).prio ∨
    ((s.live.ring r).prio = (s.live.ring b).prio ∧ (s.ring r).age < (s.ring b).age)

/-- The choice among the first n rings. -/
def choiceOf (s : State) (n : Nat) : Option Nat :=
  (List.range n).foldl (fun (best : Option Nat) r =>
    if s.headStateFair r = .ready then
      match best with
      | none => some r
      | some b =>
        let p := (s.live.ring r).prio
        let q := (s.live.ring b).prio
        if q < p ∨ (p = q ∧ (s.ring r).age < (s.ring b).age) then some r else some b
    else best) none

/-- What the choice among the first n rings is: a ready ring that comes after no other. -/
def IsChoice (s : State) (n : Nat) : Option Nat → Prop
  | none => ∀ q < n, s.headStateFair q ≠ .ready
  | some r => r < n ∧ s.headStateFair r = .ready ∧ ∀ q < n, s.headStateFair q = .ready → NotAfter s r q

section
variable {s : State} {n r b q : Nat}

theorem notAfter_refl : NotAfter s r r := .inr ⟨rfl, Nat.le_refl _⟩

theorem notAfter_of_before (before : Before s r b) (first : NotAfter s b q) : NotAfter s r q := by
  unfold Before NotAfter at *
  omega

theorem notAfter_of_not_before (behind : ¬Before s r b) : NotAfter s b r := by
  unfold Before NotAfter at *
  omega

theorem reinChoice_eq : s.reinChoice = choiceOf s 64 := rfl

theorem choiceOf_succ_of_not_ready (notReady : s.headStateFair n ≠ .ready) : choiceOf s (n + 1) = choiceOf s n := by
  rw [choiceOf, List.range_succ, List.foldl_append, List.foldl_cons, List.foldl_nil, if_neg notReady]
  rfl

theorem choiceOf_succ_of_ready (ready : s.headStateFair n = .ready) : choiceOf s (n + 1) =
    match choiceOf s n with
    | none => some n
    | some b =>
      if (s.live.ring b).prio < (s.live.ring n).prio ∨
        ((s.live.ring n).prio = (s.live.ring b).prio ∧ (s.ring n).age < (s.ring b).age) then some n else some b := by
  rw [choiceOf, List.range_succ, List.foldl_append, List.foldl_cons, List.foldl_nil, if_pos ready]
  rfl

theorem isChoice_choiceOf (s : State) (n : Nat) : IsChoice s n (choiceOf s n) := by
  induction n with
  | zero => exact fun q below => absurd below (Nat.not_lt_zero q)
  | succ n ih =>
    by_cases ready : s.headStateFair n = .ready
    · rw [choiceOf_succ_of_ready ready]
      cases best : choiceOf s n with
      | none =>
        rw [best] at ih
        refine ⟨Nat.lt_succ_self n, ready, Nat.forall_lt_succ_right.mpr ⟨fun q below other => ?_, fun _ => notAfter_refl⟩⟩
        exact absurd other (ih q below)
      | some b =>
        rw [best] at ih
        obtain ⟨inRange, bestReady, first⟩ := ih
        dsimp only
        split
        case isTrue before =>
          exact ⟨Nat.lt_succ_self n, ready, Nat.forall_lt_succ_right.mpr
            ⟨fun q below other => notAfter_of_before before (first q below other), fun _ => notAfter_refl⟩⟩
        case isFalse behind =>
          exact ⟨Nat.lt_succ_of_lt inRange, bestReady, Nat.forall_lt_succ_right.mpr
            ⟨first, fun _ => notAfter_of_not_before behind⟩⟩
    · rw [choiceOf_succ_of_not_ready ready]
      cases best : choiceOf s n with
      | none =>
        rw [best] at ih
        exact Nat.forall_lt_succ_right.mpr ⟨ih, ready⟩
      | some b =>
        rw [best] at ih
        obtain ⟨inRange, bestReady, first⟩ := ih
        exact ⟨Nat.lt_succ_of_lt inRange, bestReady, Nat.forall_lt_succ_right.mpr
          ⟨first, fun other => absurd other ready⟩⟩

theorem isChoice_reinChoice (chosen : s.reinChoice = some r) : IsChoice s 64 (some r) := by
  rw [← chosen, reinChoice_eq]
  exact isChoice_choiceOf s 64

/-- FAIR only holds jobs back: what is ready with it is ready without. -/
theorem headState_of_fair_ready (ready : s.headStateFair r = .ready) : s.headState r = .ready := by
  simp only [State.headStateFair] at ready
  split at ready
  · assumption
  · split at ready <;> cases ready
  · exact ready

/-- The ring that the Rein chooses has a job at its head. -/
theorem headDesc_of_reinChoice (chosen : s.reinChoice = some r) : ∃ d, s.headDesc r = some d := by
  obtain ⟨-, ready, -⟩ := isChoice_reinChoice chosen
  exact headDesc_isSome_of_ready (headState_of_fair_ready ready)

end

/-! ## The halt of bad heads (R311) -/

section
variable {s : State}

theorem haltBad_frame (s : State) : OnlyChanges [.rings] s s.haltBad :=
  State.haltBad_frame s (OnlyChanges.refl _ s) (by decide)

theorem readHead_rings_length (r : Nat) : (s.readHead r).rings.length = s.rings.length := by
  simp only [State.readHead]
  split
  · rfl
  · simp [State.modRing]

theorem haltBad_rings_length (s : State) : s.haltBad.rings.length = s.rings.length := by
  have folded : ∀ (rs : List Nat) (t : State), (rs.foldl (fun t r =>
      if t.ringOn r && (t.ring r).halt == haltNone then t.readHead r else t) t).rings.length = t.rings.length := by
    intro rs
    induction rs with
    | nil => exact fun t => rfl
    | cons r rs ih =>
      intro t
      rw [List.foldl_cons, ih]
      split
      · exact readHead_rings_length r
      · rfl
  exact folded _ s

end

/-! ## The tiles of a dispatched job (R145, R150) -/

section
variable {s : State} {n k id : Nat}

/-- A change that leaves its tile owned never unlists it, so that it reads back whatever the form of the store. -/
theorem modTile_tile_of_owned {f : Tile → Tile} (owned : (f (s.tile n)).owner = some id) (k : Nat) :
    (s.modTile n f).tile k = if k = n then f (s.tile n) else s.tile k := by
  have listed : f (s.tile n) ≠ Tile.reset := by
    intro unlisted
    rw [unlisted] at owned
    cases owned
  show sget Tile.reset (sset Tile.reset s.tally.tiles n (f (s.tile n))) k = _
  rw [sset, if_neg listed]
  exact sget_sput s.tally.tiles

/-- Tiles taken one after the other stay owned: those taken before, and those of the list. -/
theorem foldl_modTile_owner {f : Tile → Tile} (takes : ∀ x, (f x).owner = some id) (ns : List Nat) (s : State)
    (taken : (s.tile k).owner = some id ∨ k ∈ ns) :
    ((ns.foldl (fun (t : State) n => t.modTile n f) s).tile k).owner = some id := by
  induction ns generalizing s with
  | nil => simpa using taken
  | cons n ns ih =>
    refine ih (s.modTile n f) ?_
    rw [modTile_tile_of_owned (takes _)]
    by_cases same : k = n
    · rw [if_pos same]
      exact .inl (takes _)
    · rw [if_neg same]
      simpa [same] using taken

theorem acquireTiles_owner {j : Job} (owns : j.owns = true) (own : n ∈ j.tileList) :
    ((s.acquireTiles j).tile n).owner = some j.id := by
  simp only [State.acquireTiles, owns, if_true]
  exact foldl_modTile_owner (fun _ => rfl) _ _ (.inr own)

end

/-! ## The dispatched job (R318) -/

section
variable {s : State} {r : Nat} {d : BitVec 512}

/-- The job has left its ring, reserved its slots and taken a context. -/
def contextTaken (s : State) (r : Nat) (j : Job) : State :=
  let u := s.modRing r (fun x => { x.taken with cmpTail := x.cmpTail + BitVec.ofNat 32 j.slots })
  { u with jobs := { u.jobs with jobs := u.jobs.jobs ++ [j], nextId := j.id + 1 } }

/-- An entity job is the one that the entity stage works on (R220). -/
def entityTaken (s : State) (j : Job) : State :=
  if j.op = opEntUpdate ∨ j.op = opEntEvict then
    { s with ent := { s.ent with job := some ⟨j.id, j.op == opEntEvict, [], [], 0⟩ } }
  else s

/-- A job is dispatched, short of the completion of a RELEASE job. -/
def dispatched (s : State) (r : Nat) (j : Job) : State :=
  (entityTaken ((contextTaken s r j).acquireTiles j) j).reserve j.costLeft

theorem dispatch_eq : s.dispatch r d =
    if descOp d = 10 then (dispatched s r (s.newJob r d)).completeRelease (s.newJob r d).id
    else dispatched s r (s.newJob r d) := rfl

theorem newJob_slots_of_scoring (scoring : isScoring (descOp d) = true) :
    (s.newJob r d).n = descCount d ∧ (s.newJob r d).slots = (s.newJob r d).n + 1 :=
  ⟨if_pos scoring, if_pos scoring⟩

theorem newJob_slots_of_other (other : isScoring (descOp d) = false) : (s.newJob r d).slots = 1 :=
  if_neg (Bool.eq_false_iff.mp other)

variable {j : Job}

/-- How far CMP_TAIL moves for a job (R318). -/
theorem slots_word (j : Job) : BitVec.ofNat 32 j.slots = if isScoring j.op then BitVec.ofNat 32 (j.n + 1) else 1 := by
  show BitVec.ofNat 32 (if isScoring j.op then j.n + 1 else 1) = _
  split <;> rfl

theorem entityTaken_frame : OnlyChanges [.ent] s (entityTaken s j) := by
  unfold entityTaken
  split <;> rfl

theorem acquireTiles_frame : OnlyChanges [.tally] s (s.acquireTiles j) :=
  State.acquireTiles_frame j s (OnlyChanges.refl _ s) (by decide)

theorem reserve_frame (nj : Nat) : OnlyChanges [.led, .gait, .out] s (s.reserve nj) :=
  State.reserve_frame nj s (OnlyChanges.refl _ s) (by decide) (by decide) (by decide)

/-- Behind its context a dispatch touches the tiles, the entity stage and the ledger alone. -/
theorem dispatched_frame : OnlyChanges [.tally, .ent, .led, .gait, .out] (contextTaken s r j) (dispatched s r j) :=
  OnlyChanges.trans (onlyChanges_mono (by decide) acquireTiles_frame)
    (OnlyChanges.trans (onlyChanges_mono (by decide) entityTaken_frame) (onlyChanges_mono (by decide) (reserve_frame _)))

theorem contextTaken_frame : OnlyChanges [.rings, .jobs] s (contextTaken s r j) := rfl

theorem dispatched_jobs : (dispatched s r j).jobs = { s.jobs with jobs := s.jobs.jobs ++ [j], nextId := j.id + 1 } :=
  jobs_eq_of_onlyChanges dispatched_frame (by decide)

theorem dispatched_ring (inRange : r < s.rings.length) (k : Nat) : (dispatched s r j).ring k =
    if k = r then { (s.ring r).taken with cmpTail := (s.ring r).cmpTail + BitVec.ofNat 32 j.slots } else s.ring k := by
  rw [State.ring, rings_eq_of_onlyChanges dispatched_frame (by decide)]
  exact State.modRing_ring r k _ inRange

theorem dispatched_owner {n : Nat} (owns : j.owns = true) (own : n ∈ j.tileList) :
    ((dispatched s r j).tile n).owner = some j.id := by
  have tally : (dispatched s r j).tally = ((contextTaken s r j).acquireTiles j).tally :=
    (tally_eq_of_onlyChanges (reserve_frame _) (by decide)).trans (tally_eq_of_onlyChanges entityTaken_frame (by decide))
  rw [State.tile, tally]
  exact acquireTiles_owner owns own

end

/-! ## The command -/

section
variable {s : State} {r : Nat} {d : BitVec 512}

theorem exec_jobDispatch_of_down (down : s.memUp = false) : exec .jobDispatch s = .next s := by
  show execJobDispatch s = _
  simp only [execJobDispatch, down, Bool.false_eq_true, if_false]

theorem exec_jobDispatch_of_none (memUp : s.memUp = true) (idle : s.haltBad.reinChoice = none) :
    exec .jobDispatch s = .next s.haltBad := by
  show execJobDispatch s = _
  simp only [execJobDispatch, memUp, if_true, idle]

theorem exec_jobDispatch_of_choice (memUp : s.memUp = true) (chosen : s.haltBad.reinChoice = some r)
    (head : s.haltBad.headDesc r = some d) : exec .jobDispatch s = .next (s.haltBad.dispatch r d) := by
  show execJobDispatch s = _
  simp only [execJobDispatch, memUp, if_true, chosen, head]

theorem exec_release_of_up (up : s.up = true) (id : Nat) : exec (.release id) s = .next (s.completeRelease id) := by
  show execRelease id s = _
  simp only [execRelease, up, if_true]

theorem up_of_memUp (memUp : s.memUp = true) : s.up = true := (Bool.and_eq_true_iff.mp memUp).1

end

/-- Settles O27: the fold over the rings finds the choice of R375, and each step of a dispatch leaves what the others took. -/
theorem jobDispatch : Obligations.JobDispatch := by
  unfold Obligations.JobDispatch
  refine ⟨?dispatches, fun r s chosen => ?chooses, fun s => exec_jobDispatch_of_none, fun s => exec_jobDispatch_of_down⟩
  case chooses => exact isChoice_reinChoice chosen
  case dispatches =>
    intro r s memUp rings chosen u
    obtain ⟨d, head⟩ := headDesc_of_reinChoice chosen
    have inRange : r < u.rings.length := by
      rw [haltBad_rings_length, rings]
      exact (isChoice_reinChoice chosen).1
    have frame : OnlyChanges [.ent, .rings, .jobs, .tally, .led, .gait, .out] s (dispatched u r (u.newJob r d)) :=
      OnlyChanges.trans (onlyChanges_mono (by decide) (haltBad_frame s))
        (OnlyChanges.trans (onlyChanges_mono (by decide) contextTaken_frame) (onlyChanges_mono (by decide) dispatched_frame))
    have jobs : u.jobs = s.jobs := jobs_eq_of_onlyChanges (haltBad_frame s) (by decide)
    have up : (dispatched u r (u.newJob r d)).up = true :=
      (up_eq_of_onlyChanges frame (by decide)).trans (up_of_memUp memUp)
    have ring := dispatched_ring (j := u.newJob r d) inRange
    refine ⟨d, _, u.newJob r d, head, ?_, frame, ?_, congrArg Jobs.nextId jobs, rfl, rfl, rfl, rfl, rfl, fun scoring => ?_,
      fun other => ?_, ?_, fun q other => ?_, fun owns n own => dispatched_owner owns own⟩
    · rw [exec_jobDispatch_of_choice memUp chosen head, dispatch_eq, exec_release_of_up up]
      split <;> rfl
    · rw [dispatched_jobs, jobs]
    · obtain ⟨n, slots⟩ := newJob_slots_of_scoring (s := u) (r := r) scoring
      refine ⟨n, ?_⟩
      rw [Job.entrySlot, slots]
      rfl
    · rw [Job.entrySlot, newJob_slots_of_other other]
      exact BitVec.add_zero _
    · rw [ring, if_pos rfl, slots_word]
      rfl
    · rw [ring, if_neg other]

end Sys2Proof.Dispatches
end

section
/-! PROOFS. Staged fields (O21): which word of the shadow a write changes, and which commands change the values in effect. -/

namespace Sys2Proof.StagedFields
open Sys2Proof Sys2Proof.Machine Sys2Proof.Safety Sys2Proof.Laws
open Sys2Proof.Answering (exec_answers)
open Sys2Proof.JobEntries (live_eq_of_onlyChanges)
open Sys2Proof.ExpectWrites (retarget_shadow)

/-! ## The registers with staged fields (R489) -/

/-- The staged registers that stand alone. -/
abbrev IsPlain (o : Nat) : Prop :=
  o = 0x440 ∨ o = 0x480 ∨ o = 0x488 ∨ o = 0x4C0 ∨ o = 0x600 ∨ o = 0x608 ∨ o = 0x888 ∨ o = 0x890 ∨ o = 0x3018 ∨ o = 0x3020 ∨
    o = 0x3028 ∨ o = 0x3408 ∨ o = 0x3430 ∨ o = 0x3480 ∨ o = 0x3488 ∨ o = 0x3800

/-- The staged registers of a Soundboard channel (R250). -/
abbrev IsChan (o : Nat) : Prop := o = 0x508 ∨ o = 0x510 ∨ o = 0x518 ∨ o = 0x520

/-- The registers of the rings (R305). -/
abbrev IsRing (o : Nat) : Prop := 0x1000 ≤ o ∧ o < 0x2000

/-- The staged registers of a ring, by their offsets among its registers. -/
abbrev IsRingWord (k : Nat) : Prop := k = 0 ∨ k = 8 ∨ k = 16

/-- The status registers of the tiles, which hold DURABLE (R155). -/
abbrev IsTile (o : Nat) : Prop := 0x4000 ≤ o ∧ o < 0x6000

section
variable {o : Nat} {v : Word}

theorem isStaged_cases (staged : isStaged o = true) :
    IsPlain o ∨ IsChan o ∨ (IsRing o ∧ IsRingWord (o % 64)) ∨ IsTile o := by
  refine Decidable.byContradiction fun other => ?_
  simp only [not_or] at other
  obtain ⟨noPlain, noChan, noRing, noTile⟩ := other
  have none : stagedFields o = [] := by
    simp only [stagedFields, noPlain, noChan, if_false, if_neg noTile]
    split
    · next ring => rw [if_neg (by omega), if_neg (by omega)]
    · rfl
  simp [isStaged, none] at staged

theorem immediateWrite_of_isStaged (staged : isStaged o = true) : immediateWrite o v = none := by
  have offset := isStaged_cases staged
  unfold immediateWrite
  repeat rw [if_neg (by omega)]

theorem selectBits_of_isStaged (staged : isStaged o = true) : selectBits o = none := by
  have offset := isStaged_cases staged
  unfold selectBits
  repeat rw [if_neg (by omega)]

/-- The register that a write names: a channel's registers are those of the channel that SFD_SND_SEL selects. -/
theorem exec_registerWrite_of_isStaged {s : State} (up : s.up = true) (aligned : o % 8 = 0) (staged : isStaged o = true)
    (agent : Nat) :
    exec (.registerWrite agent o v) s =
      .next (s.stageWrite (o + 65536 * if 0x508 ≤ o ∧ o ≤ 0x520 then s.sel.snd.toNat % 64 else 0) v) := by
  have offset := isStaged_cases staged
  have answered : ¬(s.up = false ∨ o % 8 ≠ 0) := by simp [up, aligned]
  have named : wfield s.sel.snd 0 6 = s.sel.snd.toNat % 64 := by simp [wfield, fieldOf]
  show execRegisterWrite agent o v s = _
  simp only [execRegisterWrite, if_neg answered, if_neg (show ¬(0x840 ≤ o ∧ o < 0x860) by omega),
    immediateWrite_of_isStaged staged, selectBits_of_isStaged staged, staged, if_true, stageTarget, named]

end

/-! ## Staged words of one kind of register -/

/-- A staged word of a ring, by its offset among the ring's registers. -/
def ringWord (r : RingCfg) (k : Nat) : Word :=
  if k = 0 then r.sbase else if k = 8 then r.cbase else if k = 16 then r.ctl else 0

/-- A staged word of a Soundboard channel, by its register. -/
def chanWord (y : SndCfg) (o : Nat) : Word :=
  if o = 0x508 then y.cfg else if o = 0x510 then y.band else if o = 0x518 then y.key else y.ring

/-- A channel with the staged word of one of its registers written. -/
def chanPut (o : Nat) (v : Word) (y : SndCfg) : SndCfg :=
  if o = 0x508 then { y with cfg := v } else if o = 0x510 then { y with band := v } else if o = 0x518 then { y with key := v }
  else { y with ring := v }

/-- A ring with the staged word at an offset among its registers written. -/
def ringPut (k : Nat) (v : Word) (r : RingCfg) : RingCfg :=
  if k = 0 then { r with sbase := v } else if k = 8 then { r with cbase := v } else { r with ctl := v }

section
variable {c : Staged} {v : Word} {w x : Nat}

theorem stagedWord_of_chan (chan : IsChan (x % 65536)) :
    stagedWord c x = chanWord (c.chan (x / 65536)) (x % 65536) := by
  obtain own | own | own | own := chan <;> simp [stagedWord, chanWord, own]

theorem stagedWord_of_ring (ring : IsRing (x % 65536)) :
    stagedWord c x = ringWord (c.ring ((x % 65536 - 0x1000) / 64)) (x % 65536 % 64) := by
  have apart : ∀ k, k < 0x1000 ∨ 0x2000 ≤ k → x % 65536 ≠ k := by omega
  simp [stagedWord, ringWord, apart, ring]

theorem stagedWord_of_tile (tile : IsTile (x % 65536)) :
    stagedWord c x = if (x % 65536 - 0x4000) / 8 ∈ c.durable then 4 else 0 := by
  have apart : ∀ k, k < 0x4000 → x % 65536 ≠ k := by omega
  have noRing : ¬IsRing (x % 65536) := by omega
  simp [stagedWord, apart, noRing, tile]

theorem stagedWord_snd_of_other (xs : List SndCfg) (other : ¬IsChan (x % 65536)) :
    stagedWord { c with snd := xs } x = stagedWord c x := by
  simp only [not_or] at other
  simp only [stagedWord, other, if_false]
  rfl

theorem stagedWord_rings_of_other (xs : List RingCfg) (other : ¬IsRing (x % 65536)) :
    stagedWord { c with rings := xs } x = stagedWord c x := by
  simp only [stagedWord, if_neg other]
  rfl

theorem stagedWord_durable_of_other (xs : List Nat) (other : ¬IsTile (x % 65536)) :
    stagedWord { c with durable := xs } x = stagedWord c x := by
  simp only [stagedWord, if_neg other]
  rfl

/-! ## What a write leaves in a shadow (R346) -/

theorem stagedWord_stage_of_plain (plain : IsPlain (w % 65536)) :
    stagedWord (c.stage w v) x =
      if x % 65536 = w % 65536 then v &&& bitsOf (stagedFields (w % 65536)) else stagedWord c x := by
  by_cases own : x % 65536 = w % 65536
  · rw [if_pos own]
    obtain o | o | o | o | o | o | o | o | o | o | o | o | o | o | o | o := plain <;>
      simp [stagedWord, Staged.stage, own, o]
  · rw [if_neg own]
    obtain o | o | o | o | o | o | o | o | o | o | o | o | o | o | o | o := plain <;> rw [o] at own <;>
      simp only [Staged.stage, o, stagedWord, if_neg own] <;> rfl

theorem getD_modify {α : Type} {xs : List α} {d : α} {f : α → α} {i : Nat} (inRange : i < xs.length) (k : Nat) :
    (xs.modify i f).getD k d = if k = i then f (xs.getD i d) else xs.getD k d := by
  by_cases own : k = i
  · subst own
    simp [inRange]
  · simp [own, Ne.symm own]

theorem chanWord_chanPut {o p : Nat} {y : SndCfg} (put : IsChan o) (read : IsChan p) :
    chanWord (chanPut o v y) p = if p = o then v else chanWord y p := by
  obtain rfl | rfl | rfl | rfl := put <;> obtain rfl | rfl | rfl | rfl := read <;> rfl

theorem ringWord_ringPut {k : Nat} {r : RingCfg} (put : IsRingWord k) (p : Nat) :
    ringWord (ringPut k v r) p = if p = k then v else ringWord r p := by
  by_cases own : p = k
  · subst own
    obtain rfl | rfl | rfl := put <;> rfl
  · rw [if_neg own]
    obtain rfl | rfl | rfl := put <;> simp only [ringWord, if_neg own] <;> rfl

theorem stage_eq_of_chan (chan : IsChan (w % 65536)) :
    c.stage w v =
      { c with snd := c.snd.modify (w / 65536) (chanPut (w % 65536) (v &&& bitsOf (stagedFields (w % 65536)))) } := by
  obtain o | o | o | o := chan <;> simp only [Staged.stage, o] <;> rfl

theorem stagedWord_stage_of_chan (chan : IsChan (w % 65536)) (inRange : w / 65536 < c.snd.length) :
    stagedWord (c.stage w v) x = if x = w then v &&& bitsOf (stagedFields (w % 65536)) else stagedWord c x := by
  rw [stage_eq_of_chan chan]
  by_cases read : IsChan (x % 65536)
  · rw [stagedWord_of_chan read, stagedWord_of_chan read]
    show chanWord ((c.snd.modify _ _).getD _ _) _ = _
    rw [getD_modify inRange]
    by_cases own : x / 65536 = w / 65536
    · have named : x % 65536 = w % 65536 ↔ x = w := by omega
      rw [if_pos own, chanWord_chanPut chan read, own]
      simp only [named]
      rfl
    · rw [if_neg own, if_neg (mt (congrArg (· / 65536)) own)]
      rfl
  · rw [stagedWord_snd_of_other _ read, if_neg]
    rintro rfl
    exact read chan

theorem stage_eq_of_ring (ring : IsRing (w % 65536)) (word : IsRingWord (w % 65536 % 64)) :
    c.stage w v = { c with
      rings := c.rings.modify ((w % 65536 - 0x1000) / 64)
        (ringPut (w % 65536 % 64) (v &&& bitsOf (stagedFields (w % 65536)))) } := by
  have apart : ∀ k, k < 0x1000 ∨ 0x2000 ≤ k → w % 65536 ≠ k := by omega
  obtain k | k | k := word <;> simp [Staged.stage, apart, ring, k] <;> rfl

theorem stagedWord_stage_of_ring (ring : IsRing (w % 65536))
    (word : IsRingWord (w % 65536 % 64)) (length : c.rings.length = 64) :
    stagedWord (c.stage w v) x =
      if x % 65536 = w % 65536 then v &&& bitsOf (stagedFields (w % 65536)) else stagedWord c x := by
  rw [stage_eq_of_ring ring word]
  by_cases read : IsRing (x % 65536)
  · rw [stagedWord_of_ring read, stagedWord_of_ring read]
    show ringWord ((c.rings.modify _ _).getD _ _) _ = _
    rw [getD_modify (by omega)]
    by_cases own : (x % 65536 - 0x1000) / 64 = (w % 65536 - 0x1000) / 64
    · have named : x % 65536 % 64 = w % 65536 % 64 ↔ x % 65536 = w % 65536 := by omega
      rw [if_pos own, ringWord_ringPut word, own]
      simp only [named]
      rfl
    · rw [if_neg own, if_neg (by omega)]
      rfl
  · rw [stagedWord_rings_of_other _ read, if_neg (by omega)]

theorem mem_insertNat (m : List Nat) (k n : Nat) : n ∈ insertNat m k ↔ n = k ∨ n ∈ m := by
  induction m with
  | nil => simp [insertNat]
  | cons i m ih =>
    unfold insertNat
    split
    · rw [List.mem_cons, List.mem_cons, ih]
      exact or_left_comm
    split
    · next same => simp [same]
    · exact List.mem_cons

/-- The tiles that are durable once DURABLE of one is written (R155). -/
def tilesPut (n : Nat) (v : Word) (m : List Nat) : List Nat := if v = 0 then m.filter (· != n) else insertNat m n

theorem mem_tilesPut (n : Nat) (v : Word) (m : List Nat) (k : Nat) :
    k ∈ tilesPut n v m ↔ if k = n then v ≠ 0 else k ∈ m := by
  by_cases clear : v = 0
  · rw [tilesPut, if_pos clear]
    by_cases own : k = n <;> simp [own, clear]
  · rw [tilesPut, if_neg clear, mem_insertNat]
    by_cases own : k = n
    · simpa [own] using clear
    · simp [own]

theorem stagedFields_of_tile {o : Nat} (tile : IsTile o) : stagedFields o = [(2, 1)] := by
  have apart : ∀ k, k < 0x4000 → o ≠ k := by omega
  have noRing : ¬IsRing o := by omega
  simp [stagedFields, apart, noRing, tile]

theorem stage_eq_of_tile (tile : IsTile (w % 65536)) :
    c.stage w v = { c with
      durable := tilesPut ((w % 65536 - 0x4000) / 8) (v &&& bitsOf (stagedFields (w % 65536))) c.durable } := by
  have apart : ∀ k, k < 0x4000 → w % 65536 ≠ k := by omega
  have noRing : ¬IsRing (w % 65536) := by omega
  simp [Staged.stage, apart, noRing, tile, tilesPut]

/-- DURABLE is one bit of its register: the word is 4 or 0. -/
theorem and_tileBits (v : Word) : (if v &&& bitsOf [(2, 1)] ≠ 0 then 4 else 0) = v &&& bitsOf [(2, 1)] := by
  have bits : bitsOf [(2, 1)] = BitVec.twoPow 64 2 := by decide
  rw [bits, BitVec.and_twoPow]
  split <;> rfl

theorem stagedWord_stage_of_tile (tile : IsTile (w % 65536)) (put : w % 8 = 0) (read : x % 8 = 0) :
    stagedWord (c.stage w v) x =
      if x % 65536 = w % 65536 then v &&& bitsOf (stagedFields (w % 65536)) else stagedWord c x := by
  rw [stage_eq_of_tile tile, stagedFields_of_tile tile]
  by_cases other : IsTile (x % 65536)
  · rw [stagedWord_of_tile other, stagedWord_of_tile other]
    have named : (x % 65536 - 0x4000) / 8 = (w % 65536 - 0x4000) / 8 ↔ x % 65536 = w % 65536 := by omega
    simp only [mem_tilesPut, named]
    by_cases own : x % 65536 = w % 65536
    · simp only [own, if_true, and_tileBits]
    · simp only [if_neg own]
  · rw [stagedWord_durable_of_other _ other, if_neg (by omega)]

/-- A target is a register, which a channel's number comes with where it is one of the Soundboard's. -/
def IsTarget (w : Nat) : Prop := w < 65536 ∨ (0x508 ≤ w % 65536 ∧ w % 65536 ≤ 0x520)

/-- A staged word after a write of a target: the bits written of that target, and of all others what they were. -/
theorem stagedWord_stage (staged : isStaged (w % 65536) = true) (channel : w / 65536 < c.snd.length)
    (rings : c.rings.length = 64) (put : w % 8 = 0 ∧ IsTarget w) (read : x % 8 = 0 ∧ IsTarget x) :
    stagedWord (c.stage w v) x = if x = w then v &&& bitsOf (stagedFields (w % 65536)) else stagedWord c x := by
  obtain ⟨putAligned, putTarget⟩ := put
  obtain ⟨readAligned, readTarget⟩ := read
  unfold IsTarget at putTarget readTarget
  have named : ¬IsChan (w % 65536) → (x % 65536 = w % 65536 ↔ x = w) := by omega
  obtain plain | chan | ⟨ring, word⟩ | tile := isStaged_cases staged
  · rw [stagedWord_stage_of_plain plain]
    simp only [named (by omega)]
  · exact stagedWord_stage_of_chan chan channel
  · rw [stagedWord_stage_of_ring ring word rings]
    simp only [named (by omega)]
  · rw [stagedWord_stage_of_tile tile putAligned readAligned]
    simp only [named (by omega)]

theorem stage_expect (staged : isStaged (w % 65536) = true) : (c.stage w v).expect = c.expect := by
  have offset := isStaged_cases staged
  simp only [Staged.stage, if_neg (show ¬(0x840 ≤ w % 65536 ∧ w % 65536 < 0x860) by omega),
    apply_ite Staged.expect, ite_self]

end

section
variable {s : State} {w : Nat} {v : Word}

theorem stageWrite_of_freezing (freezing : s.mnt.freezing = true) :
    s.stageWrite w v = { s with mnt := { s.mnt with frozen := s.mnt.frozen ++ [(w, v)] } } := if_pos freezing

theorem stageWrite_of_thawed (thawed : s.mnt.freezing = false) :
    s.stageWrite w v = ({ s with shadow := s.shadow.stage w v } : State).retarget := by
  rw [State.stageWrite, thawed, if_neg Bool.false_ne_true]

theorem stageWrite_of_thawed_frame (thawed : s.mnt.freezing = false) :
    OnlyChanges [.shadow, .gait, .out] s (s.stageWrite w v) := by
  rw [stageWrite_of_thawed thawed]
  exact State.retarget_frame (fs := [.shadow, .gait, .out]) _ rfl (by decide) (by decide)

theorem stageWrite_of_thawed_shadow (thawed : s.mnt.freezing = false) :
    (s.stageWrite w v).shadow = s.shadow.stage w v := by
  rw [stageWrite_of_thawed thawed, retarget_shadow]

end

/-! ## The apply point (R351, R352) -/

section
variable {s : State}

theorem mnt_eq_of_onlyChanges {fs : List Part} {t : State} (frame : OnlyChanges fs s t) (kept : Part.mnt ∉ fs) :
    t.mnt = s.mnt := by
  simpa [mask, kept] using congrArg State.mnt frame

/-- R460: the values in effect that a shadow becomes, with ABANDON cleared where it has acted. -/
def taken (abandon : Bool) (c : Staged) : Staged := if abandon then { c with holdCfg := c.holdCfg &&& 0xFFFF } else c

/-- What a Mount's image, its end of a restart and its settings change at the apply point. -/
abbrev settingParts : List Part :=
  [.img, .ing, .snd, .acc, .rings, .jobs, .grp, .tally, .led, .gait, .flt, .pwr, .pins, .mem, .out]

/-- An apply point takes the shadows as the values in effect and ends the freeze, and keeps the requests; what follows is the
report of step 6. -/
theorem applyMount_eq_reportMount (s : State) : ∃ (abandon : Bool) (u : State), s.applyMount = u.reportMount ∧
    u.live = taken abandon s.shadow ∧ u.mnt = { s.mnt with applied := true, frozen := [] } := by
  unfold State.applyMount
  extract_lets old tables removed abandon s1 s2 s3 s4 unset m s5
  have image : OnlyChanges settingParts s1 s2 := by
    simp only [s2]
    split
    · apply State.mountStreams_frame
      apply State.mountImage_frame _ s1 rfl
      all_goals decide
    · rfl
  have settled : OnlyChanges settingParts s1 s4 := by
    apply State.mountSettings_frame (s := s3)
    · simp only [s3]
      split
      · apply State.abandon_frame s2 image <;> decide
      · exact image
    all_goals decide
  have moved : OnlyChanges [.shadow, .led, .gait, .out] { s5 with mnt := { s5.mnt with frozen := [] } }
      s5.thaw.retarget.ledgerMoved := by
    apply State.ledgerMoved_frame
    apply State.retarget_frame
    rfl
    all_goals decide
  refine ⟨abandon, _, rfl, ?_, ?_⟩
  · rw [live_eq_of_onlyChanges moved (by decide)]
    show unset s4.live = _
    rw [live_eq_of_onlyChanges settled (by decide)]
    rfl
  · rw [mnt_eq_of_onlyChanges moved (by decide)]
    show { ({ s4.mnt with applied := true } : MountState) with frozen := [] } = _
    rw [mnt_eq_of_onlyChanges settled (by decide)]

theorem applyMount_live (s : State) : ∃ abandon, s.applyMount.live = taken abandon s.shadow := by
  obtain ⟨abandon, u, applied, live, -⟩ := applyMount_eq_reportMount s
  have reported : OnlyChanges [.rings, .jobs, .mnt, .led, .gait, .mem, .out] u u.reportMount := by
    apply State.reportMount_frame u rfl <;> decide
  exact ⟨abandon, by rw [applied, live_eq_of_onlyChanges reported (by decide), live]⟩

theorem failMount_live (f : MountFail) : (s.failMount f).live = s.live := by
  apply live_eq_of_onlyChanges (fs := [.shadow, .rings, .jobs, .mnt, .led, .gait, .mem, .out])
  · apply State.failMount_frame _ s rfl <;> decide
  · decide

theorem exec_mountApply_live {t : State} (next : exec .mountApply s = .next t) :
    t.live = s.live ∨ ∃ abandon, t.live = taken abandon s.shadow := by
  obtain rfl := Host.Outcome.next.inj next
  split
  · exact .inl rfl
  split
  · exact .inl (failMount_live _)
  split
  · exact .inl rfl
  · exact .inr (applyMount_live s)

/-- Three commands alone list the values in effect among the parts that they change. -/
theorem live_mem_partsOf {c : Instr} (listed : Part.live ∈ partsOf c) :
    c = .mountApply ∨ c = .engineReset ∨ ∃ vdd vddm vpp v ok, c = .powerOn vdd vddm vpp v ok := by
  cases c
  case mountApply => exact .inl rfl
  case engineReset => exact .inr (.inl rfl)
  case powerOn vdd vddm vpp v ok => exact .inr (.inr ⟨vdd, vddm, vpp, v, ok, rfl⟩)
  all_goals exact absurd listed (of_decide_eq_true rfl)

theorem exec_live_of_not_listed {c : Instr} {t : State} (next : exec c s = .next t) (kept : Part.live ∉ partsOf c) :
    t.live = s.live := by
  obtain ⟨u, answer, frame⟩ := exec_answers c s
  obtain rfl := Host.Outcome.next.inj (next.symm.trans answer)
  exact live_eq_of_onlyChanges frame kept

end

/-- Settles O21: a write lands in one word of the shadow or waits for the end of the freeze, and of the commands whose frame lists
the values in effect only a Mount at its apply point is neither a start nor an engine reset. -/
theorem stagedWrites : Obligations.StagedWrites := by
  unfold Obligations.StagedWrites
  refine ⟨fun agent o v s up aligned staged shape => ?writes, fun c s t next => ?effects⟩
  case writes =>
    intro ch w
    obtain ⟨-, ⟨rings, snd, -⟩, -⟩ := shape
    have offset := isStaged_cases staged
    have channel : ch < 64 ∧ (ch = 0 ∨ 0x508 ≤ o ∧ o ≤ 0x520) := by
      simp only [ch]
      split <;> omega
    have named : w % 65536 = o ∧ w / 65536 = ch ∧ w % 8 = 0 := by omega
    have target : IsTarget w := by unfold IsTarget; omega
    obtain ⟨own, number, wAligned⟩ := named
    have answers := exec_registerWrite_of_isStaged (v := v) up aligned staged agent
    rw [← own] at staged
    refine ⟨fun thawed => ⟨_, answers, ?_, ?_, ?_, ?_⟩, fun freezing => ?_⟩
    · exact stageWrite_of_thawed_frame thawed
    · rw [stageWrite_of_thawed_shadow thawed]
      show stagedWord (s.shadow.stage w v) w = _
      rw [stagedWord_stage staged (by omega) rings ⟨wAligned, target⟩ ⟨wAligned, target⟩, if_pos rfl, own]
    · rw [stageWrite_of_thawed_shadow thawed]
      exact stage_expect staged
    · intro x other read readAligned
      rw [stageWrite_of_thawed_shadow thawed]
      show stagedWord (s.shadow.stage w v) x = _
      rw [stagedWord_stage staged (by omega) rings ⟨wAligned, target⟩ ⟨readAligned, read⟩, if_neg other]
    · exact answers.trans (congrArg Host.Outcome.next (stageWrite_of_freezing freezing))
  case effects =>
    by_cases listed : Part.live ∈ partsOf c
    · obtain rfl | reset | start := live_mem_partsOf listed
      · obtain kept | ⟨abandon, mounted⟩ := exec_mountApply_live next
        · exact .inl kept
        · cases abandon
          · exact .inr (.inr (.inr ⟨rfl, .inl mounted⟩))
          · exact .inr (.inr (.inr ⟨rfl, .inr mounted⟩))
      · exact .inr (.inl reset)
      · exact .inr (.inr (.inl start))
    · exact .inl (exec_live_of_not_listed next listed)

end Sys2Proof.StagedFields
end

section
/-! PROOFS. Mount requests (O46): how a request joins the order, and what each command does to the order while a Mount is in
progress. -/

namespace Sys2Proof.MountOrder
open Sys2Proof Sys2Proof.Machine Sys2Proof.Safety Sys2Proof.Laws
open Sys2Proof.Answering
open Sys2Proof.JobEntries (jobs_eq_of_onlyChanges)
open Sys2Proof.ExpectWrites (retarget_shadow shadow_eq_of_onlyChanges)
open Sys2Proof.StagedFields (mnt_eq_of_onlyChanges applyMount_eq_reportMount stageWrite_of_freezing stageWrite_of_thawed_frame)

/-! ## Requests (R350) -/

section
variable {s : State} {r : MountRequest}

theorem nextMount_of_active (active : s.mnt.active.isSome = true) : s.nextMount = s := by
  obtain ⟨a, holds⟩ := Option.isSome_iff_exists.mp active
  rw [State.nextMount, holds]

theorem nextMount_of_none (idle : s.mnt.active = none) :
    s.nextMount.mnt.active = s.mnt.waiting.head? ∧ s.nextMount.mnt.waiting = s.mnt.waiting.tail := by
  cases waiting : s.mnt.waiting with
  | nil => simp [State.nextMount, idle, waiting]
  | cons r rs => simp [State.nextMount, idle, waiting]

theorem requestMount_mnt_of_active (active : s.mnt.active.isSome = true) :
    (s.requestMount r).mnt = { s.mnt with waiting := s.mnt.waiting ++ [r] } := by
  rw [State.requestMount, nextMount_of_active (by exact active)]

theorem requestMount_mnt_of_none (idle : s.mnt.active = none) (first : s.mnt.waiting = []) :
    (s.requestMount r).mnt = { s.mnt with active := some r, applied := false } := by
  simp [State.requestMount, State.nextMount, idle, first]

theorem requestMount_jobs (s : State) : (s.requestMount r).jobs = s.jobs :=
  jobs_eq_of_onlyChanges (State.requestMount_frame (fs := [.mnt]) r s rfl (by decide)) (by decide)

theorem goMount_of_held (held : s.mnt.active = some .register ∨ .register ∈ s.mnt.waiting) :
    s.goMount = { s with mnt := { s.mnt with ignored := min (s.mnt.ignored + 1) 65535 } } :=
  if_pos (held.imp_right List.contains_iff_mem.mpr)

theorem goMount_of_not_held (free : ¬(s.mnt.active = some .register ∨ .register ∈ s.mnt.waiting)) :
    s.goMount = s.requestMount .register :=
  if_neg (mt (Or.imp_right List.contains_iff_mem.mp) free)

theorem goMount_shadow (s : State) : s.goMount.shadow = s.shadow := by
  apply shadow_eq_of_onlyChanges (fs := [.mnt])
  · exact State.goMount_frame s rfl (by decide)
  · decide

theorem discard_mnt (s : State) : s.discard.mnt = s.mnt := by
  apply mnt_eq_of_onlyChanges (fs := [.shadow, .gait, .out])
  · apply State.discard_frame s rfl <;> decide
  · decide

theorem discard_shadow (s : State) : s.discard.shadow = if s.mnt.active.isSome then s.shadow else s.live := by
  unfold State.discard
  split
  · rfl
  · exact retarget_shadow _

/-- The state in which a write of GO is a request: DISCARD in the same write acts first (R358). -/
def beforeGo (discard : Bool) (s : State) : State := if discard then s.discard else s

theorem beforeGo_mnt (discard : Bool) (s : State) : (beforeGo discard s).mnt = s.mnt := by
  unfold beforeGo
  split
  · exact discard_mnt s
  · rfl

theorem beforeGo_shadow (discard : Bool) (s : State) :
    (beforeGo discard s).shadow = if discard = true ∧ s.mnt.active = none then s.live else s.shadow := by
  cases discard with
  | false => rfl
  | true =>
    refine (discard_shadow s).trans ?_
    cases s.mnt.active <;> rfl

theorem exec_mountGo (up : s.up = true) (discard : Bool) :
    exec (.mountGo discard) s = .next (beforeGo discard s).goMount := by
  show execMountGo discard s = _
  rw [execMountGo, if_pos up]
  rfl

theorem exec_mountDiscard (up : s.up = true) : exec .mountDiscard s = .next s.discard := by
  show execMountDiscard s = _
  rw [execMountDiscard, if_pos up]

/-! ## MOUNT jobs (R336) -/

theorem mountJobReady_iff {j : Job} :
    s.mountJobReady j = true ↔ ∀ x ∈ s.jobs.jobs, x.ring = j.ring → x.id < j.id → x.written = true := by
  simp only [State.mountJobReady, List.all_eq_true, Bool.or_eq_true, bne_iff_ne, decide_eq_true_eq]
  constructor
  · intro ready x listed own earlier
    obtain (other | later) | written := ready x listed
    · exact absurd own other
    · exact absurd earlier (Nat.not_lt.mpr later)
    · exact written
  · intro ready x listed
    by_cases own : x.ring = j.ring
    · by_cases earlier : x.id < j.id
      · exact .inr (ready x listed own earlier)
      · exact .inl (.inr (Nat.not_lt.mp earlier))
    · exact .inl (.inl own)

theorem exec_mount {id : Nat} {j : Job} (up : s.up = true) (job : s.openJob id 7 = some j) (new : j.begun = false) :
    exec (.mount id) s = .next (if s.mountJobReady j = true then
      (s.modJob id (fun x => { x with begun := true })).requestMount (.job id) else s) := by
  show execMount id s = _
  rw [execMount, job]
  simp only [up, new, Bool.not_false, Bool.true_and]

/-! ## The order of requests while a Mount is in progress (R350) -/

/-- Requests of a Mount in progress and of those behind it: it stays the Mount in progress and the others keep their order before
those that come, or it ends and the next in order is taken. -/
def KeepsOrder (m m' : MountState) : Prop :=
  (m'.active = m.active ∧ m.waiting <+: m'.waiting) ∨ (m'.active = m.waiting.head? ∧ m'.waiting = m.waiting.tail)

theorem KeepsOrder.of_same {m m' : MountState} (active : m'.active = m.active) (waiting : m'.waiting = m.waiting) :
    KeepsOrder m m' := .inl ⟨active, waiting ▸ List.prefix_refl _⟩

theorem KeepsOrder.of_eq {m m' : MountState} (same : m' = m) : KeepsOrder m m' := .of_same (by rw [same]) (by rw [same])

theorem requestMount_keepsOrder (active : s.mnt.active.isSome = true) : KeepsOrder s.mnt (s.requestMount r).mnt := by
  rw [requestMount_mnt_of_active active]
  exact .inl ⟨rfl, List.prefix_append _ _⟩

theorem goMount_keepsOrder (active : s.mnt.active.isSome = true) : KeepsOrder s.mnt s.goMount.mnt := by
  by_cases held : s.mnt.active = some .register ∨ .register ∈ s.mnt.waiting
  · rw [goMount_of_held held]
    exact .of_same rfl rfl
  · rw [goMount_of_not_held held]
    exact requestMount_keepsOrder active

theorem endMount_keepsOrder (status done detail : Nat) : KeepsOrder s.mnt (s.endMount status done detail).mnt := by
  unfold State.endMount
  extract_lets s1 m
  have finished : OnlyChanges [.rings, .jobs, .led, .gait, .mem, .out] s s1 := by
    simp only [s1]
    split
    · apply State.finishJob_frame _ _ _ _ s rfl <;> decide
    · rfl
  have waiting : m.waiting = s.mnt.waiting := congrArg MountState.waiting (mnt_eq_of_onlyChanges finished (by decide))
  obtain ⟨active, rest⟩ := nextMount_of_none (s := { s1 with mnt := { m with active := none, applied := false } }) rfl
  exact .inr ⟨active.trans (congrArg _ waiting), rest.trans (congrArg _ waiting)⟩

theorem reportMount_keepsOrder (s : State) : KeepsOrder s.mnt s.reportMount.mnt := by
  unfold State.reportMount
  split
  · exact endMount_keepsOrder (s := { s with mnt := _ }) _ _ _
  · exact .of_same rfl rfl

theorem failMount_keepsOrder (f : MountFail) : KeepsOrder s.mnt (s.failMount f).mnt := by
  unfold State.failMount
  extract_lets old m
  have thawed : OnlyChanges [.shadow, .gait, .out] { s with mnt := { m with frozen := [] } }
      ({ s with mnt := m } : State).thaw.retarget := by
    apply State.retarget_frame
    rfl
    all_goals decide
  have ended := endMount_keepsOrder (s := ({ s with mnt := m } : State).thaw.retarget) stMountFailed 0 f.code
  rw [mnt_eq_of_onlyChanges thawed (by decide)] at ended
  exact ended

theorem applyMount_keepsOrder (s : State) : KeepsOrder s.mnt s.applyMount.mnt := by
  obtain ⟨-, u, applied, -, mnt⟩ := applyMount_eq_reportMount s
  have reported := reportMount_keepsOrder u
  rw [mnt, ← applied] at reported
  exact reported

/-! ## The order at each command -/

/-- An outcome is a next state whose requests are in the order of those before it. -/
def Orders (s : State) (o : Host.Outcome State Fault Refusal) : Prop := ∃ t, o = .next t ∧ KeepsOrder s.mnt t.mnt

theorem Orders.of_next {t : State} (keeps : KeepsOrder s.mnt t.mnt) : Orders s (.next t) := ⟨t, rfl, keeps⟩

theorem Orders.same : Orders s (.next s) := .of_next (.of_eq rfl)

theorem Orders.of_answers {fs : List Part} {o : Host.Outcome State Fault Refusal} (answers : Answers fs s o)
    (kept : Part.mnt ∉ fs) : Orders s o := by
  obtain ⟨t, next, frame⟩ := answers
  exact ⟨t, next, .of_eq (mnt_eq_of_onlyChanges frame kept)⟩

theorem execMount_orders (active : s.mnt.active.isSome = true) (id : Nat) : Orders s (execMount id s) := by
  refine .of_next ?_
  split
  · exact .of_eq rfl
  split
  · exact requestMount_keepsOrder (s := s.modJob _ _) active
  · exact .of_eq rfl

theorem execMountGo_orders (active : s.mnt.active.isSome = true) (discard : Bool) : Orders s (execMountGo discard s) := by
  refine .of_next ?_
  split
  · rw [← beforeGo_mnt discard s] at active ⊢
    exact goMount_keepsOrder active
  · exact .of_eq rfl

theorem execMountApply_orders : Orders s (execMountApply s) := by
  refine .of_next ?_
  split
  · exact .of_eq rfl
  split
  · exact failMount_keepsOrder _
  split
  · exact .of_eq rfl
  · exact applyMount_keepsOrder s

theorem execGroupPlaneSwitch_orders (base : Nat) (bad : List (Nat × Nat)) : Orders s (execGroupPlaneSwitch base bad s) := by
  refine .of_next ?_
  split
  · exact .of_eq rfl
  · next g _ =>
    split
    · have switched : OnlyChanges [.img, .acc, .jobs, .arr, .grp, .tally, .led, .gait, .flt, .rings, .pins, .mem, .out] s
          (s.switchGroup g bad) := by
        apply State.switchGroup_frame _ _ s rfl <;> decide
      rw [← mnt_eq_of_onlyChanges switched (by decide)]
      exact reportMount_keepsOrder _
    · exact .of_eq rfl

/-- A staged write holds or lands, and is no request (R352). -/
theorem stageWrite_keepsOrder (w : Nat) (v : Word) : KeepsOrder s.mnt (s.stageWrite w v).mnt := by
  by_cases freezing : s.mnt.freezing = true
  · rw [stageWrite_of_freezing freezing]
    exact .of_same rfl rfl
  · exact .of_eq (mnt_eq_of_onlyChanges (stageWrite_of_thawed_frame (Bool.eq_false_iff.mpr freezing)) (by decide))

theorem writeExpect_keepsOrder (agent i : Nat) (v : Word) : KeepsOrder s.mnt (s.writeExpect agent i v).mnt := by
  unfold State.writeExpect
  split
  · exact stageWrite_keepsOrder _ _
  · exact .of_eq rfl

/-- Of the registers with behaviour of their own, SFD_MOUNT alone makes requests. -/
theorem immediateWrite_orders (active : s.mnt.active.isSome = true) {o : Nat} {v : Word}
    {f : State → Host.Outcome State Fault Refusal} (own : immediateWrite o v = some f) : Orders s (f s) := by
  unfold immediateWrite at own
  obtain rfl | own := eq_or_of_ite_some own
  · exact .of_answers (execSfdSndDb_answers _) (by decide)
  obtain rfl | own := eq_or_of_ite_some own
  · exact .of_answers (execSfdRingSdb_answers _ _) (by decide)
  obtain rfl | own := eq_or_of_ite_some own
  · exact .of_answers (execSfdRingCdb_answers _ _) (by decide)
  obtain rfl | own := eq_or_of_ite_some own
  · exact .of_answers (execSfdRelease_answers _) (by decide)
  obtain rfl | own := eq_or_of_ite_some own
  · exact .of_answers (execSfdLedger_answers _) (by decide)
  obtain rfl | own := eq_or_of_ite_some own
  · exact .of_answers (execAvsErrClear_answers _) (by decide)
  obtain rfl | own := eq_or_of_ite_some own
  · exact .of_answers (execSfdFaultAck_answers _) (by decide)
  obtain rfl | own := eq_or_of_ite_some own
  · split
    · exact execMountGo_orders active _
    split
    · exact .of_answers execMountDiscard_answers (by decide)
    · exact .same
  obtain rfl | own := eq_or_of_ite_some own
  · exact .of_answers (execSfdDbgCapCtl_answers _) (by decide)
  obtain rfl | own := eq_or_of_ite_some own
  · exact .of_answers (execSfdDbgChordSel_answers _) (by decide)
  · cases own

theorem execRegisterWrite_orders (active : s.mnt.active.isSome = true) (agent o : Nat) (v : Word) :
    Orders s (execRegisterWrite agent o v s) := by
  unfold execRegisterWrite
  split
  · exact .same
  split
  · exact .of_next (writeExpect_keepsOrder _ _ _)
  split
  · next own => exact immediateWrite_orders active own
  split
  · exact .of_next (.of_eq rfl)
  extract_lets ch
  split
  · exact .of_next (stageWrite_keepsOrder _ _)
  · exact .same

theorem execSfdImgExpectWrite_orders (agent i : Nat) (v : Word) : Orders s (execSfdImgExpectWrite agent i v s) := by
  refine .of_next ?_
  split
  · exact writeExpect_keepsOrder _ _ _
  · exact .of_eq rfl

/-- An engine that runs has started: its rails change nothing (R437). -/
theorem execPowerOn_of_up (up : s.up = true) (vdd vddm vpp vhold : Nat) (ok : Bool) :
    execPowerOn vdd vddm vpp vhold ok s = .next s := by
  have running : s.pwr.phase = .running := by simpa [State.up] using up
  exact congrArg Host.Outcome.next (if_pos (by rw [running]; decide))

/-- Every command but an engine reset keeps the order of requests. -/
theorem exec_orders (up : s.up = true) (active : s.mnt.active.isSome = true) {c : Instr}
    (noReset : c ≠ .engineReset) : Orders s (exec c s) := by
  cases c
  case mount id => exact execMount_orders active id
  case mountGo discard => exact execMountGo_orders active discard
  case mountApply => exact execMountApply_orders
  case groupPlaneSwitch base bad => exact execGroupPlaneSwitch_orders base bad
  case registerWrite agent o v => exact execRegisterWrite_orders active agent o v
  case sfdImgExpectWrite agent i v => exact execSfdImgExpectWrite_orders agent i v
  case powerOn vdd vddm vpp vhold ok => exact ⟨s, execPowerOn_of_up up vdd vddm vpp vhold ok, .of_eq rfl⟩
  case engineReset => exact absurd rfl noReset
  all_goals exact .of_answers (exec_answers _ s) (of_decide_eq_true rfl)

end

/-- Settles O46: GO and a ready MOUNT job join the requests behind those that wait; of the commands that change the requests, only
the end of a Mount takes one out, which is the next in order. -/
theorem mountRequests : Obligations.MountRequests := by
  unfold Obligations.MountRequests
  refine ⟨fun discard s up => ?go, fun id j s up job new => ⟨fun earlier => ?waits, fun ready => ?requests⟩,
    fun c s t up next active noReset => ?order, fun s up => ?discards⟩
  case go =>
    obtain ⟨t, next, frame⟩ := exec_answers (.mountGo discard) s
    obtain rfl := Host.Outcome.next.inj (next.symm.trans (exec_mountGo up discard))
    rw [← beforeGo_mnt discard s]
    intro held
    refine ⟨_, next, frame, fun taken => ?_, fun free active => ?_, fun idle first => ?_, ?_⟩
    · rw [goMount_of_held taken]
    · rw [goMount_of_not_held free, requestMount_mnt_of_active active]
    · have free : ¬held := by simp [held, idle, first]
      rw [goMount_of_not_held free, requestMount_mnt_of_none idle first]
    · rw [goMount_shadow, beforeGo_shadow, beforeGo_mnt]
  case waits =>
    obtain ⟨x, listed, own, earlier, unwritten⟩ := earlier
    have notReady : ¬s.mountJobReady j = true := fun ready =>
      Bool.false_ne_true (unwritten.symm.trans (mountJobReady_iff.mp ready x listed own earlier))
    rw [exec_mount up job new, if_neg notReady]
  case requests =>
    rw [exec_mount up job new, if_pos (mountJobReady_iff.mpr ready)]
    refine ⟨_, rfl, ?_, ?_, fun active => ?_, fun idle first => ?_⟩
    · apply State.requestMount_frame
      apply State.modJob_frame
      rfl
      all_goals decide
    · exact requestMount_jobs _
    · exact requestMount_mnt_of_active (s := s.modJob _ _) active
    · exact requestMount_mnt_of_none (s := s.modJob _ _) idle first
  case order =>
    obtain ⟨u, answer, keeps⟩ := exec_orders up active noReset
    obtain rfl := Host.Outcome.next.inj (next.symm.trans answer)
    exact keeps
  case discards =>
    refine ⟨_, exec_mountDiscard up, ?_, discard_shadow s⟩
    apply State.discard_frame s rfl <;> decide

end Sys2Proof.MountOrder
end

section
/-! PROOFS. The ledger (O17): what a grant and a debit leave in it, with the derivation of the ledger target that follows. -/

namespace Sys2Proof.LedgerCredit
open Sys2Proof Sys2Proof.Machine Sys2Proof.Safety Sys2Proof.Laws

/-! ## A grant and a debit (R365, R366) -/

section
variable {l : Ledger} {cap grant : Nat}

theorem grant_of_le (fits : l.balance + 1000 * grant ≤ 1000 * cap) :
    l.grant cap grant = { l with balance := l.balance + 1000 * grant } := if_pos fits

theorem grant_of_lt (spills : 1000 * cap < l.balance + 1000 * grant) :
    l.grant cap grant = { l with balance := max l.balance (1000 * cap), spills := min (l.spills + 1) 65535 } :=
  if_neg (Int.not_le.mpr spills)

/-- A grant leaves RESERVED and the counters of the rails. -/
theorem grant_eq (l : Ledger) (cap grant : Nat) :
    l.grant cap grant = { l with balance := (l.grant cap grant).balance, spills := (l.grant cap grant).spills } := by
  obtain spills | fits := Int.lt_or_le (1000 * cap) (l.balance + 1000 * grant)
  · rw [grant_of_lt spills]
  · rw [grant_of_le fits]

theorem debit_eq (l : Ledger) (r : Rail) :
    l.debit r = { l with
      balance := l.balance - 1
      core := if r = .core then (l.core + 1) % 2 ^ 64 else l.core
      sram := if r = .sram then (l.sram + 1) % 2 ^ 64 else l.sram
      mram := if r = .mram then (l.mram + 1) % 2 ^ 64 else l.mram } := by
  cases r <;> rfl

end

/-! ## The derivation of the ledger target (R379) -/

section
variable {s : State}

theorem led_eq_of_onlyChanges {fs : List Part} {t : State} (frame : OnlyChanges fs s t) (kept : Part.led ∉ fs) :
    t.led = s.led := by
  simpa [mask, kept] using congrArg State.led frame

theorem retarget_led (s : State) : s.retarget.led = s.led :=
  led_eq_of_onlyChanges (State.retarget_frame (fs := [.gait, .out]) s (OnlyChanges.refl _ s) (by decide) (by decide))
    (by decide)

/-- A derivation notes the credit that it was made at, and leaves the rest of the ledger. -/
theorem deriveLedger_led (s : State) :
    s.deriveLedger.led = { s.led with derivedAt := s.deriveLedger.led.derivedAt } := by
  unfold State.deriveLedger
  split
  · rw [retarget_led]
  · rfl

theorem ledgerMoved_led (s : State) : s.ledgerMoved.led = { s.led with derivedAt := s.ledgerMoved.led.derivedAt } := by
  unfold State.ledgerMoved
  split
  · exact deriveLedger_led s
  · rfl

theorem exec_sfdLedger (up : s.up = true) (v : Word) :
    exec (.sfdLedger v) s =
      .next ({ s with led := s.led.grant s.live.cap (v.toNat % 2 ^ 32) } : State).deriveLedger :=
  congrArg Host.Outcome.next (if_pos up)

theorem exec_ledgerDebit (up : s.up = true) (r : Rail) :
    exec (.ledgerDebit r) s = .next ({ s with led := s.led.debit r } : State).ledgerMoved :=
  congrArg Host.Outcome.next (if_pos up)

end

/-- Settles O17: the grant and the debit change the ledger as R365 and R366 say, and the derivation that follows changes
nothing of it but the credit at the last derivation. -/
theorem ledgerGrantAndDebit : Obligations.LedgerGrantAndDebit := by
  unfold Obligations.LedgerGrantAndDebit
  refine ⟨fun v s up => ?grant, fun r s up => ?debit⟩
  case grant =>
    intro top sum
    have derived := deriveLedger_led { s with led := s.led.grant s.live.cap (v.toNat % 2 ^ 32) }
    refine ⟨_, exec_sfdLedger up v, ?frame, ?rest, fun fits => ?fits, fun spills => ?spills⟩
    case frame => exact State.deriveLedger_frame _ rfl (by decide) (by decide) (by decide)
    case rest =>
      rw [derived]
      dsimp only
      rw [grant_eq]
    case fits =>
      rw [derived, grant_of_le fits]
      exact ⟨rfl, rfl⟩
    case spills =>
      rw [derived, grant_of_lt spills]
      refine ⟨?_, rfl⟩
      dsimp only [top]
      split <;> omega
  case debit =>
    refine ⟨_, exec_ledgerDebit up r, ?frame, ?ledger⟩
    case frame => exact State.ledgerMoved_frame _ rfl (by decide) (by decide) (by decide)
    case ledger => rw [ledgerMoved_led, debit_eq]

end Sys2Proof.LedgerCredit
end

section
/-! PROOFS. Thermal caps (O20): the thresholds in force after a conversion, the hottest valid reading and the cap. -/

namespace Sys2Proof.ThermalThresholds
open Sys2Proof Sys2Proof.Machine Sys2Proof.Safety Sys2Proof.Laws
open Sys2Proof.Answering (execSensorConversion_answers)

/-! ## The thresholds in force (R380) -/

/-- A threshold is in force after a reading: T_max has reached it, or it held before and T_max is not 3.0 °C below it. -/
abbrev InForce (was tMax n : Nat) : Prop := thermalCode n ≤ tMax ∨ (n ≤ was ∧ thermalCode n < tMax + 6)

theorem thermalCode_mono {m n : Nat} (below : m ≤ n) : thermalCode m ≤ thermalCode n := by
  unfold thermalCode
  omega

/-- With a threshold all those below it are in force. -/
theorem InForce.of_le {was tMax m n : Nat} (below : m ≤ n) (force : InForce was tMax n) : InForce was tMax m := by
  have code := thermalCode_mono below
  obtain reached | ⟨held, near⟩ := force
  · exact .inl (by omega)
  · exact .inr ⟨by omega, by omega⟩

/-- A number of thresholds is gone through upwards, and the last one in force is kept. -/
theorem le_foldl_inForce_iff {was tMax m : Nat} (pos : 1 ≤ m) (k : Nat) :
    m ≤ (List.range k).foldl (fun l i => if InForce was tMax (i + 1) then i + 1 else l) 0 ↔
      m ≤ k ∧ InForce was tMax m := by
  induction k with
  | zero => exact iff_of_false (Nat.not_le.mpr pos) fun listed => Nat.not_le.mpr pos listed.1
  | succ k ih =>
    rw [List.range_succ, List.foldl_append, List.foldl_cons, List.foldl_nil]
    split
    next force => exact ⟨fun below => ⟨below, force.of_le below⟩, fun both => both.1⟩
    next free =>
      rw [ih]
      refine and_congr_left fun force => ⟨fun below => by omega, fun below => ?_⟩
      have other : m ≠ k + 1 := fun same => free (same ▸ force)
      omega

theorem le_thermalLevel_iff {was tMax m : Nat} (pos : 1 ≤ m) (listed : m ≤ 4) :
    m ≤ thermalLevel was tMax ↔ InForce was tMax m :=
  (le_foldl_inForce_iff pos 4).trans (and_iff_right listed)

/-! ## The hottest valid reading, the cap and the target (R380 to R382, R360) -/

section
variable (s : State)

theorem mem_validSensors {x : Sensor} :
    x ∈ s.validSensors ↔ x ∈ s.gait.sensors ∧ x.converted = true ∧ x.bad = false := by
  simp [State.validSensors]

/-- T_max is the greatest of 0 and the valid readings. -/
theorem tMax_eq_max? : (0 :: s.validSensors.map Sensor.temp).max? = some s.tMax := by
  rw [List.max?_cons', List.foldl_map]
  rfl

theorem thermalCap_of_few (few : s.validSensors.length < 4) : s.thermalCap = 0 := if_pos few

theorem thermalCap_of_enough (enough : 4 ≤ s.validSensors.length) : s.thermalCap = 3 - min s.gait.thermal 3 := by
  rw [State.thermalCap, if_neg (Nat.not_lt.mpr enough)]
  repeat' split
  all_goals omega

theorem suspended_iff : s.suspended = true ↔ 4 ≤ s.gait.thermal := decide_eq_true_iff

theorem effectiveTarget_le_thermalCap : s.effectiveTarget ≤ s.thermalCap :=
  Nat.le_trans (Nat.min_le_left _ _) (Nat.min_le_right _ _)

end

/-! ## What a conversion leaves -/

section
variable {fs : List Part} {s t : State}

theorem gait_eq_of_onlyChanges (frame : OnlyChanges fs s t) (kept : Part.gait ∉ fs) : t.gait = s.gait := by
  simpa [mask, kept] using congrArg State.gait frame

theorem grp_eq_of_onlyChanges (frame : OnlyChanges fs s t) (kept : Part.grp ∉ fs) : t.grp = s.grp := by
  simpa [mask, kept] using congrArg State.grp frame

theorem logEvent_frame (s : State) (ev cls rung : Nat) (d : Detected) (detail : Nat) :
    OnlyChanges [.flt, .pins, .out] s (s.logEvent ev cls rung d detail) := by
  apply State.logEvent_frame _ _ _ _ _ s rfl <;> decide

theorem retarget_gait (s : State) :
    s.retarget.gait.sensors = s.gait.sensors ∧ s.retarget.gait.thermal = s.gait.thermal := by
  simp only [State.retarget]
  split <;> exact ⟨rfl, rfl⟩

theorem retarget_grp (s : State) : s.retarget.grp = s.grp :=
  grp_eq_of_onlyChanges (State.retarget_frame (fs := [.gait, .out]) s rfl (by decide) (by decide)) (by decide)

theorem reportThermal_gait (s : State) (was : Bool) : (s.reportThermal was).gait = s.gait :=
  gait_eq_of_onlyChanges (fs := [.grp, .flt, .pins, .out])
    (State.reportThermal_frame was s rfl (by decide) (by decide) (by decide) (by decide)) (by decide)

/-- The report cuts the runs of the groups only where the suspension begins. -/
theorem reportThermal_grp {was : Bool} (unbegun : was = true ∨ s.suspended = false) :
    (s.reportThermal was).grp = s.grp := by
  unfold State.reportThermal
  split
  · rfl
  next differs =>
    obtain rfl : was = true := unbegun.elim id fun free => by simpa [free] using differs
    refine grp_eq_of_onlyChanges (fs := [.flt, .pins, .out]) ?_ (by decide)
    exact State.notifyIf_frame _ _ _ (logEvent_frame s _ _ _ _ _) (by decide)

/-- The state with the thresholds in force after its T_max. -/
def leveled (s : State) : State := { s with gait := { s.gait with thermal := thermalLevel s.gait.thermal s.tMax } }

theorem thermal_of_valid (valid : s.validSensors ≠ []) : s.thermal = (leveled s).reportThermal s.suspended :=
  if_neg (by simpa using valid)

theorem thermal_of_no_valid (invalid : s.validSensors = []) : s.thermal = s := if_pos (by simp [invalid])

theorem thermal_gait_sensors (s : State) : s.thermal.gait.sensors = s.gait.sensors := by
  by_cases invalid : s.validSensors = []
  · rw [thermal_of_no_valid invalid]
  · rw [thermal_of_valid invalid, reportThermal_gait]
    rfl

theorem thermal_gait_thermal (valid : s.validSensors ≠ []) :
    s.thermal.gait.thermal = thermalLevel s.gait.thermal s.tMax := by
  rw [thermal_of_valid valid, reportThermal_gait]
  rfl

theorem thermal_grp (unbegun : s.suspended = true ∨ s.thermal.suspended = false) : s.thermal.grp = s.grp := by
  by_cases invalid : s.validSensors = []
  · rw [thermal_of_no_valid invalid]
  · rw [thermal_of_valid invalid] at unbegun ⊢
    refine reportThermal_grp (s := leveled s) (unbegun.imp_right fun free => ?_)
    rwa [State.suspended, reportThermal_gait] at free

theorem suspended_congr (same : t.gait.thermal = s.gait.thermal) : t.suspended = s.suspended := by
  rw [State.suspended, same, State.suspended]

theorem validSensors_congr (same : t.gait.sensors = s.gait.sensors) : t.validSensors = s.validSensors := by
  rw [State.validSensors, same, State.validSensors]

theorem tMax_congr (same : t.gait.sensors = s.gait.sensors) : t.tMax = s.tMax := by
  rw [State.tMax, validSensors_congr same, State.tMax]

end

/-! ## The command -/

section
variable {s : State}

/-- The sensor that a command names. -/
def named (s : State) (n : Nat) : Sensor := s.gait.sensors.getD n ⟨0, 0, false, false⟩

theorem getElem?_named {n : Nat} (listed : n < s.gait.sensors.length) : s.gait.sensors[n]? = some (named s n) := by
  rw [named, List.getD_eq_getElem?_getD, List.getElem?_eq_getElem listed, Option.getD_some]

/-- The state with a conversion in its sensor. -/
def converted (s : State) (n : Nat) (code : BitVec 10) (ok : Bool) : State :=
  { s with gait := { s.gait with sensors := s.gait.sensors.set n ((named s n).convert code.toNat ok) } }

/-- The state with a conversion in its sensor, and with the self-check that it is the first to fail in the log. -/
def noted (s : State) (n : Nat) (code : BitVec 10) (ok : Bool) : State :=
  if !ok && !(named s n).bad then (converted s n code ok).logEvent evSensorBad clsLasting 0 Detected.nowhere n
  else converted s n code ok

theorem noted_frame (s : State) (n : Nat) (code : BitVec 10) (ok : Bool) :
    OnlyChanges [.flt, .pins, .out] (converted s n code ok) (noted s n code ok) := by
  unfold noted
  split
  · exact logEvent_frame _ _ _ _ _ _
  · rfl

theorem noted_gait (s : State) (n : Nat) (code : BitVec 10) (ok : Bool) :
    (noted s n code ok).gait =
      { s.gait with sensors := s.gait.sensors.set n ((named s n).convert code.toNat ok) } :=
  gait_eq_of_onlyChanges (noted_frame s n code ok) (by decide)

theorem noted_grp (s : State) (n : Nat) (code : BitVec 10) (ok : Bool) : (noted s n code ok).grp = s.grp :=
  grp_eq_of_onlyChanges (s := converted s n code ok) (noted_frame s n code ok) (by decide)

theorem exec_sensorConversion (up : s.up = true) (n : Nat) (code : BitVec 10) (ok : Bool) :
    exec (.sensorConversion n code ok) s = .next (noted s n code ok).thermal.retarget :=
  congrArg Host.Outcome.next (if_pos up)

end

/-- Settles O20: a conversion is noted in its sensor, the thresholds in force follow T_max, and the groups stay unless the
suspension begins. That a failed conversion keeps TEMP, and that the thresholds stand without a valid sensor, are the
readings of log entry 51. -/
theorem thermalCaps : Obligations.ThermalCaps := by
  unfold Obligations.ThermalCaps
  refine ⟨fun n code ok s up inRange shape => ?conversion, fun s => ?hottest, thermalCap_of_few, thermalCap_of_enough,
    suspended_iff, effectiveTarget_le_thermalCap⟩
  case conversion =>
    obtain ⟨t, next, frame⟩ := execSensorConversion_answers (s := s) n code ok
    obtain rfl := Host.Outcome.next.inj (next.symm.trans (exec_sensorConversion up n code ok))
    obtain ⟨sensors, level⟩ := retarget_gait (noted s n code ok).thermal
    rw [thermal_gait_sensors] at sensors
    have gait := noted_gait s n code ok
    refine ⟨_, exec_sensorConversion up n code ok, frame, fun unbegun => ?groups, ?sensor,
      fun m pos listed valid => ?thresholds⟩
    case groups =>
      rw [suspended_congr level] at unbegun
      rw [retarget_grp, thermal_grp, noted_grp]
      exact unbegun.imp_left fun held => (suspended_congr (by rw [gait])).trans held
    case sensor =>
      refine ⟨named s n, getElem?_named (by omega), ?_⟩
      rw [sensors, gait]
      rfl
    case thresholds =>
      obtain ⟨x, member, good⟩ := valid
      have nonempty : (noted s n code ok).validSensors ≠ [] :=
        List.ne_nil_of_mem ((mem_validSensors _).mpr ⟨sensors ▸ member, good⟩)
      rw [level, thermal_gait_thermal nonempty, tMax_congr sensors, le_thermalLevel_iff pos listed, gait]
      have degrees : thermalCode m = 2 * (90 + 5 * m + 40) := by unfold thermalCode; omega
      rw [InForce, degrees]
  case hottest =>
    obtain ⟨attained, bound⟩ := List.max?_eq_some_iff.mp (tMax_eq_max? s)
    refine ⟨fun x member converted good => ?_, ?_⟩
    · exact bound _ (.tail _ (List.mem_map_of_mem ((mem_validSensors s).mpr ⟨member, converted, good⟩)))
    · obtain zero | reading := List.mem_cons.mp attained
      · exact .inl zero
      · obtain ⟨x, member, temp⟩ := List.mem_map.mp reading
        obtain ⟨listed, converted, good⟩ := (mem_validSensors s).mp member
        exact .inr ⟨x, listed, converted, good, temp⟩

end Sys2Proof.ThermalThresholds
end

section
/-! PROOFS. The end of a save (O11): what each command does to the phase of an engine that does not run, the seal and the loss
of VHOLD. -/

namespace Sys2Proof.SaveEnd
open Sys2Proof Sys2Proof.Machine Sys2Proof.Safety Sys2Proof.Laws
open Sys2Proof.Answering

section
variable {s : State}

/-! ## Reset and its pins (R438) -/

theorem pwr_eq_of_onlyChanges {fs : List Part} {t : State} (frame : OnlyChanges fs s t) (kept : Part.pwr ∉ fs) :
    t.pwr = s.pwr := by
  simpa [mask, kept] using congrArg State.pwr frame

theorem bag_eq_of_onlyChanges {fs : List Part} {t : State} (frame : OnlyChanges fs s t) (kept : Part.bag ∉ fs) :
    t.bag = s.bag := by
  simpa [mask, kept] using congrArg State.bag frame

@[simp] theorem refreshFault_pwr (s : State) : s.refreshFault.pwr = s.pwr :=
  pwr_eq_of_onlyChanges (State.refreshFault_frame (fs := [.pins]) s rfl (by decide)) (by decide)

@[simp] theorem enterReset_phase (s : State) : s.enterReset.pwr.phase = .inReset := by
  rw [State.enterReset, refreshFault_pwr]

@[simp] theorem enterReset_bag (s : State) : s.enterReset.bag = s.bag := by
  apply bag_eq_of_onlyChanges (fs := [.link, .pins, .pwr])
  · apply State.enterReset_frame s rfl <;> decide
  · decide

theorem up_eq_false_iff : s.up = false ↔ s.pwr.phase ≠ .running := by
  simp [State.up]

theorem memUp_of_down (down : s.up = false) : s.memUp = false := by
  rw [State.memUp, down, Bool.false_and]

/-! ## The end of a save (R447, R448) -/

theorem exec_saveSealed_of_low {v : Nat} (low : v < 2700) : exec (.saveSealed v) s = .next s := by
  show execSaveSealed v s = _
  exact congrArg Host.Outcome.next (if_pos (.inr low))

theorem exec_saveSealed_of_not_saving (idle : s.pwr.phase ≠ .saving) (v : Nat) : exec (.saveSealed v) s = .next s := by
  show execSaveSealed v s = _
  exact congrArg Host.Outcome.next (if_pos (.inl idle))

/-- A seal ends in reset with the save in the Saddlebag, whether or not a warm save is told to the base die. -/
theorem exec_saveSealed_of_saving {v : Nat} (saving : s.pwr.phase = .saving) (good : 2700 ≤ v) :
    ∃ u : State, exec (.saveSealed v) s = .next u.enterReset ∧ u.bag.save = some s.capture ∧ u.bag.sealed = true := by
  have seals : ¬(s.pwr.phase ≠ .saving ∨ v < vholdFloor) := fun
    | .inl idle => idle saving
    | .inr low => Nat.not_le.mpr low good
  refine ⟨_, congrArg Host.Outcome.next (if_neg seals), ?_⟩
  split <;> exact ⟨rfl, rfl⟩

theorem exec_saveIncomplete_of_saving (saving : s.pwr.phase = .saving) : exec .saveIncomplete s =
    .next ({ s with pwr := { s.pwr with warm := false, vddmKept := false } } : State).enterReset := by
  show execSaveIncomplete s = _
  exact congrArg Host.Outcome.next (if_pos saving)

theorem exec_saveIncomplete_of_not_saving (idle : s.pwr.phase ≠ .saving) : exec .saveIncomplete s = .next s := by
  show execSaveIncomplete s = _
  exact congrArg Host.Outcome.next (if_neg idle)

theorem exec_powerOn_of_started (started : s.pwr.phase ≠ .inReset) (vdd vddm vpp v : Nat) (ok : Bool) :
    exec (.powerOn vdd vddm vpp v ok) s = .next s := by
  show execPowerOn vdd vddm vpp v ok s = _
  exact congrArg Host.Outcome.next (if_pos started)

/-! ## The phase of an engine that does not run -/

/-- An outcome is a next state in the phase of the state before. -/
def KeepsPhase (s : State) (o : Host.Outcome State Fault Refusal) : Prop := ∃ t, o = .next t ∧ t.pwr.phase = s.pwr.phase

theorem KeepsPhase.of_next {t : State} (kept : t.pwr.phase = s.pwr.phase) : KeepsPhase s (.next t) := ⟨t, rfl, kept⟩

theorem KeepsPhase.of_eq {t : State} (same : t = s) : KeepsPhase s (.next t) := .of_next (by rw [same])

theorem KeepsPhase.of_answers {fs : List Part} {o : Host.Outcome State Fault Refusal} (answers : Answers fs s o)
    (kept : Part.pwr ∉ fs) : KeepsPhase s o := by
  obtain ⟨t, next, frame⟩ := answers
  exact ⟨t, next, congrArg Power.phase (pwr_eq_of_onlyChanges frame kept)⟩

theorem KeepsPhase.phase_eq {t : State} {o : Host.Outcome State Fault Refusal} (keeps : KeepsPhase s o) (next : o = .next t) :
    t.pwr.phase = s.pwr.phase := by
  obtain ⟨u, answer, kept⟩ := keeps
  obtain rfl := Host.Outcome.next.inj (next.symm.trans answer)
  exact kept

@[simp] theorem railAt_phase (p : Power) (source : SagSource) (mv : Nat) : (p.railAt source mv).phase = p.phase := by
  cases source <;> rfl

/-- A sag of an engine that does not run: a warm save becomes a sag save, and goes on (R441, R448). -/
theorem execSag_keepsPhase_of_down (down : s.up = false) (source : SagSource) (mv : Nat) :
    KeepsPhase s (execSag source mv s) := by
  refine .of_next ?_
  extract_lets s0 s1
  have rails : s0.pwr.phase = s.pwr.phase := railAt_phase _ _ _
  split
  · exact rails
  split
  case h_1 running => exact absurd running (up_eq_false_iff.mp down)
  case h_2 =>
    split
    · rw [refreshFault_pwr]
      exact rails
    · exact rails
  case h_3 => exact rails

theorem execPackageWarmReset_keepsPhase (kept : Bool) : KeepsPhase s (execPackageWarmReset kept s) := by
  refine .of_next ?_
  split <;> rfl

theorem execVholdLow_keepsPhase_of_down (down : s.up = false) (mv : Nat) : KeepsPhase s (execVholdLow mv s) :=
  .of_next (by rw [if_neg (Bool.eq_false_iff.mp down)])

theorem execAcceptance_keepsPhase_of_down (down : s.up = false) (stream : Nat) : KeepsPhase s (execAcceptance stream s) := by
  have none_acceptable : s.acceptable stream = none := if_pos (.inl down)
  exact .of_eq (by rw [none_acceptable])

theorem execRecordCommit_keepsPhase_of_down (down : s.up = false) (job : Nat) : KeepsPhase s (execRecordCommit job s) := by
  refine .of_eq ?_
  split
  · rfl
  · exact if_pos (.inl (memUp_of_down down))

/-- Of an engine that does not run, only a start, a seal and a lost save can change the phase. -/
theorem exec_keepsPhase_of_down (down : s.up = false) (c : Instr) :
    (∃ vdd vddm vpp v ok, c = .powerOn vdd vddm vpp v ok) ∨ (∃ v, c = .saveSealed v) ∨ c = .saveIncomplete ∨
      KeepsPhase s (exec c s) := by
  have stopped : ¬s.up = true := Bool.eq_false_iff.mp down
  cases c
  case powerOn vdd vddm vpp v ok => exact .inl ⟨vdd, vddm, vpp, v, ok, rfl⟩
  case saveSealed v => exact .inr (.inl ⟨v, rfl⟩)
  case saveIncomplete => exact .inr (.inr (.inl rfl))
  all_goals refine .inr (.inr (.inr ?_))
  case sag source mv => exact execSag_keepsPhase_of_down down source mv
  case packageWarmReset kept => exact execPackageWarmReset_keepsPhase kept
  case vholdLow mv => exact execVholdLow_keepsPhase_of_down down mv
  case acceptance stream => exact execAcceptance_keepsPhase_of_down down stream
  case recordCommit job => exact execRecordCommit_keepsPhase_of_down down job
  case registerWrite agent o v => exact ⟨s, if_pos (.inl down), rfl⟩
  case decodeDone | decodeBudget | linkRetrainDone | sndFrameDone => exact .of_eq (if_pos down)
  case frameArrival | entityJoin | linkLane | mountApply => exact .of_eq (if_pos (.inl down))
  case release | warmRequest | engineReset => exact .of_eq (if_neg stopped)
  case sfdRelease | replay => exact .of_eq (if_neg (by simp [down]))
  case entityInvalidate => exact .of_eq (if_pos (memUp_of_down down))
  case jobDispatch => exact .of_eq (if_neg (Bool.eq_false_iff.mp (memUp_of_down down)))
  all_goals exact .of_answers (exec_answers _ s) (of_decide_eq_true rfl)

end

/-- Settles O11: an engine that does not run keeps its phase at every command but a start, which a save ignores, a seal, which
counts at 2.70 V or more, and a lost save. -/
theorem saveRunsToItsEnd : Obligations.SaveRunsToItsEnd := by
  unfold Obligations.SaveRunsToItsEnd
  refine ⟨fun c s t saving next => ?saves, fun v s saving good => ?seals, fun v s _ low => exec_saveSealed_of_low low,
    fun s saving => ?lost, fun c s t reset next left => ?starts⟩
  case saves =>
    have down : s.up = false := up_eq_false_iff.mpr (by rw [saving]; decide)
    obtain ⟨vdd, vddm, vpp, v, ok, rfl⟩ | ⟨v, rfl⟩ | lost | keeps := exec_keepsPhase_of_down down c
    · rw [exec_powerOn_of_started (by rw [saving]; decide)] at next
      obtain rfl := Host.Outcome.next.inj next
      exact .inl saving
    · obtain low | good := Nat.lt_or_ge v 2700
      · rw [exec_saveSealed_of_low low] at next
        obtain rfl := Host.Outcome.next.inj next
        exact .inl saving
      · exact .inr (.inl ⟨v, rfl, good⟩)
    · exact .inr (.inr lost)
    · exact .inl ((keeps.phase_eq next).trans saving)
  case seals =>
    obtain ⟨u, next, save, isSealed⟩ := exec_saveSealed_of_saving saving good
    refine ⟨_, next, enterReset_phase u, ?_, ?_⟩
    · rw [enterReset_bag, save, Option.isSome_some]
    · rw [enterReset_bag, isSealed]
  case lost => exact ⟨_, exec_saveIncomplete_of_saving saving, enterReset_phase _, enterReset_bag _⟩
  case starts =>
    have down : s.up = false := up_eq_false_iff.mpr (by rw [reset]; decide)
    have idle : s.pwr.phase ≠ .saving := by rw [reset]; decide
    have stays (kept : t.pwr.phase = s.pwr.phase) : False := left (kept.trans reset)
    obtain start | ⟨v, rfl⟩ | rfl | keeps := exec_keepsPhase_of_down down c
    · exact start
    · rw [exec_saveSealed_of_not_saving idle] at next
      exact (stays (by rw [Host.Outcome.next.inj next])).elim
    · rw [exec_saveIncomplete_of_not_saving idle] at next
      exact (stays (by rw [Host.Outcome.next.inj next])).elim
    · exact (stays (keeps.phase_eq next)).elim

end Sys2Proof.SaveEnd
end

section
/-! PROOFS. The front of the queue (O1), the state after reset (O6), and the board: telemetry (O13), the bus codes (O14) and the
TAP (O15). -/

namespace Sys2Proof.Board
open Sys2Proof Sys2Proof.Machine Sys2Proof.Safety Sys2Proof.Laws

/-! ## The queue and the state after reset -/

/-- Settles O1, by the two cases of the queue. -/
theorem stepRunsFrontCommand : Obligations.StepRunsFrontCommand := by
  unfold Obligations.StepRunsFrontCommand
  refine ⟨fun c rest s => rfl, fun s empty => ?_⟩
  rw [step, empty]

theorem logOk_reset : LogOk Faults.reset := ⟨Nat.zero_le _, fun i e listed => by simp [Faults.reset] at listed⟩

theorem gaitOk_reset : GaitOk GaitState.reset := by unfold GaitOk; decide

theorem storesOk_reset : StoresOk State.reset :=
  ⟨rfl, rfl, rfl, rfl, .nil, by simp [State.reset, Entities.reset], by simp [State.reset, Entities.usedRows, Entities.reset],
    .nil, fun sv saved => by simp [State.reset] at saved⟩

/-- Settles O6: each part of the state after reset is given, and is compared with what its invariant asks. -/
theorem resetMeetsInvariants : Obligations.ResetMeetsInvariants := by
  unfold Obligations.ResetMeetsInvariants
  refine ⟨rfl, logOk_reset, gaitOk_reset, .inr rfl, ?shape, storesOk_reset, rfl, rfl, rfl, rfl⟩
  case shape =>
    refine ⟨by decide, by decide, rfl, rfl, rfl, rfl, rfl, rfl, rfl, rfl, fun sv saved => ?_⟩
    simp [State.reset] at saved

/-! ## Telemetry -/

section
variable {s : State} {addr : BitVec 7}

theorem targetAt_iff : s.targetAt addr = true ↔
    (if s.pwr.phase = .inReset then 1710 else 1650) ≤ s.pwr.vppMv ∧ s.vholdOk = true ∧
      addr = (match s.tele.dynamic with | some a => a | none => 0x5C) := by
  unfold State.targetAt State.targetUp Power.vppGood Telemetry.address
  rw [Bool.and_eq_true, Bool.and_eq_true, decide_eq_true_eq, beq_iff_eq, and_assoc, eq_comm (b := addr)]
  cases s.tele.dynamic <;> rfl

theorem exec_telemetrySelect_of_other (bytes : List Byte) (other : s.targetAt addr = false) :
    exec (.telemetrySelect addr bytes) s = .next s := congrArg _ (if_pos other)

theorem exec_telemetrySelect_of_long {bytes : List Byte} (long : 1 < bytes.length) :
    exec (.telemetrySelect addr bytes) s = .next s := by
  match bytes, long with
  | _ :: _ :: _, _ => exact congrArg _ (ite_self s)

theorem exec_telemetryRead_of_other (other : s.targetAt addr = false) :
    exec (.telemetryRead addr) s = .next { s with tele := { s.tele with reply := [] } } := congrArg _ (if_pos other)

theorem exec_telemetryRead_of_own (own : s.targetAt addr = true) :
    exec (.telemetryRead addr) s = .next { s with tele := { s.tele with
      reply := leBytes 8 (s.telemetryValue s.tele.index).toNat
      index := (s.tele.index + 1) % 256 } } := congrArg _ (if_neg (Bool.not_eq_false _ ▸ own))

/-- The indices of R481, each with its register. -/
def telemetryTable : List (Nat × Nat) :=
  [(0x00, 0x3030), (0x01, 0x3040), (0x02, 0x3048), (0x03, 0x3050), (0x04, 0x3058), (0x05, 0x3060),
    (0x06, 0x3068), (0x07, 0x3070), (0x08, 0x3078), (0x09, 0x3008), (0x0A, 0x3080), (0x0B, 0x3088), (0x0C, 0x3090),
    (0x0D, 0x3400), (0x0E, 0x3810), (0x0F, 0x3808), (0x10, 0x018)]

theorem telemetryReg_of_listed : ∀ x ∈ telemetryTable, telemetryReg x.1 = some x.2 := by decide

theorem telemetryReg_of_beyond {i : Nat} (beyond : 0x10 < i) : telemetryReg i = none := by
  unfold telemetryReg
  repeat rw [if_neg (by omega)]

theorem telemetryValue_of_listed {i r : Nat} (awake : s.pwr.phase ≠ .inReset) (listed : (i, r) ∈ telemetryTable) :
    s.telemetryValue i = s.readReg r := by
  rw [State.telemetryValue, if_neg awake, telemetryReg_of_listed _ listed]
  rfl

theorem telemetryValue_of_none {i : Nat} (none : 0x10 < i ∨ s.pwr.phase = .inReset) : s.telemetryValue i = 0 := by
  unfold State.telemetryValue
  split
  · rfl
  next awake => rw [telemetryReg_of_beyond (none.resolve_right awake)]; rfl

end

/-- Settles O13: the target answers or not, and an index is listed or reads zero. -/
theorem telemetryReads : Obligations.TelemetryReads := by
  unfold Obligations.TelemetryReads
  refine ⟨fun addr b s own => ?_, fun addr bs s long => exec_telemetrySelect_of_long long,
    fun addr bs s other => ⟨exec_telemetrySelect_of_other bs other, exec_telemetryRead_of_other other⟩,
    fun addr s => targetAt_iff, fun addr s own => ?_⟩
  · exact congrArg _ (if_neg (Bool.not_eq_false _ ▸ own))
  · refine ⟨_, exec_telemetryRead_of_own own, rfl, rfl, fun r awake listed => ?_, fun none => ?_⟩
    · exact congrArg (fun v : Word => leBytes 8 v.toNat) (telemetryValue_of_listed awake listed)
    · exact congrArg (fun v : Word => leBytes 8 v.toNat) (telemetryValue_of_none none)

/-! ## Common command codes -/

section
variable {s : State}

theorem ccc_of_up (t : Telemetry) (up : s.targetUp = true) : s.ccc t = { s with tele := t } := if_pos up

theorem ccc_of_down (t : Telemetry) (down : s.targetUp = false) : s.ccc t = s := if_neg (Bool.eq_false_iff.mp down)

theorem assign_eq (t : Telemetry) (a : BitVec 7) : t.assign a = { t with dynamic := some (t.dynamic.getD a) } := by
  obtain ⟨index, dynamic, events, reply, answers⟩ := t
  cases dynamic <;> rfl

end

/-- Settles O14: every code is State.ccc of what the target becomes, which acts just when the target is up. -/
theorem busCommandCodes : Obligations.BusCommandCodes := by
  unfold Obligations.BusCommandCodes
  refine ⟨fun s up => congrArg _ (ccc_of_up _ up), fun s up => congrArg _ (ccc_of_up _ up),
    fun s up => congrArg _ (ccc_of_up _ up), fun a s c up listed => ?assigned, fun s c n up listed => ?answered,
    fun s c a down listed => ?untaken⟩
  case assigned =>
    have taken : exec c s = .next (s.ccc (s.tele.assign a)) := by
      simp only [List.mem_cons, List.not_mem_nil, or_false] at listed
      obtain rfl | rfl := listed <;> rfl
    rw [ccc_of_up _ up, assign_eq] at taken
    exact ⟨_, taken, rfl, rfl⟩
  case answered =>
    have taken : exec c s = .next (s.ccc (s.tele.answer n)) := by
      simp only [List.mem_cons, List.not_mem_nil, or_false, Prod.mk.injEq] at listed
      obtain ⟨rfl, rfl⟩ | ⟨rfl, rfl⟩ | ⟨rfl, rfl⟩ | ⟨rfl, rfl⟩ | ⟨rfl, rfl⟩ := listed <;> rfl
    rw [taken, ccc_of_up _ up]
    rfl
  case untaken =>
    have taken : ∃ t, exec c s = .next (s.ccc t) := by
      simp only [List.mem_cons, List.not_mem_nil, or_false] at listed
      obtain rfl | rfl | rfl | rfl | rfl | rfl | rfl | rfl | rfl | rfl := listed <;> exact ⟨_, rfl⟩
    obtain ⟨t, taken⟩ := taken
    rw [taken, ccc_of_down t down]

/-! ## The TAP -/

section
variable {s : State}

theorem selectTap_of_other (t : Tap) (other : s.tap.selected ≠ tapExtest) : s.selectTap t = { s with tap := t } := if_neg other

/-- An instruction that follows EXTEST gives the pins back (R438, R483). -/
theorem selectTap_of_extest {t : Tap} (extest : s.tap.selected = tapExtest) (leaves : t.selected ≠ tapExtest) :
    s.selectTap t = { s with tap := t, pins := { s.pins.idle with faultN := s.pwr.released || !s.faultAsserted } } := by
  rw [State.selectTap, if_pos extest, State.refreshFault, if_neg leaves]
  rfl

theorem exec_extest_of_reset (reset : s.pwr.phase = .inReset) :
    exec .extest s = .next { s with
      tap := { s.tap with selected := tapExtest, sampled := s.pins.levels }
      pins := s.pins.drive s.tap.cells } := congrArg Host.Outcome.next (if_pos reset)

end

/-- Settles O15: three instructions are State.selectTap of another register, and EXTEST drives the pins in reset alone. -/
theorem tapInstructions : Obligations.TapInstructions := by
  unfold Obligations.TapInstructions
  refine ⟨fun s v c x listed => ?selects, fun s awake => congrArg _ (if_neg awake), fun s reset => ?drives⟩
  case selects =>
    have taken : exec c s = .next (s.selectTap x) ∧ x.selected ≠ tapExtest := by
      simp only [List.mem_cons, List.not_mem_nil, or_false, Prod.mk.injEq] at listed
      obtain ⟨rfl, rfl⟩ | ⟨rfl, rfl⟩ | ⟨rfl, rfl⟩ := listed <;> exact ⟨rfl, by simp⟩
    obtain ⟨taken, leaves⟩ := taken
    exact ⟨fun other => taken.trans (congrArg _ (selectTap_of_other x other)),
      fun extest => taken.trans (congrArg _ (selectTap_of_extest extest leaves))⟩
  case drives => exact ⟨_, exec_extest_of_reset reset, rfl, rfl, rfl⟩

end Sys2Proof.Board
end

section
/-! PROOFS. The ledger target (O18): the derivation of R379 takes the last gait, in a range, that the credit allows. -/

namespace Sys2Proof.LedgerDerivation
open Sys2Proof Sys2Proof.Machine Sys2Proof.Safety Sys2Proof.Laws Sys2Proof.LedgerCredit

/-! ## The last number of a range with a property -/

section
variable {p : Nat → Bool} {n k : Nat}

theorem reverse_range_succ (n : Nat) : (List.range (n + 1)).reverse = n :: (List.range n).reverse := by
  rw [List.range_succ, List.reverse_append]
  rfl

theorem last_of_find?_eq_some (found : (List.range n).reverse.find? p = some k) :
    k < n ∧ p k = true ∧ ∀ x, k < x → x < n → p x = false := by
  induction n with
  | zero => simp at found
  | succ n ih =>
    rw [reverse_range_succ, List.find?_cons] at found
    cases holds : p n
    · rw [holds] at found
      obtain ⟨below, pk, above⟩ := ih found
      refine ⟨by omega, pk, fun x lo hi => ?_⟩
      obtain rfl | lt := Nat.eq_or_lt_of_le (Nat.le_of_lt_succ hi)
      · exact holds
      · exact above x lo lt
    · rw [holds] at found
      obtain rfl := Option.some.inj found
      exact ⟨by omega, holds, fun x lo hi => by omega⟩

theorem false_of_find?_eq_none (missed : (List.range n).reverse.find? p = none) {x : Nat} (below : x < n) : p x = false := by
  have none := List.find?_eq_none.mp missed x (by simpa using below)
  simpa using none

end

/-! ## The target of R379 -/

/-- A watermark in nJ. -/
def mark (c : Staged) (x : Nat) : Int := 1000 * (c.watermark x : Int)

section
variable {c : Staged} {g : Nat} {a : Int}

/-- Below its watermark a gait falls to the highest that the credit allows, Walk at least. -/
theorem ledgerTarget_of_below (above : g ≠ 0) (below : a < mark c g) :
    let g' := ledgerTarget c g a
    g' < g ∧ (g' = 0 ∨ mark c g' ≤ a) ∧ ∀ x, g' < x → x < g → a < mark c x := by
  intro g'
  have falls : g' = ((List.range g).reverse.find? (fun x => x = 0 || decide (mark c x ≤ a))).getD 0 := if_pos ⟨above, below⟩
  match found : (List.range g).reverse.find? (fun x => x = 0 || decide (mark c x ≤ a)) with
  | none =>
    have walks := false_of_find?_eq_none found (Nat.pos_of_ne_zero above)
    simp at walks
  | some k =>
    rw [found, Option.getD_some] at falls
    obtain ⟨lt, allowed, others⟩ := last_of_find?_eq_some found
    rw [falls]
    refine ⟨lt, by simpa using allowed, fun x lo hi => ?_⟩
    have denied := others x lo hi
    simp only [Bool.or_eq_false_iff, decide_eq_false_iff_not, not_le] at denied
    exact denied.2

/-- Else it rises to the highest gait above, within MAX_GAIT, whose watermark the credit passes by HYST, or stays. -/
theorem ledgerTarget_of_not_below (stands : ¬(g ≠ 0 ∧ a < mark c g)) :
    let g' := ledgerTarget c g a
    (g' = g ∨ (g < g' ∧ g' ≤ c.maxGait ∧ mark c g' + 1000 * (c.hyst : Int) ≤ a)) ∧
      ∀ x, g' < x → g < x → x ≤ c.maxGait → a < mark c x + 1000 * (c.hyst : Int) := by
  intro g'
  have rises : g' = ((List.range (c.maxGait + 1)).reverse.find?
    (fun x => decide (g < x) && decide (mark c x + 1000 * c.hyst ≤ a))).getD g := if_neg stands
  match found : (List.range (c.maxGait + 1)).reverse.find? (fun x => decide (g < x) && decide (mark c x + 1000 * c.hyst ≤ a)) with
  | none =>
    rw [found, Option.getD_none] at rises
    refine ⟨.inl rises, fun x _ lo hi => ?_⟩
    have denied := false_of_find?_eq_none found (Nat.lt_succ_of_le hi)
    simpa [lo] using denied
  | some k =>
    rw [found, Option.getD_some] at rises
    obtain ⟨lt, allowed, others⟩ := last_of_find?_eq_some found
    simp only [Bool.and_eq_true, decide_eq_true_eq] at allowed
    rw [rises]
    refine ⟨.inr ⟨allowed.1, Nat.le_of_lt_succ lt, allowed.2⟩, fun x lo above hi => ?_⟩
    have denied := others x lo (Nat.lt_succ_of_le hi)
    simpa [above] using denied

end

/-! ## The derivation -/

section
variable {s : State}

theorem retarget_ledgerGait (s : State) : s.retarget.gait.ledgerGait = s.gait.ledgerGait := by
  simp only [State.retarget]
  split <;> rfl

/-- Under the ledger policy a derivation notes the credit and takes the target of R379. -/
theorem deriveLedger_of_policy (policy : s.live.policy = 1) :
    s.deriveLedger.led = { s.led with derivedAt := s.credit } ∧
      s.deriveLedger.gait.ledgerGait = ledgerTarget s.live s.gait.ledgerGait s.credit := by
  rw [State.deriveLedger, if_pos policy, retarget_led, retarget_ledgerGait]
  exact ⟨rfl, rfl⟩

theorem credit_debit (s : State) (r : Rail) : ({ s with led := s.led.debit r } : State).credit = s.credit - 1 := by
  rw [debit_eq]
  show s.led.balance - 1 - s.led.reserved = s.led.balance - s.led.reserved - 1
  omega

theorem derivedAt_debit (l : Ledger) (r : Rail) : (l.debit r).derivedAt = l.derivedAt := by cases r <;> rfl

/-- A grant, and a debit that has moved the credit by 1 µJ, end in a derivation. -/
theorem exec_derives {c : Instr} (up : s.up = true)
    (derives : (∃ v, c = .sfdLedger v) ∨ (∃ r, c = .ledgerDebit r ∧ 1000 ≤ (s.credit - 1 - s.led.derivedAt).natAbs)) :
    ∃ l : Ledger, exec c s = .next ({ s with led := l } : State).deriveLedger := by
  obtain ⟨v, rfl⟩ | ⟨r, rfl, moved⟩ := derives
  · exact ⟨_, exec_sfdLedger up v⟩
  · refine ⟨_, (exec_ledgerDebit up r).trans (congrArg Host.Outcome.next (if_pos ?_))⟩
    rwa [credit_debit, show ({ s with led := s.led.debit r } : State).led.derivedAt = s.led.derivedAt from derivedAt_debit _ r]

end

/-- Settles O18: the command ends in a derivation, whose target is that of R379 for the credit left. -/
theorem ledgerTarget : Obligations.LedgerTarget := by
  unfold Obligations.LedgerTarget
  intro c s t up policy derives next a wm g g'
  obtain ⟨l, derived⟩ := exec_derives up derives
  obtain rfl := Host.Outcome.next.inj (derived.symm.trans next)
  obtain ⟨led, target⟩ := deriveLedger_of_policy (s := { s with led := l }) policy
  have credit : a = ({ s with led := l } : State).credit := by
    unfold a State.credit
    rw [led]
  have taken : g' = Machine.ledgerTarget s.live g a := by rw [credit]; exact target
  refine ⟨by rw [credit, led], fun falls => ?_, fun stands => ?_⟩
  · rw [taken]; exact ledgerTarget_of_below falls.1 falls.2
  · rw [taken]; exact ledgerTarget_of_not_below stands

end Sys2Proof.LedgerDerivation
end

section
/-! PROOFS. Gait changes (O19): the outcomes of the regulator's transactions, the arrival, and the failure with its recovery. -/

namespace Sys2Proof.GaitSteps
open Sys2Proof Sys2Proof.Machine Sys2Proof.Safety Sys2Proof.Laws Sys2Proof.ThermalThresholds

section
variable {s : State}

/-! ## Polls (R364, R479) -/

/-- A change is under way, with attempts left. -/
def Polls (s : State) : Prop := s.up = true ∧ s.gait.moving = true ∧ s.gait.attempts < 3

theorem Polls.due (polls : Polls s) : (s.up && s.gait.moving && decide (s.gait.attempts < avsAttempts)) = true := by
  obtain ⟨up, moving, left⟩ := polls
  rw [up, moving, decide_eq_true left]
  rfl

theorem exec_avsPoll_of_written (polls : Polls s) (written : s.gait.written = true) (wrote ok vdone : Bool) :
    exec (.avsPoll wrote ok vdone) s = .next (s.pollStatus ok vdone) :=
  congrArg Host.Outcome.next ((if_pos polls.due).trans (if_pos written))

theorem exec_avsPoll_of_wrote (polls : Polls s) (unwritten : s.gait.written = false) (ok vdone : Bool) :
    exec (.avsPoll true ok vdone) s =
      .next (({ s with gait := { s.gait with written := true, attempts := 0 } } : State).pollStatus ok vdone) :=
  congrArg Host.Outcome.next ((if_pos polls.due).trans (if_neg (Bool.eq_false_iff.mp unwritten)))

theorem exec_avsPoll_of_unwritten (polls : Polls s) (unwritten : s.gait.written = false) (ok vdone : Bool) :
    exec (.avsPoll false ok vdone) s = .next s.writeFailed :=
  congrArg Host.Outcome.next ((if_pos polls.due).trans (if_neg (Bool.eq_false_iff.mp unwritten)))

theorem failed_eq (g : GaitState) : g.failed = { g with
    attempts := g.attempts + 1
    retries := if g.attempts < 2 then min (g.retries + 1) 65535 else g.retries } := by
  have left : (g.attempts + 1 < avsAttempts) = (g.attempts < 2) := propext Nat.succ_lt_succ_iff
  unfold GaitState.failed
  simp only [left]
  rfl

theorem writeFailed_gait (s : State) : s.writeFailed.gait = s.gait.failed := by
  simp only [State.writeFailed]
  split <;> rfl

/-- The write is sent again before the third attempt. -/
theorem writeFailed_out (s : State) :
    s.writeFailed.out = s.out ++ (if s.gait.attempts < 2 then [.avsWrite (550 + 100 * s.gait.requested)] else []) := by
  have left : s.gait.attempts + 1 < avsAttempts ↔ s.gait.attempts < 2 := Nat.succ_lt_succ_iff
  simp only [State.writeFailed, GaitState.failed, left]
  split
  · rfl
  · exact (List.append_nil _).symm

/-! ## Arrival (R363) -/

theorem gaitAgrees_iff (g mv : Nat) : gaitAgrees g mv = true ↔ 550 + 100 * g ≤ mv + 15 ∧ mv ≤ 550 + 100 * g + 15 := by
  rw [gaitAgrees, Bool.and_eq_true, decide_eq_true_iff, decide_eq_true_iff]
  rfl

theorem exec_gaitReached_of_not_due (mv : Nat) (idle : ¬(s.gait.moving = true ∧ s.gait.vdone = true ∧ gaitAgrees s.gait.requested mv = true)) :
    exec (.gaitReached mv) s = .next s := by
  refine congrArg Host.Outcome.next (if_neg fun due => idle ?_)
  simp only [Bool.and_eq_true] at due
  exact ⟨due.1.1.2, due.1.2, due.2⟩

/-! ## Failure and recovery (R364) -/

theorem count_log (f : Faults) (cls : Nat) : (f.count cls).log = f.log ∧ (f.count cls).logHead = f.logHead := by
  simp only [Faults.count]
  split
  · exact ⟨rfl, rfl⟩
  · split <;> exact ⟨rfl, rfl⟩

theorem append_logHead (f : Faults) (e : LogEntry) : (f.append e).logHead = f.logHead + 1 := by
  simp only [Faults.append]
  split <;> rfl

theorem append_getLast? (f : Faults) (e : LogEntry) : (f.append e).log.getLast? = some e := by
  simp only [Faults.append]
  split <;> exact List.getLast?_concat

theorem append_counters (f : Faults) (e : LogEntry) :
    (f.append e).lasting = f.lasting ∧ (f.append e).transients = f.transients := by
  simp only [Faults.append]
  split <;> exact ⟨rfl, rfl⟩

/-- The entry of an event (R430). -/
def entryOf (s : State) (ev cls rung : Nat) (d : Detected) (detail : Nat) : LogEntry :=
  ⟨s.flt.logHead, ev, cls, rung, eventMask ev cls, d.pos, d.phys, d.plane, d.bank, d.slot, d.place, d.model, detail⟩

theorem refreshFault_flt (s : State) : s.refreshFault.flt = s.flt := by
  unfold State.refreshFault
  split <;> rfl

theorem notifyIf_flt (s : State) (b v : Nat) : (s.notifyIf b v).flt = s.flt := by
  unfold State.notifyIf
  split <;> rfl

/-- An event is appended to the log and counted. -/
theorem logEvent_flt (s : State) (ev cls rung : Nat) (d : Detected) (detail : Nat) :
    (s.logEvent ev cls rung d detail).flt = (s.flt.append (entryOf s ev cls rung d detail)).count cls := by
  unfold State.logEvent
  rw [refreshFault_flt]
  split
  · dsimp only
    split
    · exact notifyIf_flt _ _ _
    · exact notifyIf_flt _ _ _
  · rfl

theorem exec_avsErr_of_due {timeout : Bool} (up : s.up = true) (moving : s.gait.moving = true)
    (fails : timeout = true ∨ s.gait.attempts = 3) :
    exec (.avsErr timeout) s = .next (({ s with gait := { s.gait with
      avsErr := true, now := 0, requested := noGait, moving := false, written := false, vdone := false, attempts := 0 } } : State).logEvent
        evAvsErr clsLasting 0 Detected.nowhere s.gait.attempts) := by
  refine congrArg Host.Outcome.next (if_pos ?_)
  simp only [up, moving, Bool.true_and, Bool.or_eq_true, beq_iff_eq]
  exact fails

theorem retarget_of_avsErr (err : s.gait.avsErr = true) : s.retarget = s := if_pos (.inl err)

theorem exec_avsErrClear_of_due {v : Word} (up : s.up = true) (err : s.gait.avsErr = true) (clears : v.getLsbD 9 = true) :
    exec (.avsErrClear v) s = .next ({ s with gait := { s.gait with avsErr := false } } : State).retarget := by
  refine congrArg Host.Outcome.next ((if_pos up).trans (if_pos ?_))
  rw [err]
  exact clears

theorem exec_avsErrClear_of_not_due {v : Word} (idle : s.gait.avsErr = false ∨ v.getLsbD 9 = false) :
    exec (.avsErrClear v) s = .next s := by
  have kept : s.clearAvsErr v = s := by
    refine if_neg fun due => ?_
    simp only [Bool.and_eq_true] at due
    exact idle.elim (by simp [due.1]) fun low => Bool.eq_false_iff.mp low due.2
  show Host.Outcome.next (if s.up then s.clearAvsErr v else s) = _
  rw [kept, ite_self]

/-- With no error standing the effective target is requested where another was. -/
theorem retarget_requests (clear : s.gait.avsErr = false) :
    s.retarget.gait.avsErr = false ∧ s.retarget.gait.requested = s.effectiveTarget ∧
      (s.gait.requested ≠ s.effectiveTarget →
        s.retarget.gait.moving = true ∧ s.retarget.out = s.out ++ [.avsWrite (gaitMv s.effectiveTarget)]) := by
  simp only [State.retarget, clear, Bool.false_eq_true, false_or]
  split
  next same => exact ⟨clear, same.symm, fun other => absurd same.symm other⟩
  · exact ⟨rfl, rfl, fun _ => ⟨rfl, rfl⟩⟩

end

/-- Settles O19, command by command: the polls, the arrival, the failure and its clearing. -/
theorem gaitChanges : Obligations.GaitChanges := by
  unfold Obligations.GaitChanges
  refine ⟨fun ok vdone s up moving left unwritten => ⟨?wrote, ?unwritten⟩,
    fun wrote vdone s up moving left written => ⟨?read, ?unread⟩, fun mv s up moving vdone lo hi => ?arrives,
    fun mv s idle => ?waits, fun timeout s up moving fails => ?fails, fun s err => retarget_of_avsErr err,
    fun v s up err clears => ?clears, fun v s idle => exec_avsErrClear_of_not_due idle⟩
  case wrote =>
    rw [exec_avsPoll_of_wrote ⟨up, moving, left⟩ unwritten]
    exact (exec_avsPoll_of_written (s := { s with gait := { s.gait with written := true, attempts := 0 } })
      ⟨up, moving, Nat.zero_lt_succ 2⟩ rfl _ _ _).symm
  case unwritten =>
    refine ⟨_, exec_avsPoll_of_unwritten ⟨up, moving, left⟩ unwritten _ _, ?_, writeFailed_out s, ?_⟩
    · exact State.writeFailed_frame s rfl (by decide) (by decide)
    · rw [writeFailed_gait, failed_eq]
  case read => exact exec_avsPoll_of_written ⟨up, moving, left⟩ written _ _ _
  case unread =>
    refine ⟨_, exec_avsPoll_of_written ⟨up, moving, left⟩ written _ _ _, rfl, rfl, ?_⟩
    exact failed_eq s.gait
  case arrives =>
    refine congrArg Host.Outcome.next (if_pos ?_)
    rw [up, moving, vdone]
    exact (gaitAgrees_iff _ _).mpr ⟨lo, hi⟩
  case waits =>
    refine exec_gaitReached_of_not_due mv fun ⟨moving, vdone, agrees⟩ => ?_
    obtain ⟨lo, hi⟩ := (gaitAgrees_iff _ _).mp agrees
    obtain still | undone | below | beyond := idle
    · simp [still] at moving
    · simp [undone] at vdone
    · omega
    · omega
  case fails =>
    refine ⟨_, exec_avsErr_of_due up moving fails, ?_, ?_, ?_, ?_, ?_⟩
    · exact State.logEvent_frame _ _ _ _ _ _ rfl (by decide) (by decide) (by decide)
    · exact gait_eq_of_onlyChanges (logEvent_frame _ _ _ _ _ _) (by decide)
    · rw [logEvent_flt, (count_log _ _).2, append_logHead]
    · rw [logEvent_flt, Faults.count, if_neg (by decide), if_pos rfl, (append_counters _ _).1]
      rfl
    · rw [logEvent_flt, (count_log _ _).1, append_getLast?]
      exact ⟨_, rfl, rfl, rfl, rfl⟩
  case clears =>
    obtain ⟨clear, requested, sends⟩ := retarget_requests (s := { s with gait := { s.gait with avsErr := false } }) rfl
    exact ⟨_, exec_avsErrClear_of_due up err clears, State.retarget_frame _ rfl (by decide) (by decide), clear, requested, sends⟩

end Sys2Proof.GaitSteps
end

section
/-! PROOFS. The acknowledgement of faults (O58) fails as stated: while EXTEST is selected no step of the fault log moves the pin. -/

namespace Sys2Proof.Acknowledging
open Sys2Proof Sys2Proof.Machine Sys2Proof.Safety Sys2Proof.Laws

/-- An acknowledgement at LOG_HEAD moves the cursor, and the pin follows (R432, R433). -/
theorem ackFaults_logHead (s : State) : s.ackFaults s.flt.logHead =
    ({ s with flt := { s.flt with ack := s.flt.logHead, lostAt := s.flt.lostAt.filter (unacknowledged s.flt.logHead) } } : State).refreshFault := by
  refine if_neg fun beyond => ?_
  simp [Machine.dist] at beyond

theorem refreshFault_of_extest {s : State} (extest : s.tap.selected = tapExtest) : s.refreshFault = s := if_pos extest

/-- A running engine with EXTEST selected, whose cell holds SFD_FAULT_N asserted over an empty log. -/
def held : State :=
  { State.reset with
    pwr := { Power.reset with phase := .running }
    tap := { State.reset.tap with selected := tapExtest }
    pins := { State.reset.pins with faultN := false } }

theorem exec_sfdFaultAck_held : exec (.sfdFaultAck 0) held =
    .next { held with flt := { held.flt with ack := 0, lostAt := none } } := by
  have taken : exec (.sfdFaultAck 0) held = .next (held.ackFaults held.flt.logHead) := rfl
  rw [taken, ackFaults_logHead]
  exact congrArg Host.Outcome.next (refreshFault_of_extest rfl)

/-- Refutes O58: nothing asserts SFD_FAULT_N after the acknowledgement, and the pin stays asserted as its cell has it. -/
theorem not_faultAck : ¬ Obligations.FaultAck := by
  unfold Obligations.FaultAck
  intro h
  obtain ⟨_, acknowledged⟩ := h 0 held rfl
  obtain ⟨t, next, _, _, _, _, _, pins, _⟩ := acknowledged (.inl rfl)
  obtain rfl := Host.Outcome.next.inj (exec_sfdFaultAck_held.symm.trans next)
  exact absurd (congrArg Pins.faultN pins) (by decide)

end Sys2Proof.Acknowledging
end

section
/-! PROOFS. Outside a run no work is done (O12): what each command of a family that works does to an engine that is down, and what
begins a run and a save. -/

namespace Sys2Proof.Resting
open Sys2Proof Sys2Proof.Machine Sys2Proof.Safety Sys2Proof.Laws
open Sys2Proof.SaveEnd

section
variable {s : State}

/-! ## No command of a run acts in reset or during a save -/

theorem next_of_eq {t : State} (same : t = s) : (.next t : Host.Outcome State Fault Refusal) = .next s := congrArg _ same

/-- The families that work only in a run, and the commands of supplies that do. -/
def Works (c : Instr) : Prop :=
  family c = .records ∨ family c = .jobs ∨ family c = .images ∨ family c = .scoring ∨ family c = .registers ∨
    c = .engineReset ∨ (∃ again, c = .replay again) ∨ c = .warmRequest

section
variable (down : s.up = false)
include down

theorem exec_records_of_down {c : Instr} (records : family c = .records) : exec c s = .next s := by
  have stopped : ¬s.up = true := Bool.eq_false_iff.mp down
  have away : s.memUp = false := memUp_of_down down
  cases c
  case acceptance stream =>
    have none_acceptable : s.acceptable stream = none := if_pos (.inl down)
    exact next_of_eq (by rw [none_acceptable])
  case decodeDone | decodeBudget | linkRetrainDone | sndFrameDone | sfdSndDb => exact next_of_eq (if_pos down)
  case frameArrival | entityJoin | linkLane | memoryReadReturn => exact next_of_eq (if_pos (.inl down))
  case outriderFetch | sndFrameStart => exact next_of_eq (if_pos (.inl away))
  case entityUpdate | entityEvict | entityInvalidate => exact next_of_eq (if_pos away)
  case memoryWriteAcknowledged => exact next_of_eq (if_neg stopped)
  all_goals cases records

theorem exec_jobs_of_down {c : Instr} (jobs : family c = .jobs) : exec c s = .next s := by
  have stopped : ¬s.up = true := Bool.eq_false_iff.mp down
  have away : s.memUp = false := memUp_of_down down
  cases c
  case jobDispatch => exact next_of_eq (if_neg (Bool.eq_false_iff.mp away))
  case jobRefusal | score | scoreTremolo | fence | fenceComplete | release => exact next_of_eq (if_neg stopped)
  case sfdRelease | sfdRingSdb | sfdRingCdb => exact next_of_eq (if_neg (by simp [down]))
  case recordCommit | drainTile =>
    refine next_of_eq ?_
    split
    · rfl
    · exact if_pos (.inl away)
  case drainWritesAcked =>
    refine next_of_eq ?_
    split
    · rfl
    · exact if_pos (.inl down)
  all_goals cases jobs

theorem exec_images_of_down {c : Instr} (images : family c = .images) : exec c s = .next s := by
  have stopped : ¬s.up = true := Bool.eq_false_iff.mp down
  have away : s.memUp = false := memUp_of_down down
  cases c
  case mountGo | mountDiscard => exact next_of_eq (if_neg stopped)
  case mountApply => exact next_of_eq (if_pos (.inl down))
  case leafPatch | loadHarness =>
    refine next_of_eq ?_
    split
    · rfl
    · exact if_pos (.inl away)
  case loadFirstPass =>
    refine next_of_eq ?_
    split
    · rfl
    · exact if_pos (.inl away)
  case loadSecondPass =>
    refine next_of_eq ?_
    extract_lets s0
    split
    · rfl
    · exact if_pos (.inl (memUp_of_down (s := s0) down))
  case patchBoundary =>
    refine next_of_eq ?_
    split
    · split
      · rfl
      · exact if_neg (by simp [down])
    · rfl
  case mount | groupPlaneSwitch | planeEndInvalidate =>
    refine next_of_eq ?_
    split
    · rfl
    · exact if_neg (by simp [down])
  all_goals cases images

theorem exec_scoring_of_down {c : Instr} (scoring : family c = .scoring) : exec c s = .next s := by
  have stopped : ¬s.up = true := Bool.eq_false_iff.mp down
  have away : s.memUp = false := memUp_of_down down
  cases c
  case sfdFaultAck => exact next_of_eq (if_neg stopped)
  case curryItem | tileSpared => exact next_of_eq (if_pos (.inl down))
  case bridgeSearch | faultRecovery =>
    refine next_of_eq ?_
    split
    · rfl
    · exact if_pos (.inl down)
  case accumulationColumn | chordNode =>
    refine next_of_eq ?_
    split
    · rfl
    split
    · rfl
    · exact if_pos (.inl down)
  case tunerAdd | tallyWrite =>
    refine next_of_eq ?_
    split
    · rfl
    split
    · exact if_pos (.inl down)
    · rfl
  case doubleRunSwitch =>
    refine next_of_eq ?_
    split
    · rfl
    · exact if_neg stopped
  case recordDispatch => exact next_of_eq (if_neg stopped)
  all_goals cases scoring

theorem exec_registers_of_down {c : Instr} (registers : family c = .registers) : exec c s = .next s := by
  have stopped : ¬s.up = true := Bool.eq_false_iff.mp down
  cases c
  case registerWrite => exact if_pos (.inl down)
  case avsPoll | gaitReached | avsErr => exact next_of_eq (if_neg (by simp [down]))
  case sfdLedger | ledgerDebit | avsErrClear | sensorConversion | sfdDbgCapCtl | sfdDbgChordSel | sfdDbgTally | sfdImgExpectWrite =>
    exact next_of_eq (if_neg stopped)
  all_goals cases registers

/-- Nothing that works in a run has an effect outside of one (R437, R447). -/
theorem exec_of_down {c : Instr} (works : Works c) : exec c s = .next s := by
  have stopped : ¬s.up = true := Bool.eq_false_iff.mp down
  obtain records | jobs | images | scoring | registers | rfl | ⟨again, rfl⟩ | rfl := works
  · exact exec_records_of_down down records
  · exact exec_jobs_of_down down jobs
  · exact exec_images_of_down down images
  · exact exec_scoring_of_down down scoring
  · exact exec_registers_of_down down registers
  · exact next_of_eq (if_neg stopped)
  · exact next_of_eq (if_neg (by simp [down]))
  · exact next_of_eq (if_neg stopped)

end

/-! ## The start (R436, R437, R444) -/

/-- The engine as a start leaves it before its modules and rails are noted: with the save restored, or with none. -/
def startedFrom (s : State) (ok : Bool) : State :=
  match s.bag.valid ok with
  | some sv => s.restore sv (sv.cause == warmSource && s.pwr.vddmKept)
  | none => { s.cold with pwr := { s.cold.pwr with cause := s.bag.coldCause }, bag := { s.cold.bag with consumed := true } }

/-- A start but its announcement: the telemetry target is lost unless VPP_SFD stood, and the rails stand at their levels. -/
def started (vdd vddm vpp v : Nat) (ok : Bool) (s : State) : State :=
  let s1 := startedFrom s ok
  let s2 := if s1.pwr.cause = 2 then s1 else { s1 with tele := s1.tele.lost }
  { s2 with bag := { s2.bag with begun := false }, pwr := s2.pwr.rails vdd vddm vpp v }

variable {vdd vddm vpp v : Nat}

theorem railsGood_iff : railsGood vdd vddm vpp v = true ↔ 500 ≤ vdd ∧ 770 ≤ vddm ∧ 1710 ≤ vpp ∧ 3200 ≤ v := by
  simp only [railsGood, Bool.and_eq_true, decide_eq_true_eq, and_assoc]

theorem exec_powerOn_of_good (ok : Bool) (reset : s.pwr.phase = .inReset) (good : railsGood vdd vddm vpp v = true) :
    exec (.powerOn vdd vddm vpp v ok) s = .next (started vdd vddm vpp v ok s).announceStart :=
  congrArg Host.Outcome.next ((if_neg (not_not_intro reset)).trans (if_neg (by simp [good])))

theorem exec_powerOn_of_low (ok : Bool) (reset : s.pwr.phase = .inReset) (low : railsGood vdd vddm vpp v = false) :
    exec (.powerOn vdd vddm vpp v ok) s = .next { s with pwr := s.pwr.rails vdd vddm vpp v } :=
  congrArg Host.Outcome.next ((if_neg (not_not_intro reset)).trans (if_pos low))

theorem startedFrom_phase (s : State) (ok : Bool) : (startedFrom s ok).pwr.phase = .running := by
  unfold startedFrom
  split <;> rfl

theorem started_pwr (vdd vddm vpp v : Nat) (ok : Bool) (s : State) :
    (started vdd vddm vpp v ok s).pwr = (startedFrom s ok).pwr.rails vdd vddm vpp v := by
  simp only [started]
  split <;> rfl

theorem notifyIf_pwr (u : State) (b n : Nat) : (u.notifyIf b n).pwr = u.pwr := by
  unfold State.notifyIf
  split <;> rfl

/-- Of the supplies, ACC_HELD alone follows the acceptance (R439). -/
theorem refreshHeld_pwr (u : State) : u.refreshHeld.pwr = { u.pwr with accHeld := u.refreshHeld.pwr.accHeld } := by
  simp only [State.refreshHeld]
  split
  · rw [notifyIf_pwr]
  · rfl

theorem announceStart_pwr (u : State) : u.announceStart.pwr = { u.pwr with accHeld := u.announceStart.pwr.accHeld } := by
  show u.refreshFault.refreshHeld.pwr = { u.pwr with accHeld := u.refreshFault.refreshHeld.pwr.accHeld }
  rw [refreshHeld_pwr, refreshFault_pwr]

/-- A start runs, with the rails at their levels. -/
theorem start_pwr (vdd vddm vpp v : Nat) (ok : Bool) (s : State) :
    let p := (started vdd vddm vpp v ok s).announceStart.pwr
    p.phase = .running ∧ p.vddMv = vdd ∧ p.vddmMv = vddm ∧ p.vppMv = vpp ∧ p.vholdMv = v := by
  intro p
  have given : p = { (startedFrom s ok).pwr.rails vdd vddm vpp v with accHeld := p.accHeld } := by
    rw [← started_pwr]
    exact announceStart_pwr _
  rw [given]
  exact ⟨startedFrom_phase s ok, rfl, rfl, rfl, rfl⟩

/-! ## A sag (R436, R446) -/

theorem sagTrips_iff (source : SagSource) (mv : Nat) : s.sagTrips source mv = true ↔
    source = .sagN ∨ (source = .vddSfd ∧ mv + 50 < gaitMv s.gait.shown) ∨ (source = .vddmSfd ∧ mv < 740) ∨
      (source = .vppSfd ∧ mv < 1650) := by
  cases source <;> simp [State.sagTrips]

theorem exec_sag_of_none {source : SagSource} {mv : Nat} (none : s.sagTrips source mv = false) :
    exec (.sag source mv) s = .next { s with pwr := s.pwr.railAt source mv } :=
  congrArg Host.Outcome.next (if_pos none)

/-- The levels after a sag. -/
def sagged (s : State) (source : SagSource) (mv : Nat) : State :=
  ({ s with pwr := s.pwr.railAt source mv } : State).tripped source

theorem exec_sag_of_running {source : SagSource} {mv : Nat} (trips : s.sagTrips source mv = true) (running : s.pwr.phase = .running) :
    exec (.sag source mv) s = .next ((sagged s source mv).beginSave (sagCode source) false) := by
  refine congrArg Host.Outcome.next ((if_neg (by simp [trips])).trans ?_)
  rw [running]
  rfl

theorem beginSave_pwr (u : State) (source : Nat) (warm : Bool) :
    (u.beginSave source warm).pwr = { u.pwr with phase := .saving, sagSrc := source, warm := warm } := refreshFault_pwr _

end

/-- Settles O12: only a start on good rails leaves reset, a sag of a running engine saves, and nothing else works. -/
theorem onlyTheStartLeavesReset : Obligations.OnlyTheStartLeavesReset := by
  unfold Obligations.OnlyTheStartLeavesReset
  refine ⟨fun c s t reset next left => ?leaves, fun vdd vddm vpp v ok s reset => ⟨fun h1 h2 h3 h4 => ?starts, fun low => ?stays⟩,
    fun vdd vddm vpp v ok s started => exec_powerOn_of_started started vdd vddm vpp v ok, fun source mv s running => ?sags,
    fun c s down works => exec_of_down down works⟩
  case leaves =>
    obtain ⟨_, _, _, _, onlyStarts⟩ := saveRunsToItsEnd
    obtain ⟨vdd, vddm, vpp, v, ok, rfl⟩ := onlyStarts c s t reset next left
    cases good : railsGood vdd vddm vpp v
    · rw [exec_powerOn_of_low ok reset good] at next
      exact absurd (by rw [← Host.Outcome.next.inj next]; exact reset) left
    · rw [exec_powerOn_of_good ok reset good] at next
      rw [← Host.Outcome.next.inj next]
      exact ⟨(start_pwr vdd vddm vpp v ok s).1, vdd, vddm, vpp, v, ok, rfl, railsGood_iff.mp good⟩
  case starts => exact ⟨_, exec_powerOn_of_good ok reset (railsGood_iff.mpr ⟨h1, h2, h3, h4⟩), start_pwr vdd vddm vpp v ok s⟩
  case stays =>
    refine exec_powerOn_of_low ok reset (Bool.eq_false_iff.mpr fun good => ?_)
    have := railsGood_iff.mp good
    omega
  case sags =>
    cases trips : s.sagTrips source mv
    · refine ⟨_, exec_sag_of_none trips, ?_, fun _ => ⟨?_, rfl⟩⟩
      · rw [← sagTrips_iff, trips, railAt_phase, running]
        simp
      · rw [railAt_phase, running]
    · refine ⟨_, exec_sag_of_running trips running, ?_, fun other => absurd ?_ other⟩
      · rw [← sagTrips_iff, trips, beginSave_pwr]
        simp
      · rw [beginSave_pwr]

end Sys2Proof.Resting
end

section
/-! PROOFS. The writes that take effect at once (O22): selects, debug controls, and the registers that are commands. -/

namespace Sys2Proof.Immediate
open Sys2Proof Sys2Proof.Machine Sys2Proof.Safety Sys2Proof.Laws
open Sys2Proof.Resting

section
variable {a o : Nat} {v : Word} {s : State}

/-! ## The meaning of a register write (R346, R347) -/

theorem exec_registerWrite_of_none (bits : List (Nat × Nat)) (up : s.up = true) (aligned : o % 8 = 0)
    (outside : ¬(0x840 ≤ o ∧ o < 0x860)) (plain : immediateWrite o v = none) (select : selectBits o = some bits) :
    exec (.registerWrite a o v) s = .next { s with sel := s.sel.write o (v &&& bitsOf bits) } := by
  show execRegisterWrite a o v s = _
  simp only [execRegisterWrite, if_neg (show ¬(s.up = false ∨ o % 8 ≠ 0) by simp [up, aligned]), if_neg outside, plain, select]

theorem exec_registerWrite_of_own {f : State → Host.Outcome State Fault Refusal} (up : s.up = true) (aligned : o % 8 = 0)
    (outside : ¬(0x840 ≤ o ∧ o < 0x860)) (own : immediateWrite o v = some f) : exec (.registerWrite a o v) s = f s := by
  show execRegisterWrite a o v s = _
  simp only [execRegisterWrite, if_neg (show ¬(s.up = false ∨ o % 8 ≠ 0) by simp [up, aligned]), if_neg outside, own]

/-- An offset that names no register of the map takes no write (R490). -/
theorem exec_registerWrite_of_nowhere (outside : ¬(0x840 ≤ o ∧ o < 0x860)) (plain : immediateWrite o v = none)
    (select : selectBits o = none) (unstaged : isStaged o = false) : exec (.registerWrite a o v) s = .next s := by
  show execRegisterWrite a o v s = _
  unfold execRegisterWrite
  split
  · rfl
  · simp only [plain, select, unstaged, Bool.false_eq_true, if_false]

theorem exec_registerWrite_of_unaligned (unaligned : o % 8 ≠ 0) : exec (.registerWrite a o v) s = .next s :=
  if_pos (.inr unaligned)

theorem immediateWrite_submission {r : Nat} (ring : r < 64) (v : Word) :
    immediateWrite (0x1018 + 64 * r) v = some (execSfdRingSdb r v) := by
  unfold immediateWrite
  rw [if_neg (by omega), if_pos (by omega), show (0x1018 + 64 * r - 0x1000) / 64 = r by omega]

theorem immediateWrite_completion {r : Nat} (ring : r < 64) (v : Word) :
    immediateWrite (0x1020 + 64 * r) v = some (execSfdRingCdb r v) := by
  unfold immediateWrite
  rw [if_neg (by omega), if_neg (by omega), if_pos (by omega), show (0x1020 + 64 * r - 0x1000) / 64 = r by omega]

/-- The registers that are commands and the selects, outside the rings (R347). -/
def immediates : List Nat :=
  [0x500, 0x700, 0x2000, 0x3418, 0x6000, 0x6040, 0x6200, 0x6080, 0x6280, 0x530, 0x2050, 0x3000, 0x3030, 0x3410, 0x800]

theorem not_immediate (other : ¬(0x1000 ≤ o ∧ o < 0x2000 ∧ (o % 64 = 24 ∨ o % 64 = 32))) (unlisted : o ∉ immediates) :
    immediateWrite o v = none ∧ selectBits o = none := by
  simp only [immediates, List.mem_cons, List.not_mem_nil, or_false, not_or] at unlisted
  unfold immediateWrite selectBits
  constructor <;> repeat rw [if_neg (by omega)]

end

/-! ## The capture after a start and an engine reset -/

section
variable {fs : List Part} {s t : State}

theorem sel_eq_of_onlyChanges (frame : OnlyChanges fs s t) (kept : Part.sel ∉ fs) : t.sel = s.sel := by
  simpa [mask, kept] using congrArg State.sel frame

theorem announceStart_frame (u : State) : OnlyChanges [.pwr, .pins, .out] u u.announceStart :=
  State.announceStart_frame u rfl (by decide) (by decide) (by decide)

theorem startedFrom_sel (s : State) (ok : Bool) : (startedFrom s ok).sel = Selects.reset := by
  unfold startedFrom
  split <;> rfl

theorem start_sel (vdd vddm vpp v : Nat) (ok : Bool) (s : State) :
    (started vdd vddm vpp v ok s).announceStart.sel = Selects.reset := by
  rw [sel_eq_of_onlyChanges (announceStart_frame _) (by decide)]
  simp only [started]
  split <;> exact startedFrom_sel s ok

/-- An engine reset but its announcement, its frames and the reload: the state of R442 with its accept cursors written. -/
def resetKept (s : State) : State :=
  let s1 := (((s.endJobs true).dropPending).markReplay false).kept.retarget
  s1.ing.streams.foldl (fun (t : State) x => if x.2.started && decide (0 < x.2.unwritten) then t.writeAccept x.1 else t) s1

theorem exec_engineReset_of_up (up : s.up = true) : exec .engineReset s = .next ((resetKept s).reload.announceStart).pump :=
  congrArg Host.Outcome.next (if_pos up)

theorem resetKept_frame (s : State) :
    OnlyChanges [.gait, .out, .mem, .ing] (((s.endJobs true).dropPending).markReplay false).kept (resetKept s) := by
  refine OnlyChanges.foldl _ (State.retarget_frame _ rfl (by decide) (by decide)) fun x t frame => ?_
  split
  · exact State.writeAccept_frame _ _ frame (by decide) (by decide)
  · exact frame

theorem engineReset_frame (s : State) :
    OnlyChanges [.gait, .out, .mem, .ing, .arr, .grp, .pwr, .pins] (((s.endJobs true).dropPending).markReplay false).kept
      ((resetKept s).reload.announceStart).pump := by
  apply State.pump_frame
  apply State.announceStart_frame
  apply State.reload_frame
  exact Answering.onlyChanges_mono (by decide) (resetKept_frame s)
  all_goals decide

theorem engineReset_sel (s : State) : (((resetKept s).reload.announceStart).pump).sel = Selects.reset :=
  sel_eq_of_onlyChanges (engineReset_frame s) (by decide)

end

/-- Settles O22, register by register. -/
theorem immediateWrites : Obligations.ImmediateWrites := by
  unfold Obligations.ImmediateWrites
  refine ⟨fun a v s up => ?registers, fun a o v s outside => ?nowhere, fun v s up (arm : wbit v 0 = true) => ?arms, fun v s up (arm : wbit v 0 = false) => ?disarms,
    fun c s t next reset => ?resets, fun v s up => congrArg Host.Outcome.next (if_pos up)⟩
  case registers =>
    have select (o : Nat) (bits) (aligned : o % 8 = 0) (outside : ¬(0x840 ≤ o ∧ o < 0x860)) (plain : immediateWrite o v = none)
        (select : selectBits o = some bits) := exec_registerWrite_of_none (a := a) bits up aligned outside plain select
    have own {o : Nat} {f} (aligned : o % 8 = 0) (outside : ¬(0x840 ≤ o ∧ o < 0x860)) (own : immediateWrite o v = some f) :=
      exec_registerWrite_of_own (a := a) up aligned outside own
    refine ⟨select 0x500 _ rfl (by decide) rfl rfl, select 0x700 _ rfl (by decide) rfl rfl, select 0x2000 _ rfl (by decide) rfl rfl,
      select 0x3418 _ rfl (by decide) rfl rfl, select 0x6000 _ rfl (by decide) rfl rfl, select 0x6040 _ rfl (by decide) rfl rfl,
      select 0x6200 _ rfl (by decide) rfl rfl, own rfl (by decide) rfl, own rfl (by decide) rfl, own rfl (by decide) rfl,
      own rfl (by decide) rfl, own rfl (by decide) rfl, own rfl (by decide) rfl, own rfl (by decide) rfl, fun (go : wbit v 0 = true) => ?_,
      fun (go : wbit v 0 = false) (discard : wbit v 1 = true) => ?_, fun r ring => ⟨?_, ?_⟩⟩
    · exact (own rfl (by decide) rfl).trans (by rw [if_pos go]; rfl)
    · exact (own rfl (by decide) rfl).trans (by rw [if_neg (Bool.eq_false_iff.mp go), if_pos discard]; rfl)
    · exact own (by omega) (by omega) (immediateWrite_submission ring v)
    · exact own (by omega) (by omega) (immediateWrite_completion ring v)
  case nowhere =>
    obtain unaligned | ⟨unstaged, outside, other, unlisted⟩ := outside
    · exact exec_registerWrite_of_unaligned unaligned
    · obtain ⟨plain, select⟩ := not_immediate other unlisted
      exact exec_registerWrite_of_nowhere outside plain select unstaged
  case arms => exact congrArg Host.Outcome.next ((if_pos up).trans (by simp only [arm, if_true]; rfl))
  case disarms => exact congrArg Host.Outcome.next ((if_pos up).trans (by simp only [arm, Bool.false_eq_true, if_false]; rfl))
  case resets =>
    have cleared : t.sel = Selects.reset := by
      obtain ⟨rfl, up⟩ | ⟨vdd, vddm, vpp, v, ok, rfl, reset, good⟩ := reset
      · rw [exec_engineReset_of_up up] at next
        rw [← Host.Outcome.next.inj next, engineReset_sel]
      · rw [exec_powerOn_of_good ok reset good] at next
        rw [← Host.Outcome.next.inj next, start_sel]
    rw [cleared]
    exact ⟨rfl, rfl, rfl, rfl⟩

end Sys2Proof.Immediate
end

section
/-! PROOFS. The engine reset (O60) fails as stated: a job that it ends frees its reservation before the gait is put back. -/

namespace Sys2Proof.ResetGait
open Sys2Proof Sys2Proof.Machine Sys2Proof.Safety Sys2Proof.Laws
open Sys2Proof.Immediate Sys2Proof.Resting
open Sys2Proof.ThermalThresholds (gait_eq_of_onlyChanges)

/-- A fence in flight. -/
def fence : Job where
  id := 0
  ring := 0
  op := opFence
  tag := 0
  desc := 0
  slot := 0
  n := 0
  model := none
  groups := []
  tile := 0
  tiles := 0
  stride := 0
  add := false
  k := 0
  stream := 0
  first := 0
  next := 0
  committed := 0
  voided := 0
  costRec := 0
  costLeft := 0
  voidGroups := []
  routeGone := none
  special := []
  owed := []
  begun := true
  acked := 0
  owns := false
  written := false
  ended := false
  status := 0
  done := 0
  detail := 0

/-- A running engine at Walk under the ledger policy, whose credit has grown since its target was last derived: every sensor
allows Gallop, and a fence is in flight. -/
def ledgerLed : State :=
  { State.reset with
    pwr := { Power.reset with phase := .running }
    live := { Staged.reset with gait := 0x31, gaitWm := 0 }
    led := { Ledger.reset with balance := 1000000 }
    gait := { GaitState.reset with sensors := List.replicate 8 ⟨0, 0, false, true⟩ }
    jobs := { Jobs.reset with jobs := [fence], nextId := 1 } }

/-- The gait after an engine reset is that of the kept state, requested anew (R362). -/
theorem engineReset_gait (s : State) : (((resetKept s).reload.announceStart).pump).gait =
    (((s.endJobs true).dropPending).markReplay false).kept.retarget.gait := by
  have cursors : OnlyChanges [.out, .mem, .ing] (((s.endJobs true).dropPending).markReplay false).kept.retarget (resetKept s) := by
    refine OnlyChanges.foldl _ (OnlyChanges.refl _ _) fun x t frame => ?_
    split
    · exact State.writeAccept_frame _ _ frame (by decide) (by decide)
    · exact frame
  refine gait_eq_of_onlyChanges (fs := [.out, .mem, .ing, .arr, .grp, .pwr, .pins]) ?_ (by decide)
  apply State.pump_frame
  apply State.announceStart_frame
  apply State.reload_frame
  exact Answering.onlyChanges_mono (by decide) cursors
  all_goals decide

/-- The fence ends, and with it the ledger target is derived anew: Gallop is requested, and after it Walk (R362). -/
theorem ledgerLed_moves : (((ledgerLed.endJobs true).dropPending).markReplay false).kept.retarget.gait.moving = true := by
  decide

/-- Refutes O60: no gait but Walk was requested before the reset, and a change is under way after it. -/
theorem not_engineResetAndReplay : ¬ Obligations.EngineResetAndReplay := by
  unfold Obligations.EngineResetAndReplay
  intro h
  obtain ⟨reset, _⟩ := h
  obtain ⟨t, next, _, _, _, _, _, _, _, _, _, _, _, _, _, _, _, still, _⟩ := reset ledgerLed rfl rfl
  obtain rfl := Host.Outcome.next.inj ((exec_engineReset_of_up rfl).symm.trans next)
  have stays := (still rfl).2
  rw [engineReset_gait, ledgerLed_moves] at stays
  cases stays

end Sys2Proof.ResetGait
end

section
/-! PROOFS. The steps of a load (O45) fail as stated: a load whose resource records are longer than the room that its report
has for them ends with a report of more than 256 B, and a read of 256 B cannot return it. No step writes such records (they are
7 of 16 B each), but no premise of the statement shuts them out. -/

namespace Sys2Proof.LoadReports
open Sys2Proof Sys2Proof.Machine

/-- A LOAD_HARNESS in its second pass. -/
def loadJob : Job where
  id := 0
  ring := 0
  op := opLoad
  tag := 0
  desc := 0
  slot := 0
  n := 0
  model := none
  groups := []
  tile := 0
  tiles := 0
  stride := 0
  add := false
  k := 0
  stream := 0
  first := 0
  next := 0
  committed := 0
  voided := 0
  costRec := 0
  costLeft := 0
  voidGroups := []
  routeGone := none
  special := []
  owed := []
  begun := true
  acked := 0
  owns := false
  written := false
  ended := false
  status := 0
  done := 0
  detail := 0

/-- A load that a Remount has interrupted at position 0, with 193 B of resource records where the report has room for 192. -/
def overlong : Load where
  job := 0
  image := 0
  length := 0
  dry := false
  report := 0
  stage := 2
  header := []
  digest := []
  records := List.replicate 193 0
  disp := []
  interrupted := some 0

/-- A running engine in the second pass of that load. -/
def interrupted : State :=
  { State.reset with
    pwr := { Power.reset with phase := .running }
    link := [{ LinkModule.reset with state := 2 }, LinkModule.reset]
    jobs := { Jobs.reset with jobs := [loadJob], nextId := 1 }
    img := { Images.reset with load := some overlong } }

theorem reportHead_length (f : LoadFail) (build : Nat) : (reportHead f build []).length = 64 := by
  simp [reportHead, JobEntries.leBytes_length]

theorem loadReport_length (f : LoadFail) (build : Nat) : (loadReport f build [] overlong.records).length = 257 := by
  simp only [loadReport, List.length_append, reportHead_length, overlong, List.length_replicate]

theorem memRead_length (m : List Host.Cell) (a n : Nat) : (memRead m a n).length = n := by simp [memRead]

/-- Refutes O45: the report of an interrupted load has 257 B. -/
theorem not_loadSteps : ¬ Obligations.LoadSteps := by
  unfold Obligations.LoadSteps
  rintro ⟨-, steps⟩
  obtain ⟨-, -, second⟩ := steps 0 none loadJob interrupted rfl rfl rfl
  obtain ⟨-, runs⟩ := second overlong rfl rfl rfl
  obtain ⟨t, -, -, -, -, -, ends, -⟩ := runs (by decide) (by decide)
  obtain ⟨-, -, -, stands⟩ := ends 0 rfl
  have report := congrArg List.length (stands fun enabled => absurd enabled (by decide))
  rw [memRead_length, show overlong.digest = [] from rfl, loadReport_length] at report
  cases report

end Sys2Proof.LoadReports
end

section
/-! PROOFS. What every command keeps: the relation between a state and one that a command leads to, under which every invariant of
the state holds on. -/

-- Each theorem is checked before the next one, which bounds the threads that the compiler takes.
set_option Elab.async false

namespace Sys2Proof.Keeping
open Sys2Proof Sys2Proof.Machine Sys2Proof.Safety Sys2Proof.Laws

/-! ## What the invariants speak of -/

/-- The parts of ShapeOk: the lengths of the lists in effect. -/
@[reducible] def shapeOf (s : State) : List Nat :=
  [s.rings.length, s.snd.channels.length, s.ing.lanes.length, s.gait.sensors.length, s.link.length, s.arr.map.length,
    s.flt.curry.length, s.flt.cycles.length]

/-- What the invariants of a state are about: two states that agree on it meet the same of them. -/
structure Vital where
  live : Staged
  shadow : Staged
  shape : List Nat
  mem : List Host.Cell
  log : List LogEntry
  logHead : Word32
  ack : Word32
  lostAt : Option Word32
  gaits : List Nat
  moving : Bool
  phase : PowerPhase
  warm : Bool
  selected : Nat
  faultN : Bool
  save : Option Save
  words : Sparse TallyWord
  tiles : Sparse Tile
  entRows : Sparse EntityRow
  index : Sparse EntityEntry
  usedRows : List Nat
  buffers : Sparse FeaturePlace
  rowPlaces : List Nat

@[reducible] def vital (s : State) : Vital where
  live := s.live
  shadow := s.shadow
  shape := shapeOf s
  mem := s.mem
  log := s.flt.log
  logHead := s.flt.logHead
  ack := s.flt.ack
  lostAt := s.flt.lostAt
  gaits := [s.gait.now, s.gait.requested, s.gait.ledgerGait, s.gait.thermal]
  moving := s.gait.moving
  phase := s.pwr.phase
  warm := s.pwr.warm
  selected := s.tap.selected
  faultN := s.pins.faultN
  save := s.bag.save
  words := s.tally.words
  tiles := s.tally.tiles
  entRows := s.ent.rows
  index := s.ent.index
  usedRows := s.ent.usedRows
  buffers := s.arr.buffers
  rowPlaces := s.arr.rows.map Prod.fst

/-- Every invariant that holds of one state holds of the other. -/
structure Keeps (s t : State) : Prop where
  mem : Memory.wf s.mem = true → Memory.wf t.mem = true
  log : LogOk s.flt → LogOk t.flt
  gait : GaitOk s.gait → GaitOk t.gait
  pin : PinOk s → PinOk t
  shape : ShapeOk s → ShapeOk t
  stores : StoresOk s → StoresOk t

section
variable {s0 s t : State}

theorem Keeps.refl (s : State) : Keeps s s := ⟨id, id, id, id, id, id⟩

theorem Keeps.trans {u : State} (h : Keeps s t) (k : Keeps t u) : Keeps s u :=
  ⟨k.mem ∘ h.mem, k.log ∘ h.log, k.gait ∘ h.gait, k.pin ∘ h.pin, k.shape ∘ h.shape, k.stores ∘ h.stores⟩

theorem faultAsserted_of_vital (same : vital t = vital s) : t.faultAsserted = s.faultAsserted := by
  have live : t.live = s.live := congrArg Vital.live same
  have log : t.flt.log = s.flt.log := congrArg Vital.log same
  have ack : t.flt.ack = s.flt.ack := congrArg Vital.ack same
  have lostAt : t.flt.lostAt = s.flt.lostAt := congrArg Vital.lostAt same
  rw [State.faultAsserted, State.faultAsserted, live, log, ack, lostAt]

theorem keeps_of_vital (same : vital t = vital s) : Keeps s t where
  mem := by rw [show t.mem = s.mem from congrArg Vital.mem same]; exact id
  log := by
    rw [LogOk, LogOk, show t.flt.log = s.flt.log from congrArg Vital.log same,
      show t.flt.logHead = s.flt.logHead from congrArg Vital.logHead same]
    exact id
  gait := by
    have gaits := congrArg Vital.gaits same
    simp only [List.cons.injEq, and_true] at gaits
    obtain ⟨now, requested, ledgerGait, thermal⟩ := gaits
    rw [GaitOk, GaitOk, now, requested, ledgerGait, thermal, show t.gait.moving = s.gait.moving from congrArg Vital.moving same]
    exact id
  pin := by
    rw [PinOk, PinOk, faultAsserted_of_vital same, show t.tap.selected = s.tap.selected from congrArg Vital.selected same,
      show t.pins.faultN = s.pins.faultN from congrArg Vital.faultN same,
      Power.released, Power.released, show t.pwr.phase = s.pwr.phase from congrArg Vital.phase same,
      show t.pwr.warm = s.pwr.warm from congrArg Vital.warm same]
    exact id
  shape := by
    have shape := congrArg Vital.shape same
    simp only [shapeOf, List.cons.injEq, and_true] at shape
    obtain ⟨rings, channels, lanes, sensors, link, map, curry, cycles⟩ := shape
    rw [ShapeOk, ShapeOk, show t.live = s.live from congrArg Vital.live same, show t.shadow = s.shadow from congrArg Vital.shadow same,
      rings, channels, lanes, sensors, link, map, curry, cycles, show t.bag.save = s.bag.save from congrArg Vital.save same]
    exact id
  stores := by
    rw [StoresOk, StoresOk, show t.tally.words = s.tally.words from congrArg Vital.words same,
      show t.tally.tiles = s.tally.tiles from congrArg Vital.tiles same, show t.ent.rows = s.ent.rows from congrArg Vital.entRows same,
      show t.arr.buffers = s.arr.buffers from congrArg Vital.buffers same, show t.ent.index = s.ent.index from congrArg Vital.index same,
      show t.ent.usedRows = s.ent.usedRows from congrArg Vital.usedRows same, show t.live = s.live from congrArg Vital.live same,
      show t.arr.rows.map Prod.fst = s.arr.rows.map Prod.fst from congrArg Vital.rowPlaces same,
      show t.bag.save = s.bag.save from congrArg Vital.save same]
    exact id

/-- A step on which nothing that the invariants speak of changes. -/
theorem Keeps.step (h : Keeps s0 s) (same : vital t = vital s := by exact rfl) : Keeps s0 t := h.trans (keeps_of_vital same)

/-- The same where the state before the step is left to be found: it is the one that the step takes its package from. -/
theorem Keeps.onto (h : Keeps s0 s) (_ : t.pkg = s.pkg := by with_reducible rfl) (same : vital t = vital s := by with_reducible rfl) :
    Keeps s0 t :=
  h.step same

theorem Keeps.foldl {α : Type} {f : State → α → State} (xs : List α) (h : Keeps s0 s)
    (keeps : ∀ t x, Keeps s0 t → Keeps s0 (f t x)) : Keeps s0 (xs.foldl f s) :=
  List.foldlRecOn (motive := Keeps s0) xs f h fun t kept x _ => keeps t x kept

theorem Keeps.ite {p : Prop} [Decidable p] (yes : Keeps s0 s) (no : Keeps s0 t) : Keeps s0 (if p then s else t) := by
  split
  · exact yes
  · exact no

theorem Keeps.iteDep {p : Prop} [Decidable p] (yes : p → Keeps s0 s) (no : ¬p → Keeps s0 t) : Keeps s0 (if p then s else t) := by
  split
  · next holds => exact yes holds
  · next fails => exact no fails

end
end Sys2Proof.Keeping
end

section
/-! PROOFS. What the stores of the engine keep: the Tally, the entity table, the arrays and a save, each in canonical form through every
operation on it. -/

-- Each theorem is checked before the next one, which bounds the threads that the compiler takes.
set_option Elab.async false

namespace Sys2Proof.KeptStores
open Sys2Proof Sys2Proof.Machine Sys2Proof.Safety Sys2Proof.Laws

/-! ## Sparse stores -/

section
variable {α : Type} {d : α} {m : Sparse α} {k : Nat} {x : α}

/-- Indices strictly rise. -/
def Rising (m : Sparse α) : Prop := (m.map Prod.fst).Pairwise (· < ·)

theorem mem_of_mem_sdel {y : Nat × α} (h : y ∈ sdel m k) : y ∈ m := by
  induction m with
  | nil => exact h
  | cons z m ih =>
    simp only [sdel] at h
    split at h
    · exact (List.mem_cons.mp h).elim (· ▸ List.mem_cons_self) fun h => List.mem_cons_of_mem _ (ih h)
    · split at h
      · exact List.mem_cons_of_mem _ h
      · exact h

theorem mem_of_mem_sput {y : Nat × α} (h : y ∈ sput m k x) : y = (k, x) ∨ y ∈ m := by
  induction m with
  | nil => exact .inl (List.mem_singleton.mp h)
  | cons z m ih =>
    simp only [sput] at h
    split at h
    · rcases List.mem_cons.mp h with rfl | h
      · exact .inr List.mem_cons_self
      · exact (ih h).imp_right (List.mem_cons_of_mem _)
    · split at h
      · exact (List.mem_cons.mp h).imp_right (List.mem_cons_of_mem _)
      · exact List.mem_cons.mp h

theorem mem_of_sget_ne (h : sget d m k ≠ d) : (k, sget d m k) ∈ m := by
  induction m with
  | nil => exact absurd rfl h
  | cons z m ih =>
    obtain ⟨i, y⟩ := z
    simp only [sget] at h ⊢
    split at h
    · next hi => simp [hi]
    · next hi => rw [if_neg hi]; exact List.mem_cons_of_mem _ (ih h)

theorem sdel_sublist : (sdel m k).Sublist m := by
  induction m with
  | nil => exact .slnil
  | cons z m ih =>
    simp only [sdel]
    split
    · exact ih.cons_cons _
    · split
      · exact List.sublist_cons_self _ _
      · exact .refl _

theorem Rising.sdel (h : Rising m) : Rising (sdel m k) := List.Pairwise.sublist (sdel_sublist.map _) h

theorem rising_cons {z : Nat × α} : Rising (z :: m) ↔ (∀ y ∈ m, z.1 < y.1) ∧ Rising m := by
  simp [Rising, List.pairwise_cons]

theorem Rising.sput (h : Rising m) : Rising (sput m k x) := by
  induction m with
  | nil => simp [Rising, Machine.sput]
  | cons z m ih =>
    obtain ⟨i, y⟩ := z
    obtain ⟨above, rising⟩ := rising_cons.mp h
    simp only [Machine.sput]
    split
    · next below =>
      refine rising_cons.mpr ⟨fun y hy => ?_, ih rising⟩
      rcases mem_of_mem_sput hy with rfl | hy
      · exact below
      · exact above y hy
    · split
      · next same => exact rising_cons.mpr ⟨fun y hy => same ▸ above y hy, rising⟩
      · next below differ =>
        refine rising_cons.mpr ⟨fun y hy => ?_, h⟩
        rcases List.mem_cons.mp hy with rfl | hy
        · show k < i; omega
        · have := above y hy; show k < y.1; simp only at this; omega

theorem Rising.filter {p : Nat × α → Bool} (h : Rising m) : Rising (m.filter p) := List.Pairwise.sublist (List.filter_sublist.map _) h

theorem Rising.map {f : Nat × α → Nat × α} (h : Rising m) (hf : ∀ y, (f y).1 = y.1) : Rising (m.map f) := by
  have same : (m.map f).map Prod.fst = m.map Prod.fst := by simp [hf]
  rw [Rising, same]
  exact h

variable [DecidableEq α]

theorem Rising.sset (h : Rising m) : Rising (sset d m k x) := by
  unfold Machine.sset
  split
  · exact h.sdel
  · exact h.sput

theorem mem_of_mem_sset {y : Nat × α} (h : y ∈ sset d m k x) : y = (k, x) ∨ y ∈ m := by
  unfold sset at h
  split at h
  · exact .inr (mem_of_mem_sdel h)
  · exact mem_of_mem_sput h

theorem mem_of_mem_smod {f : α → α} {y : Nat × α} (h : y ∈ smod d m k f) : y = (k, f (sget d m k)) ∨ y ∈ m := mem_of_mem_sset h

theorem sparseFrom_iff {lo : Nat} : sparseFrom d lo m = true ↔ (∀ y ∈ m, lo ≤ y.1 ∧ y.2 ≠ d) ∧ Rising m := by
  induction m generalizing lo with
  | nil => simp [sparseFrom, Rising]
  | cons z m ih =>
    simp only [sparseFrom, Bool.and_eq_true, decide_eq_true_eq, ih, rising_cons, List.forall_mem_cons]
    constructor
    · rintro ⟨⟨bound, value⟩, items, rising⟩
      exact ⟨⟨⟨bound, value⟩, fun y hy => ⟨by have := (items y hy).1; omega, (items y hy).2⟩⟩, fun y hy => (items y hy).1, rising⟩
    · rintro ⟨⟨⟨bound, value⟩, items⟩, above, rising⟩
      exact ⟨⟨bound, value⟩, fun y hy => ⟨above y hy, (items y hy).2⟩, rising⟩

theorem sparseOk_iff : sparseOk d m = true ↔ (∀ y ∈ m, y.2 ≠ d) ∧ Rising m := by
  simp [sparseOk, sparseFrom_iff]

theorem sparseOk_filter {p : Nat × α → Bool} (h : sparseOk d m = true) : sparseOk d (m.filter p) = true := by
  obtain ⟨values, rising⟩ := sparseOk_iff.mp h
  exact sparseOk_iff.mpr ⟨fun y hy => values y (List.mem_of_mem_filter hy), rising.filter⟩

/-- A store with each item replaced in its place, and those that became the default left out. -/
theorem sparseOk_map_filter {f : Nat × α → Nat × α} (h : sparseOk d m = true) (hf : ∀ y, (f y).1 = y.1) :
    sparseOk d ((m.map f).filter (fun y => y.2 != d)) = true :=
  sparseOk_iff.mpr ⟨fun y hy => by simpa using (List.mem_filter.mp hy).2, ((sparseOk_iff.mp h).2.map hf).filter⟩

end

/-! ## The Tally and a save -/

/-- The Tally's part of StoresOk. -/
def TallyOk (x : Tally) : Prop := sparseOk TallyWord.reset x.words = true ∧ sparseOk Tile.reset x.tiles = true

/-- The part of a save of StoresOk. -/
def SaveOk (x : Option Save) : Prop := ∀ sv, x = some sv → sparseOk TallyWord.reset sv.words = true ∧ sparseOk Tile.reset sv.tiles = true

section
variable {x : Tally} {w : Nat}

theorem TallyOk.word {v : TallyWord} (h : TallyOk x) : TallyOk { x with words := sset TallyWord.reset x.words w v } :=
  ⟨sparseOk_sset h.1, h.2⟩

theorem TallyOk.modWord {f : TallyWord → TallyWord} (h : TallyOk x) : TallyOk { x with words := smod TallyWord.reset x.words w f } :=
  ⟨sparseOk_smod h.1, h.2⟩

theorem TallyOk.tile {f : Tile → Tile} (h : TallyOk x) : TallyOk { x with tiles := smod Tile.reset x.tiles w f } :=
  ⟨h.1, sparseOk_smod h.2⟩

theorem TallyOk.restored {sv : Save} {kept : Bool} (h : TallyOk x)
    (saved : sparseOk TallyWord.reset sv.words = true ∧ sparseOk Tile.reset sv.tiles = true) : TallyOk (x.restored sv kept) := by
  constructor
  · show sparseOk _ (if kept = true then x.words else sv.words) = true
    split
    · exact h.1
    · exact saved.1
  · refine sparseOk_map_filter saved.2 fun y => ?_
    split <;> rfl

end

/-! ## The arrays -/

/-- The part of the arrays of StoresOk. -/
def ArrOk (a : Arrays) : Prop := sparseOk FeaturePlace.empty a.buffers = true ∧ Rising a.rows

/-- An operation on the arrays that keeps their stores in form, and the number of positions. -/
structure ArrKeeps (a b : Arrays) : Prop where
  stores : ArrOk a → ArrOk b
  map : b.map.length = a.map.length

section
variable {a0 a : Arrays} {phys bank r pos place : Nat} {plane : Bool}

theorem ArrKeeps.refl (a : Arrays) : ArrKeeps a a := ⟨id, rfl⟩

theorem ArrKeeps.trans {b : Arrays} (h : ArrKeeps a0 a) (k : ArrKeeps a b) : ArrKeeps a0 b := ⟨k.stores ∘ h.stores, k.map.trans h.map⟩

/-- A step that changes neither rows, nor buffers, nor the map of positions. -/
theorem ArrKeeps.step {b : Arrays} (h : ArrKeeps a0 a) (rows : b.rows = a.rows) (buffers : b.buffers = a.buffers) (map : b.map = a.map) :
    ArrKeeps a0 b :=
  ⟨fun ok => ⟨buffers ▸ (h.stores ok).1, rows ▸ (h.stores ok).2⟩, map ▸ h.map⟩

theorem ArrKeeps.foldl {β : Type} {f : Arrays → β → Arrays} (xs : List β) (h : ArrKeeps a0 a)
    (keeps : ∀ b x, ArrKeeps a0 b → ArrKeeps a0 (f b x)) : ArrKeeps a0 (xs.foldl f a) :=
  List.foldlRecOn (motive := ArrKeeps a0) xs f h fun b kept x _ => keeps b x kept

theorem ArrKeeps.putRow {x : BridgeRow} (h : ArrKeeps a0 a) : ArrKeeps a0 (a.putRow phys bank r x) :=
  h.trans ⟨fun ok => ⟨ok.1, ok.2.sset⟩, rfl⟩

theorem ArrKeeps.dropRow (h : ArrKeeps a0 a) : ArrKeeps a0 (a.dropRow phys bank r) := ArrKeeps.putRow h

theorem ArrKeeps.placeRows {rows : List BridgeRow} (h : ArrKeeps a0 a) : ArrKeeps a0 (a.placeRows phys bank rows) := by
  unfold Arrays.placeRows
  dsimp only
  exact ArrKeeps.foldl _ h fun _ _ => ArrKeeps.putRow

theorem ArrKeeps.putBuffer {x : FeaturePlace} (h : ArrKeeps a0 a) : ArrKeeps a0 (a.putBuffer phys place x) :=
  h.trans ⟨fun ok => ⟨sparseOk_sset ok.1, ok.2⟩, rfl⟩

theorem ArrKeeps.load {x : FeaturePlace} (h : ArrKeeps a0 a) : ArrKeeps a0 (a.load phys x) :=
  (ArrKeeps.putBuffer (place := a.loadPlace phys) (x := x) h).step rfl rfl rfl

theorem ArrKeeps.disturb {u : Upset} (h : ArrKeeps a0 a) : ArrKeeps a0 (a.disturb u) := by
  refine h.trans ⟨fun ok => ?_, ?_⟩
  · cases u with
    | rowBit p k r b => exact ⟨ok.1, ok.2.sset⟩
    | featureBuffer p x w b => exact ⟨by simpa only [Arrays.disturb] using sparseOk_smod ok.1, ok.2⟩
    | _ => exact ok
  · cases u <;> rfl

/-- Rows changed each in its place. -/
theorem ArrKeeps.mapRows {f : Nat × BridgeRow → Nat × BridgeRow} (h : ArrKeeps a0 a) (hf : ∀ y, (f y).1 = y.1) :
    ArrKeeps a0 { a with rows := a.rows.map f } :=
  h.trans ⟨fun ok => ⟨ok.1, ok.2.map hf⟩, rfl⟩

theorem ArrKeeps.clearPlane (h : ArrKeeps a0 a) : ArrKeeps a0 (a.clearPlane pos phys plane) := by
  unfold Arrays.clearPlane
  dsimp only
  refine (ArrKeeps.mapRows (f := _) h fun y => ?_).step rfl rfl rfl
  split <;> rfl

theorem ArrKeeps.leave {slot : Nat} {x : Home} (h : ArrKeeps a0 a) : ArrKeeps a0 (a.leave phys plane slot x) := by
  unfold Arrays.leave
  dsimp only
  refine (ArrKeeps.mapRows (f := _) h fun y => ?_).step rfl rfl rfl
  split <;> rfl

theorem ArrKeeps.writeCell {x : SlotWrite} {c : Nat} (h : ArrKeeps a0 a) : ArrKeeps a0 (a.writeCell x c) := by
  unfold Arrays.writeCell
  dsimp only
  split <;> exact h.step rfl rfl rfl

theorem ArrKeeps.writeSlot {x : SlotWrite} (h : ArrKeeps a0 a) : ArrKeeps a0 (a.writeSlot x) := by
  unfold Arrays.writeSlot
  dsimp only
  exact ArrKeeps.foldl _ (h.step rfl rfl rfl) fun _ _ => ArrKeeps.writeCell

theorem ArrKeeps.writeScales {ms : List ModelDef} (h : ArrKeeps a0 a) : ArrKeeps a0 (a.writeScales phys plane ms) := by
  unfold Arrays.writeScales
  dsimp only
  refine ArrKeeps.foldl _ h fun b x kept => ?_
  split
  · exact kept
  · split
    · exact kept
    · exact kept.step rfl rfl rfl

theorem ArrKeeps.settleSlot {x : Home × Content} {slot : Nat} (h : ArrKeeps a0 a) : ArrKeeps a0 (a.settleSlot x pos plane slot phys) := by
  unfold Arrays.settleSlot
  exact ArrKeeps.writeScales (ArrKeeps.placeRows (ArrKeeps.writeSlot h))

theorem ArrKeeps.fill {img : Image} {rows : List ImageRow} {half base size : Nat} (h : ArrKeeps a0 a) :
    ArrKeeps a0 (a.fill img rows half base size plane pos phys) := by
  unfold Arrays.fill
  dsimp only
  refine ArrKeeps.foldl _ ?_ fun _ _ => ArrKeeps.writeScales
  refine ArrKeeps.foldl _ ?_ fun _ _ => ArrKeeps.placeRows
  refine ArrKeeps.foldl _ ?_ fun _ _ => ArrKeeps.writeSlot
  exact ArrKeeps.foldl _ h fun _ _ kept => kept.step rfl rfl rfl

theorem arrOk_emptied : ArrOk a.emptied := ⟨rfl, List.Pairwise.nil⟩

theorem arrOk_persistent : ArrOk a.persistent := ⟨rfl, List.Pairwise.nil⟩

end

/-! ## The entity table -/

/-- The entity table's part of StoresOk, with n row places. -/
structure EntOk (n : Nat) (e : Entities) : Prop where
  rows : sparseOk EntityRow.missing e.rows = true
  rising : Rising e.index
  places : ∀ x ∈ e.index, x.1 < 131072
  indexRows : ∀ x ∈ e.index, x.2.row < n
  overflowRows : ∀ b ∈ e.overflow, ∀ x ∈ b.2.entries, x.2.row < n
  strandedRows : ∀ x ∈ e.stranded, x.row < n
  newRows : ∀ j, e.job = some j → ∀ r ∈ j.newRows, r < n

section
variable {n b r : Nat} {e : Entities} {k : Word} {x : EntityEntry}

theorem usedRows_below_iff : (∀ r ∈ e.usedRows, r < n) ↔ (∀ x ∈ e.index, x.2.row < n) ∧ (∀ b ∈ e.overflow, ∀ x ∈ b.2.entries, x.2.row <
    n) ∧
    (∀ x ∈ e.stranded, x.row < n) ∧ ∀ j, e.job = some j → ∀ r ∈ j.newRows, r < n := by
  unfold Entities.usedRows
  rcases e.job with - | j <;> simp only [List.forall_mem_append, List.forall_mem_map, List.forall_mem_flatMap] <;> simp <;> tauto

theorem entOk_iff : EntOk n e ↔ sparseOk EntityRow.missing e.rows = true ∧ (e.index.map Prod.fst).Pairwise (· < ·) ∧
    (∀ x ∈ e.index, x.1 < 131072) ∧ ∀ r ∈ e.usedRows, r < n := by
  rw [usedRows_below_iff]
  exact ⟨fun ⟨a, b, c, d, f, g, h⟩ => ⟨a, b, c, d, f, g, h⟩, fun ⟨a, b, c, d, f, g, h⟩ => ⟨a, b, c, d, f, g, h⟩⟩

theorem lowestFree_lt {used : List Nat} (h : lowestFree n used = some r) : r < n :=
  List.mem_range.mp (List.mem_of_find?_eq_some h)

theorem bucket_rows_below (h : EntOk n e) (j : Nat) : ∀ x ∈ (sget Bucket.empty e.overflow j).entries, x.2.row < n := by
  by_cases listed : sget Bucket.empty e.overflow j = Bucket.empty
  · rw [listed]; exact fun x hx => absurd hx List.not_mem_nil
  · exact h.overflowRows _ (mem_of_sget_ne listed)

theorem EntOk.modBucket {f : Bucket → Bucket} (h : EntOk n e) (j : Nat)
    (hf : ∀ x ∈ (f (sget Bucket.empty e.overflow j)).entries, x.2.row < n) :
    EntOk n { e with overflow := smod Bucket.empty e.overflow j f } :=
  { h with overflowRows := fun b hb => (mem_of_mem_smod hb).elim (fun eq => by rw [eq]; exact hf) (h.overflowRows b) }

theorem EntOk.putIndex (h : EntOk n e) {i : Nat} (place : i < 131072) (row : x.row < n) : EntOk n { e with index := sput e.index i x } :=
  { h with
    rising := h.rising.sput
    places := fun y hy => (mem_of_mem_sput hy).elim (fun eq => by rw [eq]; exact place) (h.places y)
    indexRows := fun y hy => (mem_of_mem_sput hy).elim (fun eq => by rw [eq]; exact row) (h.indexRows y) }

theorem EntOk.dropIndex (h : EntOk n e) (i : Nat) : EntOk n { e with index := sdel e.index i } :=
  { h with
    rising := h.rising.sdel
    places := fun y hy => h.places y (mem_of_mem_sdel hy)
    indexRows := fun y hy => h.indexRows y (mem_of_mem_sdel hy) }

theorem EntOk.setRow (h : EntOk n e) (i : Nat) (row : EntityRow) : EntOk n { e with rows := sset EntityRow.missing e.rows i row } :=
  { h with rows := sparseOk_sset h.rows }

theorem EntOk.addPassed (h : EntOk n e) (js : List Nat) (f : Nat → Nat) : EntOk n (e.addPassed js f) := by
  unfold Entities.addPassed
  exact List.foldlRecOn (motive := EntOk n) js _ h fun t kept j _ => kept.modBucket j (bucket_rows_below kept j)

theorem EntOk.placeIndex (h : EntOk n e) (row : x.row < n) {e1 : Entities} (placed : e.placeIndex x = some e1) : EntOk n e1 := by
  unfold Entities.placeIndex at placed
  split at placed
  · cases placed
  · next i free =>
    cases placed
    exact h.putIndex (lowestFree_lt free) row

theorem EntOk.placeOverflow (h : EntOk n e) (row : x.row < n) {e1 : Entities} (placed : e.placeOverflow b x = some e1) : EntOk n e1 := by
  unfold Entities.placeOverflow at placed
  split at placed
  · cases placed
  · split at placed
    · cases placed
    · next _ before j i _ =>
      cases placed
      have passed := h.addPassed before (· + 1)
      refine passed.modBucket _ fun y hy => ?_
      rcases mem_of_mem_sput hy with rfl | hy
      · exact row
      · exact bucket_rows_below passed _ y hy

theorem EntOk.place (h : EntOk n e) (row : x.row < n) {at_ : Nat} {e1 : Entities} (placed : e.place b at_ x = some e1) : EntOk n e1 := by
  unfold Entities.place at placed
  split at placed
  · exact h.placeIndex row placed
  · split at placed
    · exact h.placeOverflow row placed
    · split at placed
      · next inIndex => cases placed; exact h.placeIndex row inIndex
      · exact h.placeOverflow row placed

theorem mem_of_index_find? {i : Nat} (h : e.index.find? (fun y => y.2.key == k) = some (i, x)) : (i, x) ∈ e.index :=
    List.mem_of_find?_eq_some h

theorem probeLookup_row (h : EntOk n e) {js : List Nat} {at_ : KeyPlace} (found : e.probeLookup k js = .found at_ x) : x.row < n := by
  induction js with
  | nil => cases found
  | cons j js ih =>
    simp only [Entities.probeLookup] at found
    split at found
    · cases found
    · split at found
      · next inBucket =>
        cases found
        exact bucket_rows_below h j _ (List.mem_of_find?_eq_some inBucket)
      · split at found
        · cases found
        · exact ih found

theorem lookup_row (h : EntOk n e) {at_ : KeyPlace} (found : e.lookup b k = .found at_ x) : x.row < n := by
  unfold Entities.lookup at found
  split at found
  · next inIndex => cases found; exact h.indexRows _ (mem_of_index_find? inIndex)
  · split at found
    · next inStore => cases found; exact h.strandedRows _ (List.mem_of_find?_eq_some inStore)
    · split at found
      · cases found
      · exact probeLookup_row h found

theorem probeLookup_overflow {js : List Nat} {at_ : KeyPlace} (found : e.probeLookup k js = .found at_ x) : ∃ j i, at_ = .overflow j i :=
    by
  induction js with
  | nil => cases found
  | cons j js ih =>
    simp only [Entities.probeLookup] at found
    split at found
    · cases found
    · split at found
      · cases found; exact ⟨_, _, rfl⟩
      · split at found
        · cases found
        · exact ih found

theorem lookup_index_mem {i : Nat} (found : e.lookup b k = .found (.index i) x) : (i, x) ∈ e.index := by
  unfold Entities.lookup at found
  split at found
  · next inIndex => cases found; exact mem_of_index_find? inIndex
  · split at found
    · cases found
    · split at found
      · cases found
      · obtain ⟨j, i, at_⟩ := probeLookup_overflow found
        cases at_

theorem EntOk.remove (h : EntOk n e) : EntOk n (e.remove b k) := by
  unfold Entities.remove
  split
  · exact h.dropIndex _
  · exact { h with strandedRows := fun y hy => h.strandedRows y (List.mem_of_mem_filter hy) }
  · next j i _ _ =>
    have passed := h.addPassed ((probe k b).takeWhile (· != j)) (· - 1)
    exact passed.modBucket _ fun y hy => bucket_rows_below passed _ y (mem_of_mem_sdel hy)
  · exact h

theorem EntOk.modEntry {f : EntityEntry → EntityEntry} (h : EntOk n e) (hf : ∀ y, y.row < n → (f y).row < n) : EntOk n (e.modEntry b k f)
    := by
  unfold Entities.modEntry
  split
  · next found =>
    have listed := lookup_index_mem found
    exact h.putIndex (h.places _ listed) (hf _ (h.indexRows _ listed))
  · refine { h with strandedRows := List.forall_mem_map.mpr fun y hy => ?_ }
    split
    · exact hf y (h.strandedRows y hy)
    · exact h.strandedRows y hy
  · next found =>
    refine h.modBucket _ fun y hy => ?_
    rcases mem_of_mem_sput hy with rfl | hy
    · exact hf _ (lookup_row h found)
    · exact bucket_rows_below h _ y hy
  · exact h

theorem EntOk.forgetLost (h : EntOk n e) {u : UpdateEntry} : EntOk n (e.forgetLost u) := by
  unfold Entities.forgetLost
  split
  · exact h
  · exact { h with }

theorem EntOk.noJob (h : EntOk n e) : EntOk n { e with job := none } := { h with newRows := fun _ hj => by cases hj }

end

theorem storesOk_iff (s : State) :
    StoresOk s ↔ TallyOk s.tally ∧ EntOk (s.live.entRows + 256) s.ent ∧ ArrOk s.arr ∧ SaveOk s.bag.save := by
  rw [entOk_iff]
  exact ⟨fun ⟨a, b, c, d, e, f, g, h, i⟩ => ⟨⟨a, b⟩, ⟨c, e, f, g⟩, ⟨d, h⟩, i⟩,
    fun ⟨⟨a, b⟩, ⟨c, e, f, g⟩, ⟨d, h⟩, i⟩ => ⟨a, b, c, d, e, f, g, h, i⟩⟩

end Sys2Proof.KeptStores
end

section
/-! PROOFS. Every operation on the state keeps what the invariants say. -/

-- Each theorem is checked before the next one, which bounds the threads that the compiler takes.
set_option Elab.async false

namespace Sys2Proof.Keeping
open Sys2Proof Sys2Proof.Machine Sys2Proof.Safety Sys2Proof.Laws Sys2Proof.KeptStores

/-! ## An update of some parts -/

def StagedShape (c : Staged) : Prop := c.rings.length = 64 ∧ c.snd.length = 64 ∧ c.expect.length = 4

/-- What the invariants but PinOk say of a state holds of the other. -/
structure Forms (s t : State) : Prop where
  mem : Memory.wf s.mem = true → Memory.wf t.mem = true
  log : LogOk s.flt → LogOk t.flt
  gait : GaitOk s.gait → GaitOk t.gait
  shape : ShapeOk s → ShapeOk t
  stores : StoresOk s → StoresOk t

/-- The numbers of rings, channels, lanes, sensors, modules, positions and arrays. -/
def lengths : List Nat := [64, 64, 8, 8, 2, 32, 34, 34]

/-- An update, part by part: what the invariants but PinOk say of a part that it leaves alone holds of itself. -/
structure Moves (s t : State) : Prop where
  live : t.live = s.live := by with_reducible rfl
  shadow : StagedShape s.shadow → StagedShape t.shadow := by with_reducible exact id
  shape : shapeOf s = lengths → shapeOf t = lengths := by with_reducible exact id
  mem : Memory.wf s.mem = true → Memory.wf t.mem = true := by with_reducible exact id
  log : LogOk s.flt → LogOk t.flt := by with_reducible exact id
  gait : GaitOk s.gait → GaitOk t.gait := by with_reducible exact id
  tally : TallyOk s.tally → TallyOk t.tally := by with_reducible exact id
  ent : EntOk (s.live.entRows + 256) s.ent → EntOk (s.live.entRows + 256) t.ent := by with_reducible exact id
  arr : ArrOk s.arr → ArrOk t.arr := by with_reducible exact id
  save : t.bag.save = s.bag.save := by with_reducible rfl

/-- What SFD_FAULT_N depends on. -/
@[reducible] def pinOf (s : State) : Staged × List LogEntry × Word32 × Option Word32 × Nat × Bool × PowerPhase × Bool :=
  (s.live, s.flt.log, s.flt.ack, s.flt.lostAt, s.tap.selected, s.pins.faultN, s.pwr.phase, s.pwr.warm)

theorem pinOk_of_same {s t : State} (same : pinOf t = pinOf s) : PinOk s → PinOk t := by
  simp only [pinOf, Prod.mk.injEq] at same
  obtain ⟨live, log, ack, lostAt, selected, faultN, phase, warm⟩ := same
  simp only [PinOk, Power.released, State.faultAsserted, live, log, ack, lostAt, selected, faultN, phase, warm]
  exact id

theorem pinOk_refreshFault (s : State) : PinOk s.refreshFault := by
  unfold State.refreshFault
  split
  · next extest => exact .inl extest
  · exact .inr rfl

section
variable {s0 s t : State}

theorem Keeps.forms (h : Keeps s0 s) : Forms s0 s := ⟨h.mem, h.log, h.gait, h.shape, h.stores⟩

theorem Forms.trans (h : Forms s0 s) (k : Forms s t) : Forms s0 t :=
  ⟨k.mem ∘ h.mem, k.log ∘ h.log, k.gait ∘ h.gait, k.shape ∘ h.shape, k.stores ∘ h.stores⟩

theorem Forms.keeps (h : Forms s0 s) (pin : PinOk s) : Keeps s0 s := ⟨h.mem, h.log, h.gait, fun _ => pin, h.shape, h.stores⟩

theorem forms_of_moves (m : Moves s t) : Forms s t := by
  refine ⟨m.mem, m.log, m.gait, fun ok => ?_, fun ok => ?_⟩
  · obtain ⟨live, shadow, rings, channels, lanes, sensors, link, map, curry, cycles, save⟩ := ok
    have shape := m.shape (by simp only [shapeOf, lengths, rings, channels, lanes, sensors, link, map, curry, cycles])
    simp only [shapeOf, lengths, List.cons.injEq, and_true] at shape
    obtain ⟨r, c, l, se, li, ma, cu, cy⟩ := shape
    exact ⟨m.live ▸ live, m.shadow shadow, r, c, l, se, li, ma, cu, cy, m.save ▸ save⟩
  · obtain ⟨tally, ent, arr, save⟩ := (storesOk_iff s).mp ok
    exact (storesOk_iff t).mpr ⟨m.tally tally, m.live ▸ m.ent ent, m.arr arr, m.save ▸ save⟩

theorem Forms.moves (h : Forms s0 s) (m : Moves s t) : Forms s0 t := h.trans (forms_of_moves m)

theorem Keeps.moves (h : Keeps s0 s) (m : Moves s t) (pin : pinOf t = pinOf s := by with_reducible rfl) : Keeps s0 t :=
  have forms := forms_of_moves m
  h.trans ⟨forms.mem, forms.log, forms.gait, pinOk_of_same pin, forms.shape, forms.stores⟩

/-- R432: SFD_FAULT_N is right once it is refreshed. -/
theorem Forms.refreshFault (h : Forms s0 s) : Keeps s0 s.refreshFault := by
  refine (h.trans ?_).keeps (pinOk_refreshFault s)
  unfold State.refreshFault
  split
  · exact (Keeps.refl s).forms
  · exact forms_of_moves {}

/-- A changed entity table, whose form may rest on what the stores of the first state say. -/
theorem Keeps.entMoves {e : Entities} (h : Keeps s0 s)
    (ent : StoresOk s0 → EntOk (s.live.entRows + 256) s.ent → EntOk (s.live.entRows + 256) e) : Keeps s0 { s with ent := e } :=
  ⟨h.mem, h.log, h.gait, h.pin, h.shape, fun ok =>
    have ⟨tally, table, arr, save⟩ := (storesOk_iff s).mp (h.stores ok)
    (storesOk_iff _).mpr ⟨tally, ent ok table, arr, save⟩⟩

theorem arr_keeps {a : Arrays} (h : Keeps s0 s) (k : ArrKeeps s.arr a) : Keeps s0 { s with arr := a } :=
  h.moves { arr := k.stores, shape := by simp only [shapeOf, k.map]; exact id }

theorem modJob_keeps {s : State} {x1 : Nat} {x2 : Job → Job} (h : Keeps s0 s) : Keeps s0 (State.modJob s x1 x2) := h.step

theorem modTile_keeps {s : State} {x1 : Nat} {x2 : Tile → Tile} (h : Keeps s0 s) : Keeps s0 (State.modTile s x1 x2) := by
  unfold State.modTile
  exact h.moves { tally := TallyOk.tile }

theorem releaseTiles_keeps {s : State} {x1 : Job} (h : Keeps s0 s) : Keeps s0 (State.releaseTiles s x1) := .ite (modJob_keeps
    (Keeps.foldl _ h fun _ _ kept => modTile_keeps kept)) h

theorem dropJobs_keeps {s : State} {x1 : Job → Bool} (h : Keeps s0 s) : Keeps s0 (State.dropJobs s x1) := (Keeps.foldl _ h fun _ _ kept
    => releaseTiles_keeps kept).step

theorem freeContexts_keeps {s : State} (h : Keeps s0 s) : Keeps s0 (State.freeContexts s) := h.step

theorem send_keeps {s : State} {x1 : Message} (h : Keeps s0 s) : Keeps s0 (State.send s x1) := h.step

theorem notifyIf_keeps {s : State} {x1 : Nat} {x2 : Nat} (h : Keeps s0 s) : Keeps s0 (State.notifyIf s x1 x2) := .ite (send_keeps h) h

theorem refreshHeld_keeps {s : State} (h : Keeps s0 s) : Keeps s0 (State.refreshHeld s) := .ite (notifyIf_keeps (h.step)) (h.step)

theorem abandon_keeps {s : State}  (h : Keeps s0 s) : Keeps s0 (State.abandon s) := by
  unfold State.abandon
  refine freeContexts_keeps (refreshHeld_keeps ((dropJobs_keeps h).moves
    { shape := by simp only [shapeOf, List.length_map]; exact id, tally := fun ok => ok }))

theorem modStream_keeps {s : State} {x1 : Nat} {x2 : Stream → Stream} (h : Keeps s0 s) : Keeps s0 (State.modStream s x1 x2) := h.step

theorem accept_keeps {s : State} {x1 : WindowRecord} {x2 : Nat} {x3 : Option Nat} (h : Keeps s0 s) : Keeps s0 (State.accept s x1 x2 x3)
    := modStream_keeps (h.step)

theorem write_keeps {s : State} {x1 : Nat} {x2 : List Byte} (h : Keeps s0 s) : Keeps s0 (State.write s x1 x2) := by
  unfold State.write
  exact h.moves { mem := memWrite_wf _ _ }

theorem rereadRow_keeps {s : State} {x1 : Nat} {x2 : List Byte} (h : Keeps s0 s) : Keeps s0 (State.rereadRow s x1 x2) := by
  unfold State.rereadRow
  split
  · dsimp only
    split
    · exact h
    · exact (write_keeps h).moves { ent := fun e => e.setRow _ _ }
  · exact h

theorem pageWrite_keeps {s : State} {x1 : Nat} {x2 : Nat} {x3 : Nat} {x4 : List Byte} (h : Keeps s0 s) : Keeps s0 (State.pageWrite s x1
    x2 x3 x4) := by
  unfold State.pageWrite
  split
  · exact write_keeps (write_keeps h)

theorem pagesWrite_keeps {s : State} {x1 : Nat} {x2 : Nat} {x3 : Nat} {x4 : Nat} {x5 : List Byte} (h : Keeps s0 s) : Keeps s0
    (State.pagesWrite s x1 x2 x3 x4 x5) := by
  induction x3 generalizing s x4 x5 with
  | zero => exact h
  | succ n ih => exact ih (pageWrite_keeps h)

theorem shelterWrite_keeps {s : State} {x1 : Nat} {x2 : Nat} {x3 : Nat} {x4 : List Byte} (h : Keeps s0 s) : Keeps s0 (State.shelterWrite
    s x1 x2 x3 x4) := pagesWrite_keeps h

theorem writeBack_keeps {s : State} {x1 : Nat} {x2 : List Byte} (h : Keeps s0 s) : Keeps s0 (State.writeBack s x1 x2) := by
  unfold State.writeBack
  split
  · exact h
  · exact shelterWrite_keeps h

theorem mendCopy_keeps {s : State} {x1 : Nat} {x2 : List Byte} (h : Keeps s0 s) : Keeps s0 (State.mendCopy s x1 x2) := by
  unfold State.mendCopy
  split
  · exact h
  · exact writeBack_keeps (h.step)

theorem acceptLine_keeps {s : State} {x1 : Nat} {x2 : List Byte} (h : Keeps s0 s) : Keeps s0 (State.acceptLine s x1 x2) := mendCopy_keeps
    ((write_keeps (rereadRow_keeps h)).step)

theorem refreshFault_keeps {s : State}  (h : Keeps s0 s) : Keeps s0 (State.refreshFault s) := h.forms.refreshFault

theorem ackFaults_keeps {s : State} {x1 : Word32} (h : Keeps s0 s) : Keeps s0 (State.ackFaults s x1) := by
  unfold State.ackFaults
  dsimp only
  split
  · exact h
  · exact Forms.refreshFault (h.forms.moves { log := fun ok => ok })

theorem clearTiles_keeps {s : State} {x1 : Nat} {x2 : Nat} (h : Keeps s0 s) : Keeps s0 (State.clearTiles s x1 x2) := by
  unfold State.clearTiles
  dsimp only
  exact Keeps.foldl _ (h.moves { tally := fun ok => ⟨sparseOk_filter ok.1, ok.2⟩ }) fun _ _ kept => modTile_keeps kept

theorem acquireTiles_keeps {s : State} {x1 : Job} (h : Keeps s0 s) : Keeps s0 (State.acquireTiles s x1) := .ite (Keeps.foldl _ (.ite
    (clearTiles_keeps h) h) fun _ _ kept => modTile_keeps kept) h

theorem addBadGen_keeps {s : State} (h : Keeps s0 s) : Keeps s0 (State.addBadGen s) := h.step

theorem addDiscard_keeps {s : State} {x1 : Nat} (h : Keeps s0 s) : Keeps s0 (State.addDiscard s x1) := modStream_keeps h

theorem addHdrErr_keeps {s : State} (h : Keeps s0 s) : Keeps s0 (State.addHdrErr s) := h.step

theorem addUnrouted_keeps {s : State} (h : Keeps s0 s) : Keeps s0 (State.addUnrouted s) := h.step

theorem modGroup_keeps {s : State} {x1 : Nat} {x2 : Group → Group} (h : Keeps s0 s) : Keeps s0 (State.modGroup s x1 x2) := h.step

theorem fillPosition_keeps {s : State} {x1 : Nat} {x2 : Nat} {x3 : Group → Nat} (h : Keeps s0 s) : Keeps s0 (State.fillPosition s x1 x2
    x3) := by
  unfold State.fillPosition
  dsimp only
  refine Keeps.foldl _ h fun t g kept => ?_
  split
  · exact kept
  · refine arr_keeps kept (ArrKeeps.foldl _ ?_ fun _ _ kept => ArrKeeps.fill kept)
    exact (ArrKeeps.foldl _ (ArrKeeps.refl _) fun _ _ kept => ArrKeeps.clearPlane kept).step rfl rfl rfl

theorem refill_keeps {s : State} {x1 : Group} {x2 : Nat} (h : Keeps s0 s) : Keeps s0 (State.refill s x1 x2) := Keeps.foldl _
    (modGroup_keeps h) fun _ _ kept => fillPosition_keeps kept

theorem advanceGen_keeps {s : State} {x1 : Nat} (h : Keeps s0 s) : Keeps s0 (State.advanceGen s x1) := by
  unfold State.advanceGen
  split
  · exact h
  · exact .ite h (.ite h (refill_keeps h))

theorem advanceGens_keeps {s : State} (h : Keeps s0 s) : Keeps s0 (State.advanceGens s) := Keeps.foldl _ h fun _ _ kept =>
    advanceGen_keeps kept

theorem advanceRelease_keeps {s : State} {x1 : Nat} {x2 : Nat} (h : Keeps s0 s) : Keeps s0 (State.advanceRelease s x1 x2) := by
  induction x2 generalizing s with
  | zero => exact h
  | succ n ih =>
    unfold State.advanceRelease
    dsimp only
    split
    · exact h
    · exact ih (modStream_keeps (h.step))

theorem modRing_keeps {s : State} {x1 : Nat} {x2 : Ring → Ring} (h : Keeps s0 s) : Keeps s0 (State.modRing s x1 x2) := by
  unfold State.modRing
  exact h.moves { shape := by simp only [shapeOf, List.length_modify]; exact id }

theorem announceRing_keeps {s : State} {x1 : Nat} (h : Keeps s0 s) : Keeps s0 (State.announceRing s x1) := .ite (send_keeps
    (modRing_keeps h)) h

theorem Forms.announceStart {s : State} (h : Forms s0 s) : Keeps s0 s.announceStart :=
  send_keeps (send_keeps (refreshHeld_keeps h.refreshFault))

theorem announceStart_keeps {s : State} (h : Keeps s0 s) : Keeps s0 (State.announceStart s) := h.forms.announceStart

theorem copyWrite_keeps {s : State} {x1 : Nat} {x2 : List Byte} (h : Keeps s0 s) : Keeps s0 (State.copyWrite s x1 x2) := .ite
    (shelterWrite_keeps (shelterWrite_keeps h)) (shelterWrite_keeps h)

theorem copyJournal_keeps {s : State} {x1 : Bool} {x2 : Nat} {x3 : Nat} {x4 : List JournalEntry} (h : Keeps s0 s) : Keeps s0
    (State.copyJournal s x1 x2 x3 x4) := .ite h (copyWrite_keeps h)

theorem appendJournal_keeps {s : State} {x1 : Group} {x2 : List JournalEntry} (h : Keeps s0 s) : Keeps s0 (State.appendJournal s x1 x2)
    := by
  unfold State.appendJournal
  dsimp only
  split
  · split
    · exact h.step
    · exact (copyJournal_keeps h).step
  · split
    · exact h.step
    · exact (copyJournal_keeps h).step

theorem dropCached_keeps {s : State} {x1 : Word} (h : Keeps s0 s) : Keeps s0 (State.dropCached s x1) := by
  unfold State.dropCached
  exact h.step

theorem entWrite_keeps {s : State} {x1 : Nat} {x2 : List Byte} (h : Keeps s0 s) : Keeps s0 (State.entWrite s x1 x2) := shelterWrite_keeps
    (h.step)

theorem writeFreeBit_keeps {s : State} {x1 : Nat} {x2 : Bool} (h : Keeps s0 s) : Keeps s0 (State.writeFreeBit s x1 x2) := entWrite_keeps h

theorem writeMirror_keeps {s : State} {x1 : Nat} (h : Keeps s0 s) : Keeps s0 (State.writeMirror s x1) := entWrite_keeps h

theorem writeBucket_keeps {s : State} {x1 : Nat} (h : Keeps s0 s) : Keeps s0 (State.writeBucket s x1) := by
  unfold State.writeBucket
  dsimp only
  exact entWrite_keeps (h.moves { ent := fun e => { e with } })

theorem writeKey_keeps {s : State} {x1 : Entities} {x2 : Word} (h : Keeps s0 s) : Keeps s0 (State.writeKey s x1 x2) := .ite (Keeps.foldl
    _ h fun _ _ kept => writeMirror_keeps kept) (Keeps.foldl _ (Keeps.foldl _ h fun _ _ kept => writeMirror_keeps kept) fun _ _ kept =>
    writeBucket_keeps kept)

theorem applyEvict_keeps {s : State} {x1 : UpdateEntry} (h : Keeps s0 s) : Keeps s0 (State.applyEvict s x1) := by
  unfold State.applyEvict
  dsimp only
  split
  · exact dropCached_keeps (writeFreeBit_keeps (writeKey_keeps (h.moves { ent := fun e => e.remove.forgetLost.setRow _ _ })))
  · exact h

theorem modPair_keeps {s : State} {x1 : Nat} {x2 : Pair → Pair} (h : Keeps s0 s) : Keeps s0 (State.modPair s x1 x2) := h.step

theorem unroute_keeps {s : State} {x1 : Route} (h : Keeps s0 s) : Keeps s0 (State.unroute s x1) := .ite (modStream_keeps (h.step))
    (modPair_keeps (modStream_keeps (h.step)))

theorem leavePair_keeps {s : State} {x1 : Route} (h : Keeps s0 s) : Keeps s0 (State.leavePair s x1) := .ite (modStream_keeps h) h

theorem routePair_keeps {s : State} {x1 : Tables} {x2 : Route} (h : Keeps s0 s) : Keeps s0 (State.routePair s x1 x2) := .ite
    (modStream_keeps (modStream_keeps (modPair_keeps h))) h

theorem mountStreams_keeps {s : State} {x1 : Tables} {x2 : List Route} (h : Keeps s0 s) : Keeps s0 (State.mountStreams s x1 x2) :=
    Keeps.foldl _ (Keeps.foldl _ h fun _ _ kept => unroute_keeps kept) fun _ _ kept => leavePair_keeps (routePair_keeps kept)

theorem modHead_keeps {s : State} {x1 : Nat} {x2 : Word32} {x3 : Head → Head} (h : Keeps s0 s) : Keeps s0 (State.modHead s x1 x2 x3) :=
    h.step

theorem ensurePlace_keeps {s : State} {x1 : Job} {x2 : Nat} (h : Keeps s0 s) : Keeps s0 (State.ensurePlace s x1 x2) := modHead_keeps h

theorem countVoided_keeps {s : State} {x1 : Job} {x2 : Nat} {x3 : Bool} {x4 : List Nat} (h : Keeps s0 s) : Keeps s0 (State.countVoided s
    x1 x2 x3 x4) := .ite (modTile_keeps h) h

theorem modPlace_keeps {s : State} {x1 : Nat} {x2 : Word32} {x3 : Nat} {x4 : JobPlace → JobPlace} (h : Keeps s0 s) : Keeps s0
    (State.modPlace s x1 x2 x3 x4) := modHead_keeps h

theorem tallyOk_undo {x : Tally} (ok : TallyOk x) (us : List (Nat × Word)) (told : List Nat) :
    TallyOk { x with words := us.foldl (fun m u => sset TallyWord.reset m u.1 ⟨u.2, 0⟩) x.words, told := told } :=
  ⟨List.foldlRecOn (motive := fun m => sparseOk TallyWord.reset m = true) us _ ok.1 fun _ kept _ _ => sparseOk_sset kept, ok.2⟩

theorem undoWrite_keeps {s : State} {x1 : Job} {x2 : Nat} {x3 : JobPlace} (h : Keeps s0 s) : Keeps s0 (State.undoWrite s x1 x2 x3) := by
  unfold State.undoWrite
  dsimp only
  exact modPlace_keeps (Keeps.foldl _ (h.moves { tally := fun ok => tallyOk_undo ok _ _ }) fun _ _ kept => modTile_keeps kept)

theorem forget_keeps {s : State} {x1 : Nat} {x2 : Nat} (h : Keeps s0 s) : Keeps s0 (State.forget s x1 x2) := h.step

theorem writeEntry_keeps {s : State} {x1 : Nat} {x2 : Word32} {x3 : Nat} (h : Keeps s0 s) : Keeps s0 (State.writeEntry s x1 x2 x3) :=
    .ite (modRing_keeps (write_keeps h)) h

theorem rewriteFrom_keeps {s : State} {x1 : Job} {x2 : Nat} {x3 : Nat} (h : Keeps s0 s) : Keeps s0 (State.rewriteFrom s x1 x2 x3) := by
  induction x3 generalizing s x2 with
  | zero => exact h
  | succ n ih =>
    unfold State.rewriteFrom
    split
    · exact h
    · split
      · exact h
      · exact ih (writeEntry_keeps h)

theorem settle_keeps {s : State} {x1 : Job} {x2 : Nat} {x3 : Nat} {x4 : Bool} {x5 : Bool} {x6 : Bool} (h : Keeps s0 s) : Keeps s0
    (State.settle s x1 x2 x3 x4 x5 x6) := by
  unfold State.settle
  dsimp only
  split
  · exact .ite (rewriteFrom_keeps (modPlace_keeps h)) (modPlace_keeps h)
  · exact modPlace_keeps h

theorem effectiveTarget_le (s : State) : s.effectiveTarget ≤ 3 := by
  refine Nat.le_trans (ThermalThresholds.effectiveTarget_le_thermalCap s) ?_
  unfold State.thermalCap
  repeat' split
  all_goals omega

theorem retarget_keeps {s : State} (h : Keeps s0 s) : Keeps s0 (State.retarget s) := by
  unfold State.retarget
  dsimp only
  have low := effectiveTarget_le s
  split
  · exact h
  · refine send_keeps (h.moves { gait := fun ⟨now, _, ledger, thermal, _⟩ => ⟨now, ?_, ledger, thermal, fun _ => low⟩ })
    exact Nat.le_succ_of_le low

theorem ledgerTarget_le {c : Staged} {g : Nat} {a : Int} (h : g ≤ 3) : ledgerTarget c g a ≤ 3 := by
  have gait (n : Nat) (small : n ≤ 4) (p : Nat → Bool) (d : Nat) (hd : d ≤ 3) : (((List.range n).reverse.find? p).getD d) ≤ 3 := by
    rcases found : (List.range n).reverse.find? p with - | k
    · exact hd
    · have := List.mem_range.mp (List.mem_reverse.mp (List.mem_of_find?_eq_some found))
      show k ≤ 3
      omega
  unfold ledgerTarget
  dsimp only
  split
  · exact gait g (by omega) _ 0 (by omega)
  · exact gait _ (Nat.succ_le_of_lt (Nat.mod_lt _ (by decide))) _ g h

theorem deriveLedger_keeps {s : State} (h : Keeps s0 s) : Keeps s0 (State.deriveLedger s) := by
  unfold State.deriveLedger
  split
  · exact retarget_keeps (h.moves { gait := fun ⟨now, requested, ledger, rest⟩ => ⟨now, requested, ledgerTarget_le ledger, rest⟩ })
  · exact h

theorem ledgerMoved_keeps {s : State} (h : Keeps s0 s) : Keeps s0 (State.ledgerMoved s) := .ite (deriveLedger_keeps h) h

theorem unreserve_keeps {s : State} {x1 : Nat} (h : Keeps s0 s) : Keeps s0 (State.unreserve s x1) := ledgerMoved_keeps (h.step)

theorem pay_keeps {s : State} {x1 : Job} (h : Keeps s0 s) : Keeps s0 (State.pay s x1) := unreserve_keeps (modJob_keeps h)

theorem voidPlace_keeps {s : State} {x1 : Job} {x2 : Nat} {x3 : Nat} {x4 : Bool} {x5 : Bool} (h : Keeps s0 s) : Keeps s0 (State.voidPlace
    s x1 x2 x3 x4 x5) := by
  unfold State.voidPlace
  dsimp only
  split
  · exact ensurePlace_keeps h
  · exact .ite (forget_keeps (settle_keeps (modPlace_keeps (countVoided_keeps (undoWrite_keeps (ensurePlace_keeps h)))))) (pay_keeps
        (forget_keeps (settle_keeps (modPlace_keeps (countVoided_keeps (undoWrite_keeps (ensurePlace_keeps h)))))))

theorem voidUntaken_keeps {s : State} {x1 : Group} (h : Keeps s0 s) : Keeps s0 (State.voidUntaken s x1) := by
  unfold State.voidUntaken
  dsimp only
  refine Keeps.foldl _ (h.step) fun t x kept => ?_
  split
  · exact .ite kept (voidPlace_keeps kept)
  · exact kept

theorem mountGroups_keeps {s : State} {x1 : Pending} (h : Keeps s0 s) : Keeps s0 (State.mountGroups s x1) := h.step

theorem freeTables_keeps {s : State} (h : Keeps s0 s) : Keeps s0 (State.freeTables s) := h.step

theorem mountImage_keeps {s : State} {x1 : Pending} (h : Keeps s0 s) : Keeps s0 (State.mountImage s x1) := freeTables_keeps
    (copyJournal_keeps ((mountGroups_keeps (Keeps.foldl _ h fun _ _ kept => voidUntaken_keeps kept)).step))

theorem writeEmpty_keeps {s : State} {x1 : Nat} {x2 : Word32} (h : Keeps s0 s) : Keeps s0 (State.writeEmpty s x1 x2) := write_keeps h

theorem restoreSlot_keeps {s : State} {x1 : Nat} {x2 : Word32} (h : Keeps s0 s) : Keeps s0 (State.restoreSlot s x1 x2) := by
  unfold State.restoreSlot
  split
  · exact writeEntry_keeps h
  · dsimp only
    split
    · split
      · exact writeEntry_keeps h
      · split
        · exact writeEntry_keeps h
        · exact writeEmpty_keeps h
    · exact .ite (writeEntry_keeps h) (writeEmpty_keeps h)

theorem dropJob_keeps {s : State} {x1 : Nat} (h : Keeps s0 s) : Keeps s0 (State.dropJob s x1) := h.step

theorem restoreEnded_keeps {s : State} {x1 : Job} (h : Keeps s0 s) : Keeps s0 (State.restoreEnded s x1) := dropJob_keeps
    (releaseTiles_keeps (.ite h (writeEntry_keeps h)))

theorem emptyRing_keeps {s : State} {x1 : Nat} (h : Keeps s0 s) : Keeps s0 (State.emptyRing s x1) := Keeps.foldl _ h fun _ _ kept =>
    writeEmpty_keeps kept

theorem enableRing_keeps {s : State} {x1 : Nat} (h : Keeps s0 s) : Keeps s0 (State.enableRing s x1) := .ite (freeContexts_keeps
    (Keeps.foldl _ (Keeps.foldl _ (Keeps.foldl _ (modRing_keeps h) fun _ _ kept => writeEmpty_keeps kept) fun _ _ kept =>
    restoreSlot_keeps kept) fun _ _ kept => restoreEnded_keeps kept)) (emptyRing_keeps (modRing_keeps h))

theorem modChannel_keeps {s : State} {x1 : Nat} {x2 : Channel → Channel} (h : Keeps s0 s) : Keeps s0 (State.modChannel s x1 x2) := by
  unfold State.modChannel
  exact h.moves { shape := by simp only [shapeOf, List.length_modify]; exact id }

theorem enableChannel_keeps {s : State} {x1 : Nat} (h : Keeps s0 s) : Keeps s0 (State.enableChannel s x1) := modChannel_keeps (.ite h
    (modStream_keeps h))

theorem resettleChannels_keeps {s : State} {x1 : Staged} (h : Keeps s0 s) : Keeps s0 (State.resettleChannels s x1) := Keeps.foldl _
    (h.step) fun _ _ kept => modChannel_keeps kept

theorem writeAccepts_keeps {s : State}  (h : Keeps s0 s) : Keeps s0 (State.writeAccepts s) := by
  unfold State.writeAccepts
  refine Keeps.foldl _ h fun t x kept => ?_
  split
  · exact modStream_keeps (write_keeps kept)
  · exact kept

theorem dueTandem_keeps {s : State} (h : Keeps s0 s) : Keeps s0 (State.dueTandem s) := h.step

theorem mountSettings_keeps {s : State} {x1 : Staged} (h : Keeps s0 s) : Keeps s0 (State.mountSettings s x1) := by
  unfold State.mountSettings
  dsimp only
  refine refreshHeld_keeps (refreshFault_keeps (dueTandem_keeps ?_))
  have settled : Keeps s0 (((List.filter (fun i => !(s.live.chan i).en && (x1.chan i).en) (List.range 64)).foldl
      (fun (t : State) i => t.modChannel i (fun y => { y with doors := [] }))
      ((List.filter (fun i => (s.live.chan i).en && !(x1.chan i).en) (List.range 64)).foldl State.enableChannel
        ((List.filter (fun r => (s.live.ring r).en && !(x1.ring r).en) (List.range 64)).foldl State.enableRing s))).resettleChannels x1)
            := by
    refine resettleChannels_keeps (Keeps.foldl _ (Keeps.foldl _ (Keeps.foldl _ h ?_) ?_) ?_)
    · exact fun _ _ kept => enableRing_keeps kept
    · exact fun _ _ kept => enableChannel_keeps kept
    · exact fun _ _ kept => modChannel_keeps kept
  revert settled
  generalize State.resettleChannels _ x1 = s3
  intro settled
  have moved : Keeps s0 { s3 with
      led := s3.led.capTo s3.live.cap
      gait := if s3.live.policy = 1 ∧ x1.policy ≠ 1 then { s3.gait with ledgerGait := 0 } else s3.gait
      flt := { s3.flt with
        dropped := s3.flt.dropped &&& BitVec.ofNat 16 s3.live.twin
        curry := if s3.live.curryEn && !x1.curryEn then List.replicate 34 0 else s3.flt.curry } } :=
    settled.moves
      { shape := fun ok => by
          have curry : s3.flt.curry.length = 34 := by simp only [shapeOf, lengths, List.cons.injEq] at ok; omega
          have same : (if s3.live.curryEn && !x1.curryEn then List.replicate 34 0 else s3.flt.curry).length = s3.flt.curry.length := by
            split
            · rw [List.length_replicate, curry]
            · rfl
          simp only [shapeOf, same, apply_ite GaitState.sensors, ite_self]
          exact ok
        log := fun ok => ok
        gait := fun ⟨now, requested, ledger, rest⟩ => by
          dsimp only
          split
          · exact ⟨now, requested, Nat.zero_le _, rest⟩
          · exact ⟨now, requested, ledger, rest⟩ }
  exact .ite (writeAccepts_keeps moved) moved

theorem finishJob_keeps {s : State} {x1 : Nat} {x2 : Nat} {x3 : Nat} {x4 : Nat} (h : Keeps s0 s) : Keeps s0 (State.finishJob s x1 x2 x3
    x4) := by
  unfold State.finishJob
  split
  · exact h
  · exact freeContexts_keeps (unreserve_keeps (modJob_keeps (writeEntry_keeps h)))

theorem nextMount_keeps {s : State} (h : Keeps s0 s) : Keeps s0 (State.nextMount s) := by
  unfold State.nextMount
  split
  · exact h.step
  · exact h

theorem endMount_keeps {s : State} {x1 : Nat} {x2 : Nat} {x3 : Nat} (h : Keeps s0 s) : Keeps s0 (State.endMount s x1 x2 x3) := by
  unfold State.endMount
  dsimp only
  split
  · exact nextMount_keeps (finishJob_keeps h).step
  · exact nextMount_keeps h.step

theorem reportMount_keeps {s : State} (h : Keeps s0 s) : Keeps s0 (State.reportMount s) := .ite (endMount_keeps (h.step)) h

theorem StagedShape.ite {p : Prop} [Decidable p] {a b : Staged} (h : StagedShape a) (k : StagedShape b) : StagedShape (if p then a else
    b) := by
  split
  · exact h
  · exact k
theorem stagedShape_stage {c : Staged} (target : Nat) (value : Word) (h : StagedShape c) : StagedShape (c.stage target value) := by
  have chan (f : SndCfg → SndCfg) : StagedShape { c with snd := c.snd.modify (target / 65536) f } := ⟨h.1, by simp [h.2.1], h.2.2⟩
  have ring (f : RingCfg → RingCfg) : StagedShape { c with rings := c.rings.modify ((target % 65536 - 0x1000) / 64) f } :=
    ⟨by simp [h.1], h.2.1, h.2.2⟩
  unfold Staged.stage
  repeat' apply StagedShape.ite
  all_goals first | exact chan _ | exact ring _ | exact h | exact ⟨h.1, h.2.1, by simpa using h.2.2⟩

theorem thaw_keeps {s : State} (h : Keeps s0 s) : Keeps s0 (State.thaw s) := by
  unfold State.thaw
  exact h.moves { shadow := fun ok => List.foldlRecOn (motive := StagedShape) _ _ ok fun _ kept _ _ => stagedShape_stage _ _ kept }

theorem entOk_of_mountFail2 {s : State} (passed : s.mountFail2 = none) (ok : EntOk (s.live.entRows + 256) s.ent) :
    EntOk (s.shadow.entRows + 256) s.ent := by
  by_cases held : (s.ent.count != 0 || s.ent.job.isSome) = true
  · have same : s.shadow.entRows = s.live.entRows := by
      unfold State.mountFail2 at passed
      simp only [held, Bool.true_and] at passed
      split at passed
      · cases passed
      · split at passed
        · cases passed
        · split at passed
          · cases passed
          · next agree => simpa using (Bool.or_eq_false_iff.mp (Bool.eq_false_iff.mpr agree)).1
    rw [same]
    exact ok
  · simp only [Bool.or_eq_true, bne_iff_ne, ne_eq, not_or, Decidable.not_not, Entities.count, Nat.add_eq_zero_iff,
        List.length_eq_zero_iff,
      Bool.not_eq_true, Option.isSome_eq_false_iff, Option.isNone_iff_eq_none, List.sum_eq_zero_iff] at held
    obtain ⟨⟨⟨index, overflow⟩, stranded⟩, job⟩ := held
    refine { ok with
      indexRows := fun x hx => ?_
      overflowRows := fun b hb x hx => ?_
      strandedRows := fun x hx => ?_
      newRows := fun j hj => ?_ }
    · simp [index] at hx
    · have := overflow _ (List.mem_map_of_mem hb)
      simp [List.length_eq_zero_iff.mp this] at hx
    · simp [stranded] at hx
    · simp [job] at hj

/-- A Mount's staged values taken into effect, once the checks of the entity region have passed. -/
theorem forms_takeShadow {s : State} (passed : s.mountFail2 = none) : Forms s { s with live := s.shadow } where
  mem := id
  log := id
  gait := id
  shape := fun ⟨_, shadow, rest⟩ => ⟨shadow, shadow, rest⟩
  stores := fun ok =>
    have ⟨tally, ent, arr, save⟩ := (storesOk_iff s).mp ok
    (storesOk_iff _).mpr ⟨tally, entOk_of_mountFail2 passed ent, arr, save⟩

theorem pinOk_mountSettings (s : State) (old : Staged) : PinOk (s.mountSettings old) :=
  (refreshHeld_keeps (Keeps.refl _)).pin (pinOk_refreshFault _)

/-- ABANDON is 0 again once it has acted (R458): neither a size nor the pin depends on it. -/
theorem keeps_unsetAbandon {s : State} {c : Staged} {m : MountState} (same : c = s.live ∨ c = { s.live with holdCfg := s.live.holdCfg &&&
    0xFFFF }) :
    Keeps s { s with live := c, shadow := c, mnt := m } := by
  rcases same with rfl | rfl <;>
  exact ⟨id, id, id, fun pin => pin, fun ⟨live, _, rest⟩ => ⟨live, live, rest⟩, fun ok => ok⟩

theorem applyMount_keeps {s : State} (h : Keeps s0 s) (passed : s.mountFail2 = none) : Keeps s0 (State.applyMount s) := by
  unfold State.applyMount
  extract_lets old tables removed abandon s1 s2 s3 s4 unset s5
  have switched : Keeps s1 s2 := by
    simp only [s2]
    split
    · exact mountStreams_keeps (mountImage_keeps (.refl _))
    · exact .refl _
  have settled : Keeps s1 s4 := mountSettings_keeps (.ite (abandon_keeps switched) switched)
  have taken : Keeps s0 s4 := ((h.forms.trans (forms_takeShadow passed)).trans settled.forms).keeps (pinOk_mountSettings _ _)
  have unset_eq : unset s4.live = s4.live ∨ unset s4.live = { s4.live with holdCfg := s4.live.holdCfg &&& 0xFFFF } := by
    simp only [unset]
    split
    · exact .inr rfl
    · exact .inl rfl
  exact reportMount_keeps (ledgerMoved_keeps (retarget_keeps (thaw_keeps (taken.trans (keeps_unsetAbandon unset_eq)))))

theorem stageEntry_keeps {s : State} {g : Nat} {e : PatchEntry} {c : Nat} {r : PatchItem × State} (staged : s.stageEntry g e c = some r)
    (h : Keeps s0 s) : Keeps s0 r.2 := by
  unfold State.stageEntry at staged
  dsimp only at staged
  split at staged
  · cases staged
    exact h
  · split at staged
    · cases staged
    · cases staged
      exact arr_keeps h ((ArrKeeps.putRow (.refl _)).step rfl rfl rfl)

theorem stageCopies_keeps {s : State} {g : Nat} {e : PatchEntry} {cs : List Nat} {r : List PatchItem × State}
    (staged : s.stageCopies g e cs = some r) (h : Keeps s0 s) : Keeps s0 r.2 := by
  induction cs generalizing s r with
  | nil =>
    cases staged
    exact h
  | cons c cs ih =>
    unfold State.stageCopies at staged
    split at staged
    · cases staged
    · next x t first =>
      obtain ⟨r', rest, rfl⟩ := Option.map_eq_some_iff.mp staged
      exact ih (r := r') rest (stageEntry_keeps first h)

theorem visibleStep_keeps {s : State} {x1 : PatchItem} (h : Keeps s0 s) : Keeps s0 (State.visibleStep s x1) := by
  unfold State.visibleStep
  dsimp only
  have kept : ArrKeeps s.arr (match x1.newRow with
      | some r => { s.arr with reserved := s.arr.reserved.filter (· != rowAt x1.phys x1.bank r) }
      | none => s.arr) := by
    split
    · exact (ArrKeeps.refl _).step rfl rfl rfl
    · exact .refl _
  refine .ite (arr_keeps h kept) (arr_keeps h ?_)
  split
  · refine ArrKeeps.putRow ?_
    split
    · exact ArrKeeps.dropRow kept
    · exact kept
  · split
    · exact ArrKeeps.dropRow kept
    · exact kept

theorem applyPatch_keeps {s : State} {x1 : Job} {x2 : PatchJob} {x3 : Group} (h : Keeps s0 s) : Keeps s0 (State.applyPatch s x1 x2 x3) :=
    .ite (finishJob_keeps ((appendJournal_keeps (modGroup_keeps (Keeps.foldl _ h fun _ _ kept => visibleStep_keeps kept))).step))
    ((appendJournal_keeps (modGroup_keeps (Keeps.foldl _ h fun _ _ kept => visibleStep_keeps kept))).step)

theorem cacheRow_keeps {s : State} {x1 : Word} {x2 : EntityRow} (h : Keeps s0 s) : Keeps s0 (State.cacheRow s x1 x2) := by
  unfold State.cacheRow
  dsimp only
  split
  · exact h.moves { ent := fun e => { e with } }
  · exact h.moves { ent := fun e => { e with } }

/-- An update's key in the table e, which points at a new row: written to memory, with its row cached unless the key is lost. -/
def pointed (s : State) (e : Entities) (u : UpdateEntry) (r : Nat) : State :=
  let s1 := (({ s with ent := e.forgetLost u }).writeKey s.ent u.key).writeFreeBit r true
  match e.lookup s.live.ovfBits u.key with
  | .found _ x => if x.lost then s1.dropCached u.key else s1.cacheRow u.key (sget EntityRow.missing s.ent.rows r)
  | _ => s1.cacheRow u.key (sget EntityRow.missing s.ent.rows r)

theorem applyUpdate_of_found {s : State} {u : UpdateEntry} {r : Nat} {at_ : KeyPlace} {x : EntityEntry}
    (found : s.ent.lookup s.live.ovfBits u.key = .found at_ x) :
    s.applyUpdate u r =
      let t := pointed s (s.ent.modEntry s.live.ovfBits u.key fun y => { y with row := r, lost := if u.masked then y.lost else false }) u
          r
      ({ t with ent := { t.ent with rows := sset EntityRow.missing t.ent.rows x.row EntityRow.missing } }).writeFreeBit x.row false := by
  unfold State.applyUpdate pointed
  simp only [found] <;> rfl

theorem applyUpdate_of_new {s : State} {u : UpdateEntry} {r : Nat}
    (new : ∀ at_ x, s.ent.lookup s.live.ovfBits u.key ≠ .found at_ x) :
    s.applyUpdate u r = pointed s ((s.ent.place s.live.ovfBits u.place ⟨u.key, r, false, false⟩).getD s.ent) u r := by
  unfold State.applyUpdate pointed
  rcases looked : s.ent.lookup s.live.ovfBits u.key with - | ⟨at_, x⟩ | -
  · simp only [looked] <;> rfl
  · exact absurd looked (new at_ x)
  · simp only [looked] <;> rfl

theorem pointed_keeps {s : State} {e : Entities} {u : UpdateEntry} {r : Nat} (h : Keeps s0 s)
    (ent : StoresOk s0 → EntOk (s.live.entRows + 256) s.ent → EntOk (s.live.entRows + 256) e) : Keeps s0 (pointed s e u r) := by
  unfold pointed
  have written : Keeps s0 ((({ s with ent := e.forgetLost u } : State).writeKey s.ent u.key).writeFreeBit r true) :=
    writeFreeBit_keeps (writeKey_keeps (h.entMoves fun ok table => (ent ok table).forgetLost))
  dsimp only
  split
  · exact .ite (dropCached_keeps written) (cacheRow_keeps written)
  · exact cacheRow_keeps written

theorem applyUpdate_keeps {s : State} {u : UpdateEntry} {r : Nat} (h : Keeps s0 s) (new : StoresOk s0 → r < s.live.entRows + 256) :
    Keeps s0 (State.applyUpdate s u r) := by
  by_cases held : ∃ at_ x, s.ent.lookup s.live.ovfBits u.key = .found at_ x
  · obtain ⟨at_, x, found⟩ := held
    rw [applyUpdate_of_found found]
    exact writeFreeBit_keeps ((pointed_keeps h fun ok table => table.modEntry fun y _ => new ok).moves { ent := fun ok => ok.setRow _ _ })
  · rw [applyUpdate_of_new fun at_ x found => held ⟨at_, x, found⟩]
    refine pointed_keeps h fun ok table => ?_
    rcases put : s.ent.place s.live.ovfBits u.place ⟨u.key, r, false, false⟩ with - | e
    · exact table
    · exact table.place (new ok) put

theorem renameHandOffs_keeps {s : State} {x1 : Home} (h : Keeps s0 s) : Keeps s0 (State.renameHandOffs s x1) := by
  unfold State.renameHandOffs
  dsimp only
  refine arr_keeps h (ArrKeeps.mapRows (.refl _) fun y => ?_)
  split <;> rfl

theorem relocate_keeps {s : State} {x1 : Home × Content} {x2 : Nat} {x3 : Bool} {x4 : Nat} (h : Keeps s0 s) : Keeps s0 (State.relocate s
    x1 x2 x3 x4) := by
  unfold State.relocate
  dsimp only
  refine renameHandOffs_keeps (arr_keeps h (ArrKeeps.foldl _ (ArrKeeps.step (a := List.foldl _ s.arr _) ?_ rfl rfl rfl)
    fun _ _ kept => ArrKeeps.settleSlot kept))
  exact ArrKeeps.foldl _ (.refl _) fun _ _ kept => ArrKeeps.leave kept

theorem avoidOn_keeps {s : State} {x1 : Nat} {x2 : Nat} (h : Keeps s0 s) : Keeps s0 (State.avoidOn s x1 x2) := by
  unfold State.avoidOn
  dsimp only
  refine Keeps.foldl _ h fun t x kept => ?_
  split
  · exact kept
  · split
    · exact Keeps.foldl _ kept fun _ _ kept1 => relocate_keeps kept1
    · exact kept

theorem dropPending_keeps {s : State}  (h : Keeps s0 s) : Keeps s0 (State.dropPending s) := by
  unfold State.dropPending
  dsimp only
  split
  · exact h
  · refine (arr_keeps h (ArrKeeps.foldl _ (.refl _) fun a d kept => ArrKeeps.foldl _ kept fun b π kept => ?_)).onto
    exact ArrKeeps.step (a := b.clearPlane d.pos (s.physOf d.pos) π) (ArrKeeps.clearPlane kept) rfl rfl rfl

theorem breakPending_keeps {s : State} (h : Keeps s0 s) : Keeps s0 (State.breakPending s) := .ite (retarget_keeps ((dropPending_keeps
    h).step)) h

theorem interruptLoad_keeps {s : State} {x1 : Nat} (h : Keeps s0 s) : Keeps s0 (State.interruptLoad s x1) := by
  unfold State.interruptLoad
  dsimp only
  have broken : Keeps s0 (if s.img.pend.any (fun p => p.disp.any fun d => d.pos == x1 && !d.planes.isEmpty) then s.breakPending else s) :=
    .ite (breakPending_keeps h) h
  split
  · exact .ite broken.step broken
  · exact broken

theorem retireArray_keeps {s : State} {x1 : Nat} (h : Keeps s0 s) : Keeps s0 (State.retireArray s x1) := by
  unfold State.retireArray
  exact h.moves { arr := fun ok => ⟨sparseOk_filter ok.1, ok.2⟩ }

theorem mapOnto_keeps {s : State} {x1 : Nat} {x2 : Nat} (h : Keeps s0 s) : Keeps s0 (State.mapOnto s x1 x2) := by
  unfold State.mapOnto
  dsimp only
  refine fillPosition_keeps (retireArray_keeps ((avoidOn_keeps (interruptLoad_keeps h)).moves { shape := ?_, arr := fun ok => ok }))
  simp only [shapeOf, List.length_set]
  exact id

theorem logOk_append {f : Faults} {e : LogEntry} (h : LogOk f) (index : e.index = f.logHead) : LogOk (f.append e) := by
  obtain ⟨small, indices⟩ := h
  have older (i n : Nat) (hi : i < n) : f.logHead - BitVec.ofNat 32 (n - i) = f.logHead + 1 - BitVec.ofNat 32 (n + 1 - i) := by
    have step : BitVec.ofNat 32 (n + 1 - i) = BitVec.ofNat 32 (n - i) + 1 := by
      rw [show n + 1 - i = n - i + 1 by omega, BitVec.ofNat_add]
      rfl
    rw [step]
    bv_omega
  have newest : e.index = f.logHead + 1 - BitVec.ofNat 32 1 := by
    rw [index]
    bv_omega
  unfold Faults.append
  dsimp only
  split
  · next room =>
    refine ⟨by simp; omega, fun i x hx => ?_⟩
    simp only [List.length_append, List.length_singleton]
    rcases Nat.lt_trichotomy i f.log.length with below | rfl | above
    · rw [List.getElem?_append_left below] at hx
      rw [indices i x hx]
      exact older i _ below
    · simp only [List.getElem?_append_right (Nat.le_refl _), Nat.sub_self, List.getElem?_cons_zero, Option.some.injEq] at hx
      rw [← hx, Nat.add_sub_cancel_left]
      exact newest
    · rw [List.getElem?_eq_none (by simp; omega)] at hx
      cases hx
  · next full =>
    have length : f.log.length = 256 := by omega
    refine ⟨by simp; omega, fun i x hx => ?_⟩
    simp only [List.length_append, List.length_tail, length, List.length_singleton]
    rcases Nat.lt_trichotomy i 255 with below | rfl | above
    · rw [List.getElem?_append_left (by simp; omega), List.getElem?_tail] at hx
      rw [indices (i + 1) x hx, length, older (i + 1) 256 (by omega), show 256 + 1 - (i + 1) = 256 - 1 + 1 - i by omega]
    · rw [List.getElem?_append_right (by simp; omega)] at hx
      simp only [List.length_tail, length, Nat.reduceSub, List.getElem?_cons_zero, Option.some.injEq] at hx
      rw [← hx]
      exact newest
    · rw [List.getElem?_eq_none (by simp; omega)] at hx
      cases hx

theorem logOk_count {f : Faults} {cls : Nat} (h : LogOk f) : LogOk (f.count cls) := by
  unfold Faults.count
  repeat' split
  all_goals exact h

/-- An entry appended, with SFD_FAULT_N not yet refreshed. -/
theorem forms_append {s : State} {e : LogEntry} {cls : Nat} (index : e.index = s.flt.logHead) :
    Forms s { s with flt := (s.flt.append e).count cls } := by
  have curry : (s.flt.append e).curry = s.flt.curry ∧ (s.flt.append e).cycles = s.flt.cycles := by
    unfold Faults.append
    dsimp only
    split <;> exact ⟨rfl, rfl⟩
  have counted : ((s.flt.append e).count cls).curry = s.flt.curry ∧ ((s.flt.append e).count cls).cycles = s.flt.cycles := by
    unfold Faults.count
    repeat' split
    all_goals exact curry
  exact forms_of_moves
    { log := fun ok => logOk_count (logOk_append ok index)
      shape := by simp only [shapeOf, counted.1, counted.2]; exact id }

theorem logEvent_keeps {s : State} {x1 : Nat} {x2 : Nat} {x3 : Nat} {x4 : Detected} {x5 : Nat} (h : Keeps s0 s) :
    Keeps s0 (State.logEvent s x1 x2 x3 x4 x5) := by
  unfold State.logEvent
  dsimp only
  have told (t : State) : Keeps t (t.notifyIf 0 64) := notifyIf_keeps (.refl t)
  exact Forms.refreshFault ((h.forms.trans (forms_append (by rfl))).trans
    (Keeps.ite (.ite (send_keeps (told _)) (told _)) (.refl _)).forms)

theorem remountOnto_keeps {s : State} {x1 : Nat} {x2 : Nat} {x3 : Detected} (h : Keeps s0 s) : Keeps s0 (State.remountOnto s x1 x2 x3) :=
    logEvent_keeps (mapOnto_keeps h)

theorem putOut_keeps {s : State} {x1 : Nat} (h : Keeps s0 s) : Keeps s0 (State.putOut s x1) := h.step

theorem borrow_keeps {s : State} {x1 : Nat} {x2 : Nat} {x3 : Detected} (h : Keeps s0 s) : Keeps s0 (State.borrow s x1 x2 x3) :=
    logEvent_keeps (putOut_keeps (mapOnto_keeps h))

theorem voidSuspended_keeps {s : State} {x1 : Group} {x2 : List Nat} (h : Keeps s0 s) : Keeps s0 (State.voidSuspended s x1 x2) := by
  unfold State.voidSuspended
  dsimp only
  refine Keeps.foldl _ h fun t x kept => ?_
  split
  · exact .ite (voidPlace_keeps kept) kept
  · exact kept

theorem suspendModels_keeps {s : State} {x1 : Group} {x2 : List Nat} (h : Keeps s0 s) : Keeps s0 (State.suspendModels s x1 x2) :=
    modGroup_keeps (voidSuspended_keeps h)

theorem suspendAt_keeps {s : State} {x1 : Nat} {x2 : Detected} (h : Keeps s0 s) : Keeps s0 (State.suspendAt s x1 x2) := logEvent_keeps
    (putOut_keeps (interruptLoad_keeps (Keeps.foldl _ h fun _ _ kept => suspendModels_keeps kept)))

theorem moveTree_keeps {s : State} {xs : List (Nat × Home × Content)} {p : Nat} {b : Bool} {t : State} (h : Keeps s0 s)
    (moved : s.moveTree xs p b = some t) : Keeps s0 t := by
  unfold State.moveTree at moved
  refine List.foldlRecOn (motive := fun r => ∀ u, r = some u → Keeps s0 u) xs _ ?_ (fun r kept x _ => ?_) t moved
  · intro u first
    cases first
    exact h
  · intro u step
    split at step
    · cases step
    · split at step
      · obtain ⟨k, -, rfl⟩ := Option.map_eq_some_iff.mp step
        exact relocate_keeps (kept _ rfl)
      · cases step

theorem moveTrees_keeps {s : State} {p : Nat} {a b : Bool} {qs : List Nat} {r : State × Nat} (h : Keeps s0 s)
    (moved : s.moveTrees p a b qs = some r) : Keeps s0 r.1 := by
  unfold State.moveTrees at moved
  refine List.foldlRecOn (motive := fun o => ∀ u : State × Nat, o = some u → Keeps s0 u.1) _ _ ?_ (fun o kept x _ => ?_) r moved
  · intro u first
    cases first
    exact h
  · intro u step
    split at step
    · cases step
    · dsimp only at step
      split at step
      · obtain ⟨v, found, rfl⟩ := Option.map_eq_some_iff.mp step
        obtain ⟨q, -, tree⟩ := List.exists_of_findSome?_eq_some found
        exact moveTree_keeps (kept _ rfl) tree
      · exact kept _ step

theorem spread_keeps {s : State} {p : Nat} {r : State × Nat} (h : Keeps s0 s) (spread : s.spread p = some r) : Keeps s0 r.1 := by
  unfold State.spread at spread
  refine List.foldlRecOn (motive := fun o => ∀ u : State × Nat, o = some u → Keeps s0 u.1) _ _ ?_ (fun o kept g _ => ?_) r spread
  · intro u first
    cases first
    exact h
  · refine List.foldlRecOn (motive := fun o => ∀ u : State × Nat, o = some u → Keeps s0 u.1) _ _ kept fun o kept π _ => ?_
    intro u step
    split at step
    · cases step
    · next t n =>
      obtain ⟨v, moved, rfl⟩ := Option.map_eq_some_iff.mp step
      exact moveTrees_keeps (r := v) (show Keeps s0 t from kept (t, n) rfl) moved

theorem foldDouble_keeps {s : State} {p : Nat} {r : State × Nat} (h : Keeps s0 s) (folded : s.foldDouble p = some r) : Keeps s0 r.1 := by
  unfold State.foldDouble at folded
  split at folded
  · dsimp only at folded
    split at folded
    · cases folded
    · obtain ⟨v, moved, rfl⟩ := Option.map_eq_some_iff.mp folded
      exact modGroup_keeps (moveTrees_keeps (Keeps.foldl _ h fun _ _ kept => interruptLoad_keeps kept) moved)
  · cases folded

theorem refoldAt_keeps {s : State} {x1 : Nat} {x2 : Detected} (h : Keeps s0 s) : Keeps s0 (State.refoldAt s x1 x2) := by
  unfold State.refoldAt
  split
  · exact borrow_keeps h
  · split
    · next t n spread =>
      refine logEvent_keeps (putOut_keeps (interruptLoad_keeps ?_))
      split at spread
      · cases spread
      · exact spread_keeps h spread
    · split
      · next t n folded =>
        refine logEvent_keeps (putOut_keeps (interruptLoad_keeps ?_))
        split at folded
        · cases folded
        · exact foldDouble_keeps h folded
      · exact suspendAt_keeps h

theorem freeTwin_keeps {s : State} {x1 : Nat} (h : Keeps s0 s) : Keeps s0 (State.freeTwin s x1) := by
  unfold State.freeTwin
  exact arr_keeps h (ArrKeeps.foldl _ (.refl _) fun _ _ kept => ArrKeeps.clearPlane kept)

theorem leaveTandem_keeps {s : State} {x1 : Group} {x2 : Detected} (h : Keeps s0 s) : Keeps s0 (State.leaveTandem s x1 x2) :=
    logEvent_keeps (retarget_keeps (modGroup_keeps ((Keeps.foldl _ h fun _ _ kept => freeTwin_keeps kept).step)))

theorem logReadbacks_keeps {s : State} {x1 : Detected} {x2 : List Nat} (h : Keeps s0 s) : Keeps s0 (State.logReadbacks s x1 x2) := by
  unfold State.logReadbacks
  exact Keeps.foldl _ h fun _ _ kept => logEvent_keeps kept.step

theorem takeSpare_keeps {s : State} {bad : List (Nat × Nat)} {d : Detected} {n : Nat} (h : Keeps s0 s) : Keeps s0 (s.takeSpare bad d n).2
    := by
  induction n generalizing s with
  | zero => exact h
  | succ n ih =>
    unfold State.takeSpare
    split
    · exact h
    · dsimp only
      split
      · exact logReadbacks_keeps h
      · exact ih (logEvent_keeps (retireArray_keeps (logReadbacks_keeps h)))

theorem replaceArray_keeps {s : State} {x1 : Nat} {x2 : List (Nat × Nat)} {x3 : Detected} (h : Keeps s0 s) : Keeps s0 (State.replaceArray
    s x1 x2 x3) := by
  unfold State.replaceArray
  have taken := takeSpare_keeps (bad := x2) (d := x3) (n := 2) h
  split
  · next spare => exact remountOnto_keeps (by rw [spare] at taken; exact taken)
  · next spare =>
    rw [spare] at taken
    split
    · exact refoldAt_keeps taken
    · split
      · exact leaveTandem_keeps taken
      · exact taken

theorem retireSlot_keeps {s : State} {x1 : Nat} {x2 : Nat} (h : Keeps s0 s) : Keeps s0 (State.retireSlot s x1 x2) := h.step

theorem moveSlot_keeps {s : State} {p sl : Nat} {d : Detected} {t : State} (h : Keeps s0 s) (moved : s.moveSlot p sl d = some t) :
    Keeps s0 t := by
  unfold State.moveSlot at moved
  obtain ⟨k, -, rfl⟩ := Option.map_eq_some_iff.mp moved
  exact logEvent_keeps (retireSlot_keeps (Keeps.foldl _ h fun _ _ kept => relocate_keeps kept))

theorem suspendLost_keeps {s : State} {p sl : Nat} {d : Detected} {t : State} (h : Keeps s0 s) (lost : s.suspendLost p sl d = some t) :
    Keeps s0 t := by
  unfold State.suspendLost at lost
  dsimp only at lost
  split at lost
  · cases lost
  · obtain rfl := Option.some.inj lost
    refine logEvent_keeps (retireSlot_keeps (Keeps.foldl _ (Keeps.foldl _ h fun _ _ kept => suspendModels_keeps kept) fun t x kept => ?_))
    exact arr_keeps kept (ArrKeeps.foldl _ (.refl _) fun _ _ kept => ArrKeeps.leave kept)

theorem ladderSlot_keeps {s : State} {x1 : Nat} {x2 : List (Nat × Nat)} {x3 : Detected} (h : Keeps s0 s) : Keeps s0 (State.ladderSlot s
    x1 x2 x3) := by
  unfold State.ladderSlot
  split
  · next t found =>
    rcases Option.or_eq_some_iff.mp found with lost | ⟨-, moved⟩
    · exact suspendLost_keeps h lost
    · exact moveSlot_keeps h moved
  · exact replaceArray_keeps h

theorem ladderArray_keeps {s : State} {x1 : List (Nat × Nat)} {x2 : Detected} (h : Keeps s0 s) : Keeps s0 (State.ladderArray s x1 x2) :=
    replaceArray_keeps (.ite (Keeps.foldl _ h fun _ _ kept => suspendModels_keeps kept) (logEvent_keeps (Keeps.foldl _ h fun _ _ kept =>
    suspendModels_keeps kept)))

theorem retireRowAt_keeps {s : State} {x1 : Nat} {x2 : Nat} {x3 : Nat} (h : Keeps s0 s) : Keeps s0 (State.retireRowAt s x1 x2 x3) := by
  unfold State.retireRowAt
  dsimp only
  exact arr_keeps h ((ArrKeeps.dropRow (.refl _)).step rfl rfl rfl)

theorem retireRow_keeps {s : State} {d : Detected} {t : State} (h : Keeps s0 s) (retired : s.retireRow d = some t) : Keeps s0 t := by
  unfold State.retireRow at retired
  split at retired
  · obtain rfl := Option.some.inj retired
    exact logEvent_keeps (retireRowAt_keeps h)
  · obtain ⟨r, -, rfl⟩ := Option.map_eq_some_iff.mp retired
    exact logEvent_keeps (arr_keeps (retireRowAt_keeps h) (ArrKeeps.putRow (.refl _)))

theorem ladderPart_keeps {s : State} {x1 : List (Nat × Nat)} {x2 : Detected} (h : Keeps s0 s) : Keeps s0 (State.ladderPart s x1 x2) := by
  unfold State.ladderPart
  split
  · exact ladderSlot_keeps h
  · exact ladderSlot_keeps h
  · split
    · rcases retired : s.retireRow x2 with - | t
      · exact h
      · exact retireRow_keeps h retired
    · split
      · next t found =>
        rcases Option.or_eq_some_iff.mp found with lost | ⟨-, retired⟩
        · exact suspendLost_keeps h lost
        · exact retireRow_keeps h retired
      · exact ladderSlot_keeps h
  · exact ladderArray_keeps h

theorem arbitrate_keeps {s : State} {x1 : List (Nat × Nat)} {x2 : Bool} {x3 : Detected} (h : Keeps s0 s) : Keeps s0 (State.arbitrate s x1
    x2 x3) := by
  unfold State.arbitrate
  dsimp only
  have taken := takeSpare_keeps (bad := x1) (d := x3) (n := 2) h
  split
  · exact ladderPart_keeps h
  · split
    · next spare =>
      rw [spare] at taken
      exact remountOnto_keeps taken
    · next spare =>
      rw [spare] at taken
      split
      · exact refoldAt_keeps (leaveTandem_keeps taken)
      · exact taken

/-- The Saddlebag with another save, or none. -/
theorem forms_bag {s : State} {b : Saddlebag} {p : Power}
    (saved : ∀ sv, b.save = some sv → (StoresOk s → sparseOk TallyWord.reset sv.words = true ∧ sparseOk Tile.reset sv.tiles = true) ∧
      (ShapeOk s → sv.rings.length = 64)) : Forms s { s with pwr := p, bag := b } where
  mem := id
  log := id
  gait := id
  shape := fun ok =>
    have ⟨live, shadow, rings, channels, lanes, sensors, link, map, curry, cycles, _⟩ := ok
    ⟨live, shadow, rings, channels, lanes, sensors, link, map, curry, cycles, fun sv hsv => (saved sv hsv).2 ok⟩
  stores := fun ok =>
    have ⟨tally, ent, arr, _⟩ := (storesOk_iff s).mp ok
    (storesOk_iff _).mpr ⟨tally, ent, arr, fun sv hsv => (saved sv hsv).1 ok⟩

theorem beginSave_keeps {s : State} {x1 : Nat} {x2 : Bool} (h : Keeps s0 s) : Keeps s0 (State.beginSave s x1 x2) := by
  unfold State.beginSave
  exact Forms.refreshFault (h.forms.trans (forms_bag fun _ none => by cases none))

theorem blockRecordDone_keeps {s : State} {x1 : Nat} {x2 : Nat} (h : Keeps s0 s) : Keeps s0 (State.blockRecordDone s x1 x2) :=
    modPair_keeps h

theorem bufferPlace_keeps {s : State} {x1 : Nat} {x2 : Word32} {x3 : JobPlace} (h : Keeps s0 s) : Keeps s0 (State.bufferPlace s x1 x2 x3)
    := by
  unfold State.bufferPlace
  split
  · exact h
  · exact .ite (.ite (forget_keeps (settle_keeps h)) h) (.ite (voidPlace_keeps h) h)

theorem ccc_keeps {s : State} {x1 : Telemetry} (h : Keeps s0 s) : Keeps s0 (State.ccc s x1) := .ite (h.step) h

theorem moveKey_keeps {s : State} {i : Nat} {x : EntityEntry} (h : Keeps s0 s) (listed : (i, x) ∈ s.ent.index) : Keeps s0 (State.moveKey
    s i x) := by
  unfold State.moveKey
  dsimp only
  refine writeKey_keeps (writeMirror_keeps (h.moves { ent := fun ok => ?_ }))
  have row := ok.indexRows _ listed
  have freed : EntOk (s.live.entRows + 256) { s.ent with
      index := sdel s.ent.index i
      retired := insertNat s.ent.retired i
      retirements := satAdd 16 s.ent.retirements 1 } := { ok.dropIndex i with }
  split
  · next e put => exact freed.place (x := { x with bad := false }) row put
  · refine { freed with strandedRows := fun y hy => ?_ }
    rcases List.mem_append.mp hy with hy | hy
    · exact freed.strandedRows y hy
    · rw [List.mem_singleton.mp hy]
      split <;> exact row

theorem indexParity_keeps {s : State} {i : Nat} {x : EntityEntry} {again : Bool} (h : Keeps s0 s) (listed : (i, x) ∈ s.ent.index) :
    Keeps s0 (State.indexParity s i x again) := by
  unfold State.indexParity
  dsimp only
  split
  · have put : Keeps s0 { s with ent := { s.ent with index := sput s.ent.index i { x with bad := false } } } :=
      h.entMoves fun _ ok =>
        have place : i < 131072 := ok.places (i, x) listed
        ok.putIndex place (ok.indexRows (i, x) listed)
    exact logEvent_keeps (put.onto rfl rfl)
  · exact logEvent_keeps (moveKey_keeps h listed)

theorem checkParity_keeps {s : State} {x1 : Word} {x2 : Bool} (h : Keeps s0 s) : Keeps s0 (State.checkParity s x1 x2) := by
  unfold State.checkParity
  split
  · next found =>
    split
    · exact indexParity_keeps h (lookup_index_mem found)
    · exact h
  · exact h

theorem checkKeys_keeps {s : State} {x1 : List UpdateEntry} {x2 : Bool} (h : Keeps s0 s) : Keeps s0 (State.checkKeys s x1 x2) :=
    Keeps.foldl _ h fun _ _ kept => checkParity_keeps kept

theorem checkTwin_keeps {s : State} {x1 : List (Nat × Nat)} {x2 : Nat} {x3 : Nat} (h : Keeps s0 s) : Keeps s0 (State.checkTwin s x1 x2
    x3) := by
  unfold State.checkTwin
  dsimp only
  split
  · exact logReadbacks_keeps h
  · exact replaceArray_keeps (logEvent_keeps (logReadbacks_keeps h))

theorem pauseGroup_keeps {s : State} {x1 : Nat} (h : Keeps s0 s) : Keeps s0 (State.pauseGroup s x1) := modGroup_keeps h

theorem enqueueFault_keeps {s : State} {x1 : Detected} (h : Keeps s0 s) : Keeps s0 (State.enqueueFault s x1) := pauseGroup_keeps (h.step)

theorem failAttempt_keeps {s : State} {x1 : Attempt} {x2 : Detected} (h : Keeps s0 s) : Keeps s0 (State.failAttempt s x1 x2) := by
  unfold State.failAttempt
  dsimp only
  split
  · exact pauseGroup_keeps (modGroup_keeps h).onto
  · exact enqueueFault_keeps (modGroup_keeps h).onto

theorem modAttempt_keeps {s : State} {x1 : Nat} {x2 : Attempt → Attempt} (h : Keeps s0 s) : Keeps s0 (State.modAttempt s x1 x2) := h.step

theorem chordNode_keeps {s : State} {x1 : Attempt} {x2 : ModelDef} {x3 : Nat} {x4 : Nat} {x5 : List Partial} {x6 : List Partial} {x7 :
    List Nat} (h : Keeps s0 s) : Keeps s0 (State.chordNode s x1 x2 x3 x4 x5 x6 x7) := by
  unfold State.chordNode
  dsimp only
  split
  · exact failAttempt_keeps h
  · exact modAttempt_keeps (h.step)

theorem claim_keeps {s : State} {x1 : Nat} (h : Keeps s0 s) : Keeps s0 (State.claim s x1) := by
  unfold State.claim
  split
  · exact h
  · dsimp only
    split
    · exact h
    · split
      · exact modJob_keeps h
      · split
        · exact h
        · exact .ite (modJob_keeps (modJob_keeps h)) (modJob_keeps (ensurePlace_keeps h))

theorem claimAll_keeps {s : State} {x1 : Job} (h : Keeps s0 s) : Keeps s0 (State.claimAll s x1) := .ite (Keeps.foldl _ h fun _ _ kept =>
    claim_keeps kept) h

theorem ladder_keeps {s : State} {x1 : List (Nat × Nat)} {x2 : Bool} {x3 : Detected} (h : Keeps s0 s) : Keeps s0 (State.ladder s x1 x2
    x3) := .ite (putOut_keeps (retireArray_keeps h)) (.ite (arbitrate_keeps h) (ladderPart_keeps h))

theorem restoreItem_keeps {s : State} {x1 : Nat} {x2 : Nat} {x3 : Item} (h : Keeps s0 s) : Keeps s0 (State.restoreItem s x1 x2 x3) := by
  unfold State.restoreItem
  split
  · exact arr_keeps h ((ArrKeeps.refl _).step rfl rfl rfl)
  · exact arr_keeps h ((ArrKeeps.refl _).step rfl rfl rfl)
  · split
    · exact h
    · exact arr_keeps h ((ArrKeeps.refl _).step rfl rfl rfl)
  · split
    · exact arr_keeps h (ArrKeeps.putRow (.refl _))
    · exact arr_keeps h (ArrKeeps.dropRow (.refl _))
  · exact Keeps.foldl _ h fun _ _ kept => arr_keeps kept ((ArrKeeps.refl _).step rfl rfl rfl)

theorem rewritePart_keeps {s : State} {x1 : Detected} (h : Keeps s0 s) : Keeps s0 (State.rewritePart s x1) := by
  unfold State.rewritePart
  split
  · exact restoreItem_keeps h
  · split
    · exact arr_keeps h (ArrKeeps.putBuffer (.refl _))
    · exact h

theorem disturb_keeps {s : State} {x1 : Upset} (h : Keeps s0 s) : Keeps s0 (State.disturb s x1) := by
  unfold State.disturb
  split
  · exact h.moves { tally := TallyOk.modWord }
  · exact h.step
  · exact h.step
  · exact arr_keeps h (ArrKeeps.disturb (.refl _))

theorem disturbAll_keeps {s : State} {x1 : List Upset} (h : Keeps s0 s) : Keeps s0 (State.disturbAll s x1) := Keeps.foldl _ h fun _ _
    kept => disturb_keeps kept

theorem loadBuffers_keeps {s : State} {x1 : Group} {x2 : FeaturePlace} {x3 : List Upset} (h : Keeps s0 s) : Keeps s0 (State.loadBuffers s
    x1 x2 x3) := by
  unfold State.loadBuffers
  dsimp only
  exact disturbAll_keeps (arr_keeps h (ArrKeeps.foldl _ (.refl _) fun _ _ kept => ArrKeeps.load kept))

theorem searchSlot_keeps {s : State} {a : Attempt} {p k n : Nat} {w : Word} {d : BitVec 10} {m : ModelDef} (h : Keeps s0 s) : Keeps s0
    (s.searchSlot a p k n w d m).state := by
  unfold State.searchSlot
  dsimp only
  split
  · exact h.step
  · exact h.step

theorem searchToken_keeps {s : State} {a : Attempt} {p k n : Nat} {m : ModelDef} (h : Keeps s0 s) : Keeps s0 (s.searchToken a p k n
    m).state := by
  unfold State.searchToken
  split
  · exact searchSlot_keeps h
  · exact h

theorem searchBoth_keeps {s : State} {a : Attempt} {p k n : Nat} {m : ModelDef} (h : Keeps s0 s) : Keeps s0 (s.searchBoth a p k n
    m).state := by
  unfold State.searchBoth
  dsimp only
  split
  · exact searchToken_keeps (searchToken_keeps h)
  · exact searchToken_keeps h

theorem searchAll_keeps {s : State} {a : Attempt} {m : ModelDef} (h : Keeps s0 s) : Keeps s0 (s.searchAll a m).state := by
  unfold State.searchAll
  dsimp only
  refine List.foldlRecOn (motive := fun r : Searched => Keeps s0 r.state) _ _ h fun r kept n _ => ?_
  refine List.foldlRecOn (motive := fun r : Searched => Keeps s0 r.state) _ _ kept fun r kept w _ => ?_
  split
  · exact searchBoth_keeps kept
  · exact kept

theorem repeatPass_keeps {s : State} {g : Group} {j : Job} {x : Head} {m : ModelDef} {ups : List Upset} {w : PassRef} (h : Keeps s0 s) :
    Keeps s0 (s.repeatPass g j x m ups w).1 := by
  unfold State.repeatPass
  dsimp only
  have loaded := disturbAll_keeps (x1 := ups) (loadBuffers_keeps (x1 := g) (x2 := x.features m (j.op == opTremolo) w.pass) (x3 := []) h)
  split
  · exact loaded
  · exact searchAll_keeps loaded

theorem repeatPasses_keeps {s : State} {g : Group} {j : Job} {x : Head} {m : ModelDef} {ups : List Upset} {ws : List PassRef} (h : Keeps
    s0 s) : Keeps s0 (s.repeatPasses g j x m ups ws).1 := by
  induction ws generalizing s ups with
  | nil => exact h
  | cons w ws ih =>
    unfold State.repeatPasses
    have once := repeatPass_keeps (g := g) (j := j) (x := x) (m := m) (ups := ups) (w := w) h
    split
    · next result =>
      rw [result] at once
      exact once
    · next result =>
      rw [result] at once
      exact ih once

theorem retry_keeps {s : State} {d : Detected} {ups : List Upset} (h : Keeps s0 s) : Keeps s0 (s.retry d ups).1 := by
  unfold State.retry
  split
  · split
    · exact repeatPasses_keeps h
    · exact disturbAll_keeps h
  · exact disturbAll_keeps h

theorem classify_keeps {s : State} {x1 : Detected} {x2 : List Upset} {x3 : List (Nat × Nat)} {x4 : Bool} (h : Keeps s0 s) : Keeps s0
    (State.classify s x1 x2 x3 x4) := by
  unfold State.classify
  dsimp only
  have lasting {t : State} (kept : Keeps s0 t) : Keeps s0 ((t.logEvent x1.check clsLasting 0 x1 x1.detail).ladder x3 x4 x1) :=
    ladder_keeps (logEvent_keeps kept)
  split
  · next t lost =>
    obtain ⟨sl, -, suspended⟩ := Option.bind_eq_some_iff.mp lost
    exact suspendLost_keeps (logEvent_keeps h) suspended
  · refine .ite (lasting h) ?_
    have again := retry_keeps (d := x1) (ups := x2) (rewritePart_keeps (x1 := x1) h)
    refine .ite (lasting again) ?_
    have counted := logEvent_keeps (x1 := x1.check) (x2 := clsTransient) (x3 := 0) (x4 := x1) (x5 := x1.detail)
      (again.step (t := { ((s.rewritePart x1).retry x1 x2).1 with flt := ((s.rewritePart x1).retry x1 x2).1.flt.addTrans x1.part }))
    split
    · exact enqueueFault_keeps counted
    · exact counted

theorem transientLine_keeps {s : State} {x1 : Nat} (h : Keeps s0 s) : Keeps s0 (State.transientLine s x1) := by
  unfold State.transientLine
  exact logEvent_keeps h.step

theorem cleanLine_keeps {s : State} {x1 : Nat} {x2 : List Byte} (h : Keeps s0 s) : Keeps s0 (State.cleanLine s x1 x2) :=
    (acceptLine_keeps (.ite (writeBack_keeps (transientLine_keeps h)) h)).step

theorem clearAvsErr_keeps {s : State} {x1 : Word} (h : Keeps s0 s) : Keeps s0 (State.clearAvsErr s x1) := .ite (retarget_keeps (h.step)) h

theorem clearLostBuckets_keeps {s : State}  (h : Keeps s0 s) : Keeps s0 (State.clearLostBuckets s) := by
  unfold State.clearLostBuckets
  exact .ite (h.moves { ent := fun ok => { ok with overflowRows := fun _ hb => absurd hb List.not_mem_nil } }) h

theorem forms_cold (s : State) : Forms s s.cold where
  mem := fun _ => rfl
  log := id
  gait := fun _ => ⟨Nat.zero_le _, Nat.zero_le _, Nat.zero_le _, Nat.zero_le _, fun _ => Nat.zero_le _⟩
  shape := fun ⟨_, _, _, _, _, _, _, map, _, _, save⟩ =>
    ⟨⟨rfl, rfl, rfl⟩, ⟨rfl, rfl, rfl⟩, rfl, rfl, rfl, rfl, rfl, map, rfl, rfl, save⟩
  stores := fun ok => (storesOk_iff _).mpr
    ⟨⟨rfl, rfl⟩, entOk_iff.mpr ⟨rfl, List.Pairwise.nil, fun _ hx => absurd hx List.not_mem_nil, fun _ hr => absurd hr List.not_mem_nil⟩,
      arrOk_persistent, ((storesOk_iff s).mp ok).2.2.2⟩

theorem releaseStream_keeps {s : State} {x1 : Nat} (h : Keeps s0 s) : Keeps s0 (State.releaseStream s x1) := refreshHeld_keeps
    (advanceRelease_keeps h)

theorem committedOne_keeps {s : State} {x1 : Job} {x2 : Bool} {x3 : Bool} (h : Keeps s0 s) : Keeps s0 (State.committedOne s x1 x2 x3) :=
    .ite (finishJob_keeps (releaseTiles_keeps (releaseStream_keeps (.ite (modJob_keeps h) (pay_keeps (modJob_keeps h))))))
    (releaseStream_keeps (.ite (modJob_keeps h) (pay_keeps (modJob_keeps h))))

theorem commitPlace_keeps {s : State} {x1 : Job} {x2 : Nat} {x3 : JobPlace} (h : Keeps s0 s) : Keeps s0 (State.commitPlace s x1 x2 x3) :=
    committedOne_keeps (writeEntry_keeps (modPlace_keeps h))

theorem commitSpecial_keeps {s : State} {x1 : Job} {x2 : Nat} {x3 : Nat} (h : Keeps s0 s) : Keeps s0 (State.commitSpecial s x1 x2 x3) :=
    committedOne_keeps (writeEntry_keeps (countVoided_keeps h))

theorem completePatch_keeps {s : State} {x1 : PatchJob} (h : Keeps s0 s) : Keeps s0 (State.completePatch s x1) := by
  unfold State.completePatch
  split
  · exact h
  · split
    · refine Keeps.foldl _ h fun t x kept => ?_
      split
      · exact applyPatch_keeps kept
      · exact kept
    · exact h

theorem requestRelease_keeps {s : State} {x1 : Nat} {x2 : Word32} (h : Keeps s0 s) : Keeps s0 (State.requestRelease s x1 x2) :=
    releaseStream_keeps (modStream_keeps h)

theorem completeRelease_keeps {s : State} {x1 : Nat} (h : Keeps s0 s) : Keeps s0 (State.completeRelease s x1) := by
  unfold State.completeRelease
  split
  · exact h
  · exact finishJob_keeps (.ite (requestRelease_keeps h) h)

theorem copyImage_keeps {s : State} {x1 : Bool} {x2 : List Byte} (h : Keeps s0 s) : Keeps s0 (State.copyImage s x1 x2) := copyWrite_keeps
    (copyWrite_keeps h)

theorem copyPage_keeps {s : State} {x1 : State} {x2 : Nat} (h : Keeps s0 s) : Keeps s0 (State.copyPage s x1 x2) := by
  unfold State.copyPage
  split
  · exact h
  · split
    · split
      · exact write_keeps (write_keeps h)

theorem copyTwin_keeps {s : State} {x1 : Nat} (h : Keeps s0 s) : Keeps s0 (State.copyTwin s x1) := by
  unfold State.copyTwin
  extract_lets s1 planes from_ dest a clear move planeOf cells descs nums masks scales put b c
  refine arr_keeps (avoidOn_keeps h) (ArrKeeps.foldl _ ?_ fun _ _ kept => ArrKeeps.foldl _ kept fun _ _ kept => ArrKeeps.placeRows kept)
  have cleared : ArrKeeps a clear :=
    (ArrKeeps.foldl planes (.refl a) fun _ _ kept => ArrKeeps.clearPlane kept).step rfl rfl rfl
  exact cleared.step rfl rfl rfl

theorem retirePage_keeps {s : State} {x1 : Nat} (h : Keeps s0 s) : Keeps s0 (State.retirePage s x1) := by
  unfold State.retirePage
  dsimp only
  split
  · exact logEvent_keeps (copyPage_keeps (h.step))
  · exact logEvent_keeps h

theorem lastingLine_keeps {s : State} {x1 : Nat} (h : Keeps s0 s) : Keeps s0 (State.lastingLine s x1) := retirePage_keeps (logEvent_keeps
    h)

theorem correctLine_keeps {s : State} {x1 : Nat} {x2 : List Byte} (h : Keeps s0 s) : Keeps s0 (State.correctLine s x1 x2) := by
  unfold State.correctLine
  dsimp only
  have written := writeBack_keeps (x1 := x1) (x2 := x2) (acceptLine_keeps (x1 := x1) (x2 := x2)
    (h.step (t := { s with flt := { s.flt with lineCorrected := satAdd 16 s.flt.lineCorrected 1 } })))
  split
  · exact lastingLine_keeps written.step
  · exact transientLine_keeps written.step

theorem putTally_keeps {s : State} {x1 : Nat} {x2 : TallyWord} (h : Keeps s0 s) : Keeps s0 (State.putTally s x1 x2) := by
  unfold State.putTally
  exact h.moves { tally := TallyOk.word }

theorem logTally_keeps {s : State} {x1 : Nat} (h : Keeps s0 s) : Keeps s0 (State.logTally s x1) := logEvent_keeps h

theorem correctWord_keeps {s : State} {x1 : Nat} {x2 : Word} (h : Keeps s0 s) : Keeps s0 (State.correctWord s x1 x2) := by
  unfold State.correctWord
  dsimp only
  have put := putTally_keeps (x1 := x1) (x2 := ⟨x2, 0⟩) h
  split
  · exact logTally_keeps put.step
  · exact put.step

theorem countVoid_keeps {s : State} {x1 : Nat} {x2 : Nat} (h : Keeps s0 s) : Keeps s0 (State.countVoid s x1 x2) := modStream_keeps h

theorem cutFrame_keeps {s : State} {x1 : Nat} {x2 : List Byte} (h : Keeps s0 s) : Keeps s0 (State.cutFrame s x1 x2) := by
  unfold State.cutFrame
  have counted : Keeps s0 { s with link := s.link.modify x1 (fun l => { l with cut := satAdd 16 l.cut 1 }) } :=
    h.moves { shape := by simp only [shapeOf, List.length_modify]; exact id }
  split
  · exact h
  · dsimp only
    refine .ite counted.step ?_
    split
    · exact counted
    · exact addDiscard_keeps counted

theorem discard_keeps {s : State}  (h : Keeps s0 s) : Keeps s0 (State.discard s) := by
  unfold State.discard
  refine .ite h (retarget_keeps ?_)
  exact h.trans ⟨id, id, id, id, fun ⟨live, _, rest⟩ => ⟨live, live, rest⟩, id⟩

theorem reserve_keeps {s : State} {x1 : Nat} (h : Keeps s0 s) : Keeps s0 (State.reserve s x1) := ledgerMoved_keeps (h.step)

theorem dispatch_keeps {s : State} {x1 : Nat} {x2 : BitVec 512} (h : Keeps s0 s) : Keeps s0 (State.dispatch s x1 x2) := by
  unfold State.dispatch
  extract_lets j s1 jobs s2 s3 ent s4 s5
  have tiles : Keeps s0 s3 := acquireTiles_keeps (modRing_keeps h).onto
  have seated : Keeps s0 s4 := by
    simp only [s4]
    exact .ite (tiles.moves { ent := fun ok => { ok with newRows := fun _ hj _ hr => by cases hj; cases hr } }) tiles
  exact .ite (completeRelease_keeps (reserve_keeps seated)) (reserve_keeps seated)

theorem retirePlace_keeps {s : State} {x1 : Bool} {x2 : Nat} (h : Keeps s0 s) : Keeps s0 (State.retirePlace s x1 x2) := .ite
    (logEvent_keeps h) (logEvent_keeps ((logEvent_keeps h).step))

theorem voidBuffer_keeps {s : State} {x1 : Head} (h : Keeps s0 s) : Keeps s0 (State.voidBuffer s x1) := by
  unfold State.voidBuffer
  dsimp only
  refine Keeps.foldl _ ?_ fun _ _ kept => bufferPlace_keeps kept
  split
  · exact .ite (retirePlace_keeps (.ite (retirePlace_keeps h) h)) (.ite (retirePlace_keeps h) h)
  · exact .ite (retirePlace_keeps h) h

theorem rereadBuffer_keeps {s : State} {x1 : Head} (h : Keeps s0 s) : Keeps s0 (State.rereadBuffer s x1) := by
  unfold State.rereadBuffer
  dsimp only
  exact modHead_keeps h.step

theorem enter_keeps {s : State} {x1 : Group} {x2 : Job} {x3 : Head} {x4 : Nat} {x5 : Nat} {x6 : Bool} {x7 : ModelDef} {x8 : List Upset}
    (h : Keeps s0 s) : Keeps s0 (State.enter s x1 x2 x3 x4 x5 x6 x7 x8) := by
  unfold State.enter
  dsimp only
  generalize loaded : s.loadBuffers x1 (x3.features x7 (x2.op == opTremolo) x5) x8 = s1
  have kept : Keeps s0 s1 := loaded ▸ loadBuffers_keeps h
  split
  · exact failAttempt_keeps (modPlace_keeps kept).onto
  · exact (modPlace_keeps kept).onto

theorem dispatchPick_keeps {s : State} {x1 : Group} {x2 : Pick} {x3 : Nat} {x4 : Nat} {x5 : Nat} {x6 : Bool} {x7 : List Upset} (h : Keeps
    s0 s) : Keeps s0 (State.dispatchPick s x1 x2 x3 x4 x5 x6 x7) := by
  unfold State.dispatchPick
  split
  · exact modGroup_keeps h
  · split
    · exact h
    · exact .ite (voidBuffer_keeps h) (enter_keeps (modGroup_keeps (.ite (rereadBuffer_keeps h) h)))

theorem sendQ_keeps {s : State} {x1 : Job} {x2 : Nat} {x3 : Head} (h : Keeps s0 s) : Keeps s0 (State.send? s x1 x2 x3) := by
  unfold State.send?
  split
  · exact voidPlace_keeps h
  · exact modGroup_keeps (ensurePlace_keeps h)

theorem offer_keeps {s : State} {x1 : Nat} (h : Keeps s0 s) : Keeps s0 (State.offer s x1) := by
  unfold State.offer
  split
  · exact h
  · next j _ =>
    dsimp only
    refine .ite h (.ite (modJob_keeps h) (.ite (pay_keeps (modJob_keeps (modJob_keeps h))) ?_))
    split
    · exact h
    · exact .ite (pay_keeps (modJob_keeps (modJob_keeps h))) (modJob_keeps (sendQ_keeps h))

theorem fillRun_keeps {s : State} {x1 : Group} {x2 : Nat} {x3 : Nat} (h : Keeps s0 s) : Keeps s0 (State.fillRun s x1 x2 x3) := by
  unfold State.fillRun
  dsimp only
  split
  · exact .ite (Keeps.foldl _ h fun _ _ kept => offer_keeps kept) (modGroup_keeps (Keeps.foldl _ h fun _ _ kept => offer_keeps kept))
  · exact Keeps.foldl _ h fun _ _ kept => offer_keeps kept

theorem dispatchGroup_keeps {s : State} {x1 : Group} {x2 : Bool} {x3 : List Upset} (h : Keeps s0 s) : Keeps s0 (State.dispatchGroup s x1
    x2 x3) := by
  unfold State.dispatchGroup
  split
  · exact h
  · exact dispatchPick_keeps h
  · exact dispatchPick_keeps h
  · exact dispatchPick_keeps h
  · exact .ite (fillRun_keeps (dispatchPick_keeps h)) (dispatchPick_keeps h)

theorem dropAttempt_keeps {s : State} {x1 : Nat} (h : Keeps s0 s) : Keeps s0 (State.dropAttempt s x1) := h.step

theorem endGroup_keeps {s : State} {x1 : Group} (h : Keeps s0 s) : Keeps s0 (State.endGroup s x1) := by
  unfold State.endGroup
  extract_lets ps spots wipe live arr rest groups faults s1
  have wiped : ArrKeeps s.arr arr := by
    refine ArrKeeps.foldl _ (.refl _) fun a x kept => ArrKeeps.foldl _ kept fun b π kept => ?_
    split
    · exact kept
    · exact ArrKeeps.step (a := b.clearPlane x.1 (s.physOf x.2) π) (ArrKeeps.clearPlane kept) rfl rfl rfl
  have ended : Keeps s0 s1 := (arr_keeps h wiped).step
  exact .ite ended ended.step

theorem endJob_keeps {s : State} {x1 : Bool} {x2 : Job} {x3 : Nat} {x4 : Nat} (h : Keeps s0 s) : Keeps s0 (State.endJob s x1 x2 x3 x4) :=
    .ite (dropJob_keeps (releaseTiles_keeps (finishJob_keeps h))) (modJob_keeps (finishJob_keeps h))

theorem endJobs_keeps {s : State} {x1 : Bool} (h : Keeps s0 s) : Keeps s0 (State.endJobs s x1) := by
  unfold State.endJobs
  dsimp only
  have patched : Keeps s0 (s.jobs.patches.foldl State.completePatch s) := Keeps.foldl _ h fun _ _ kept => completePatch_keeps kept
  generalize s.jobs.patches.foldl State.completePatch s = s1 at patched
  refine Keeps.onto (Keeps.foldl _ patched fun t x kept => ?_)
  split
  · exact kept
  · exact endJob_keeps kept

theorem endLoad_keeps {s : State} {x1 : Load} {x2 : LoadFail} {x3 : Nat} {x4 : List Byte} {x5 : List Byte} (h : Keeps s0 s) : Keeps s0
    (State.endLoad s x1 x2 x3 x4 x5) := by
  unfold State.endLoad
  dsimp only
  exact finishJob_keeps (write_keeps h).onto

theorem endRecord_keeps {s : State} {x1 : Attempt} (h : Keeps s0 s) : Keeps s0 (State.endRecord s x1) := by
  unfold State.endRecord
  dsimp only
  exact (dropAttempt_keeps h).onto

theorem endRecovery_keeps {s : State} {x1 : Detected} (h : Keeps s0 s) : Keeps s0 (State.endRecovery s x1) := .ite (h.step)
    (modGroup_keeps (h.step))

theorem endReplay_keeps {s : State}  (h : Keeps s0 s) : Keeps s0 (State.endReplay s) := by
  unfold State.endReplay
  dsimp only
  refine Keeps.onto (Keeps.foldl _ h fun t j kept => ?_)
  exact .ite (rewriteFrom_keeps kept) kept

theorem modWindow_keeps {s : State} {x1 : Nat} {x2 : Word32} {x3 : WindowRecord → WindowRecord} (h : Keeps s0 s) : Keeps s0
    (State.modWindow s x1 x2 x3) := h.step

theorem enterLane_keeps {s : State} {x1 : Lane} (h : Keeps s0 s) : Keeps s0 (State.enterLane s x1) := .ite (modPair_keeps h)
    (modWindow_keeps h)

theorem Forms.enterReset {s : State} (h : Forms s0 s) : Keeps s0 s.enterReset := by
  unfold State.enterReset
  refine Forms.refreshFault (h.moves { shape := ?_ })
  simp only [shapeOf, List.length_map]
  exact id

theorem enterReset_keeps {s : State} (h : Keeps s0 s) : Keeps s0 (State.enterReset s) := h.forms.enterReset

theorem markLost_keeps {s : State} {x1 : Nat} (h : Keeps s0 s) : Keeps s0 (State.markLost s x1) := logEvent_keeps (h.step)

theorem loseEntity_keeps {s : State} {x1 : Nat} {x2 : Nat} (h : Keeps s0 s) : Keeps s0 (State.loseEntity s x1 x2) := by
  unfold State.loseEntity
  dsimp only
  refine .ite (Keeps.foldl _ h fun _ _ kept => writeMirror_keeps kept) (.ite (entWrite_keeps h) (.ite (logEvent_keeps ?_) (markLost_keeps
      h)))
  exact h.entMoves fun _ ok => ok.modBucket _ (bucket_rows_below ok _)

theorem loseHarness_keeps {s : State} {x1 : Nat} {x2 : Nat} (h : Keeps s0 s) : Keeps s0 (State.loseHarness s x1 x2) := by
  unfold State.loseHarness
  dsimp only
  split
  · exact writeBack_keeps h
  · exact .ite (writeBack_keeps h) (logEvent_keeps ((writeBack_keeps h).step))

theorem loseBoth_keeps {s : State} {x1 : Nat} {x2 : Nat} (h : Keeps s0 s) : Keeps s0 (State.loseBoth s x1 x2) := .ite (loseHarness_keeps
    h) (.ite (logEvent_keeps (breakPending_keeps h)) h)

theorem issueRead_keeps {s : State} {x1 : Nat} (h : Keeps s0 s) : Keeps s0 (State.issueRead s x1) := by
  unfold State.issueRead
  dsimp only
  have asked (m line : Nat) : Keeps s0 { s with link := s.link.modify m (fun l => { l with requests := l.requests ++ [line] }) } :=
    h.moves { shape := by simp only [shapeOf, List.length_modify]; exact id }
  exact .ite (send_keeps (asked _ _)) (asked _ _)

theorem loseCopy_keeps {s : State} {x1 : Nat} {x2 : Nat} (h : Keeps s0 s) : Keeps s0 (State.loseCopy s x1 x2) := by
  unfold State.loseCopy
  split
  · exact loseBoth_keeps h
  · exact .ite (loseBoth_keeps (h.step)) (issueRead_keeps (h.step))

theorem loseLine_keeps {s : State} {x1 : Nat} (h : Keeps s0 s) : Keeps s0 (State.loseLine s x1) := by
  unfold State.loseLine
  split
  · exact loseEntity_keeps h
  · exact loseCopy_keeps h
  · exact loseCopy_keeps h
  · exact h

theorem failLine_keeps {s : State} {x1 : Nat} (h : Keeps s0 s) : Keeps s0 (State.failLine s x1) := .ite (loseLine_keeps
    (lastingLine_keeps ((h.step).step))) (issueRead_keeps ((h.step).step))

theorem failMount_keeps {s : State} {x1 : MountFail} (h : Keeps s0 s) : Keeps s0 (State.failMount s x1) := endMount_keeps (retarget_keeps
    (thaw_keeps (h.step)))

theorem fillLanes_keeps {s : State} {x1 : Nat} (h : Keeps s0 s) : Keeps s0 (State.fillLanes s x1) := by
  induction x1 generalizing s with
  | zero => exact h
  | succ n ih =>
    unfold State.fillLanes
    split
    · dsimp only
      refine ih ((enterLane_keeps h).moves { shape := ?_ })
      simp only [shapeOf, List.length_set]
      exact id
    · exact h

theorem unstrand_keeps {s : State} (h : Keeps s0 s) : Keeps s0 (State.unstrand s) := by
  unfold State.unstrand
  refine (List.foldlRecOn (motive := fun t => Keeps s0 t ∧ t.live = s.live) _ _ ⟨h, rfl⟩ fun t kept x stranded => ?_).1
  obtain ⟨kept, live⟩ := kept
  dsimp only
  split
  · exact ⟨kept, live⟩
  · next e put =>
    constructor
    · refine writeKey_keeps (kept.entMoves fun ok table => ?_)
      have row : x.row < t.live.entRows + 256 := live ▸ ((storesOk_iff s).mp (h.stores ok)).2.1.strandedRows x stranded
      have fewer : EntOk (t.live.entRows + 256) { t.ent with stranded := t.ent.stranded.filter (fun y => y.key != x.key) } :=
        { table with strandedRows := fun y hy => table.strandedRows y (List.mem_of_mem_filter hy) }
      exact fewer.place row put
    · exact (JobEntries.live_eq_of_onlyChanges (fs := [.ent, .flt, .mem])
        (State.writeKey_frame _ _ _ (OnlyChanges.refl _ _) (by decide) (by decide) (by decide)) (by decide)).trans live

theorem finishEvict_keeps {s : State} {x1 : EntityJob} (h : Keeps s0 s) : Keeps s0 (State.finishEvict s x1) := by
  unfold State.finishEvict
  dsimp only
  refine refreshHeld_keeps (finishJob_keeps (Keeps.moves ?_ { ent := fun ok => ok.noJob }))
  exact clearLostBuckets_keeps (unstrand_keeps (Keeps.foldl _ h fun _ _ kept => applyEvict_keeps kept))

theorem finishUpdate_keeps {s : State} {e : EntityJob} (h : Keeps s0 s) (rows : StoresOk s0 → ∀ r ∈ e.newRows, r < s.live.entRows + 256) :
    Keeps s0 (State.finishUpdate s e) := by
  unfold State.finishUpdate
  dsimp only
  refine refreshHeld_keeps (finishJob_keeps (Keeps.moves (unstrand_keeps ?_) { ent := fun ok => ok.noJob }))
  refine (List.foldlRecOn (motive := fun t => Keeps s0 t ∧ t.live = s.live) _ _ ⟨h, rfl⟩ fun t kept p listed => ?_).1
  obtain ⟨kept, live⟩ := kept
  refine ⟨applyUpdate_keeps kept fun ok => ?_, ?_⟩
  · exact live ▸ rows ok _ (List.of_mem_zip listed).2
  · exact (JobEntries.live_eq_of_onlyChanges (fs := [.ent, .flt, .mem])
      (State.applyUpdate_frame _ _ _ (OnlyChanges.refl _ _) (by decide) (by decide) (by decide)) (by decide)).trans live

theorem freeLane_keeps {s : State} {x1 : Nat} (h : Keeps s0 s) : Keeps s0 (State.freeLane s x1) := by
  unfold State.freeLane
  exact h.moves { shape := by simp only [shapeOf, List.length_set]; exact id }

theorem requestMount_keeps {s : State} {x1 : MountRequest} (h : Keeps s0 s) : Keeps s0 (State.requestMount s x1) := nextMount_keeps
    (h.step)

theorem goMount_keeps {s : State} (h : Keeps s0 s) : Keeps s0 (State.goMount s) := .ite (h.step) (requestMount_keeps h)

theorem readHead_keeps {s : State} {x1 : Nat} (h : Keeps s0 s) : Keeps s0 (State.readHead s x1) := .ite h (modRing_keeps h)

theorem haltBad_keeps {s : State} (h : Keeps s0 s) : Keeps s0 (State.haltBad s) := Keeps.foldl _ h fun _ _ kept => .ite (readHead_keeps
    kept) kept

theorem holdPlace_keeps {s : State} {x1 : Job} {x2 : JobPlace} (h : Keeps s0 s) : Keeps s0 (State.holdPlace s x1 x2) := settle_keeps
    (modPlace_keeps (.ite (countVoided_keeps h) h))

theorem voidEntity_keeps {s : State} {x1 : WindowRecord} (h : Keeps s0 s) : Keeps s0 (State.voidEntity s x1) := by
  unfold State.voidEntity
  dsimp only
  exact modWindow_keeps (h.moves { ent := fun ok => { ok with } })

theorem joined_keeps {s : State} {x1 : WindowRecord} {x2 : EntityRow} (h : Keeps s0 s) : Keeps s0 (State.joined s x1 x2) :=
    modWindow_keeps h

theorem joinEntry_keeps {s : State} {x1 : WindowRecord} {x2 : EntityEntry} (h : Keeps s0 s) : Keeps s0 (State.joinEntry s x1 x2) := by
  unfold State.joinEntry
  dsimp only
  refine .ite (voidEntity_keeps h) (.ite (joined_keeps (cacheRow_keeps h)) ?_)
  exact voidEntity_keeps (writeKey_keeps (h.moves { ent := fun ok => ok.modEntry fun _ row => row }))

theorem forms_kept (s : State) : Forms s s.kept where
  mem := id
  log := id
  gait := fun ⟨now, requested, _, _, moving⟩ => ⟨now, requested, Nat.zero_le _, Nat.zero_le _, moving⟩
  shape := fun ⟨live, _, rings, channels, _, _, link, map, _, _, save⟩ =>
    ⟨live, live, rings, by simpa [State.kept] using channels, rfl, rfl, by simpa [State.kept] using link, map, rfl, rfl, save⟩
  stores := fun ok =>
    have ⟨tally, ent, arr, save⟩ := (storesOk_iff s).mp ok
    (storesOk_iff _).mpr ⟨tally, { ent with newRows := fun _ hj => by cases hj }, arr, save⟩

theorem leaveLane_keeps {s : State} {x1 : WindowRecord} {x2 : Nat} {x3 : Supplied} (h : Keeps s0 s) : Keeps s0 (State.leaveLane s x1 x2
    x3) := by
  unfold State.leaveLane
  dsimp only
  split
  · exact countVoid_keeps (modWindow_keeps h)
  · exact blockRecordDone_keeps (countVoid_keeps (modWindow_keeps h))

theorem unseat_keeps {s : State} {x1 : Nat} {x2 : Nat} {x3 : Option Nat} {x4 : Option Nat} {x5 : Bool} {x6 : Bool} (h : Keeps s0 s) :
    Keeps s0 (State.unseat s x1 x2 x3 x4 x5 x6) := .ite (modPair_keeps (modStream_keeps (modStream_keeps h))) (notifyIf_keeps
    (modPair_keeps (modStream_keeps (modStream_keeps h))))

theorem scaleFailed_keeps {s : State} {x1 : Nat} {x2 : Nat} {x3 : Nat} (h : Keeps s0 s) : Keeps s0 (State.scaleFailed s x1 x2 x3) :=
    unseat_keeps h

theorem leaveScale_keeps {s : State} {x1 : Lane} {x2 : Bool} (h : Keeps s0 s) : Keeps s0 (State.leaveScale s x1 x2) := by
  unfold State.leaveScale
  split
  · exact h
  · dsimp only
    split
    · exact scaleFailed_keeps h
    · exact modPair_keeps h

theorem loadGroup_keeps {s : State} {x1 : Image} {x2 : List Disposition} {x3 : GroupDef} (h : Keeps s0 s) : Keeps s0 (State.loadGroup s
    x1 x2 x3) := by
  unfold State.loadGroup
  dsimp only
  refine arr_keeps h (ArrKeeps.foldl _ (ArrKeeps.step (a := List.foldl _ s.arr _) ?_ rfl rfl rfl) fun _ _ kept =>
    ArrKeeps.foldl _ kept fun _ _ kept => ArrKeeps.fill kept)
  exact ArrKeeps.foldl _ (.refl _) fun _ _ kept => ArrKeeps.foldl _ kept fun _ _ kept => ArrKeeps.clearPlane kept

theorem loadTwin_keeps {s : State} {x1 : List (Nat × Nat)} {x2 : Nat} {x3 : Nat} (h : Keeps s0 s) : Keeps s0 (State.loadTwin s x1 x2 x3)
    := .ite (checkTwin_keeps (copyTwin_keeps h)) h

theorem lookupJoin_keeps {s : State} {x1 : WindowRecord} {x2 : Bool} (h : Keeps s0 s) : Keeps s0 (State.lookupJoin s x1 x2) := by
  unfold State.lookupJoin
  split
  · exact joined_keeps (cacheRow_keeps h)
  · dsimp only
    split
    · exact joined_keeps (checkParity_keeps h)
    · exact voidEntity_keeps (checkParity_keeps h)
    · exact joinEntry_keeps (checkParity_keeps h)

theorem loseWord_keeps {s : State} {x1 : Nat} (h : Keeps s0 s) : Keeps s0 (State.loseWord s x1) := by
  unfold State.loseWord
  dsimp only
  split
  · exact h
  · exact logTally_keeps (modTile_keeps h).onto

theorem markReplay_keeps {s : State} {x1 : Bool} (h : Keeps s0 s) : Keeps s0 (State.markReplay s x1) := (Keeps.foldl _ h fun _ _ kept =>
    claimAll_keeps kept).step

theorem modModule_keeps {s : State} {x1 : Nat} {x2 : LinkModule → LinkModule} (h : Keeps s0 s) : Keeps s0 (State.modModule s x1 x2) := by
  unfold State.modModule
  exact h.moves { shape := by simp only [shapeOf, List.length_modify]; exact id }

theorem nextOrder_keeps {s : State} (h : Keeps s0 s) : Keeps s0 (State.nextOrder s) := h.step

theorem pairWith_keeps {s : State} {x1 : Nat} {x2 : Nat} {x3 : Word32} {x4 : HeldScale} (h : Keeps s0 s) : Keeps s0 (State.pairWith s x1
    x2 x3 x4) := modStream_keeps (modPair_keeps h)

theorem startStream_keeps {s : State} {x1 : Nat} {x2 : Word32} (h : Keeps s0 s) : Keeps s0 (State.startStream s x1 x2) := modStream_keeps
    h

theorem takePlace_keeps {s : State} {x1 : Nat} {x2 : Word32} {x3 : Word} {x4 : Nat} {x5 : WindowPhase} {x6 : List Byte} {x7 : Nat} {x8 :
    Option BlockRef} (h : Keeps s0 s) : Keeps s0 (State.takePlace s x1 x2 x3 x4 x5 x6 x7 x8) := by
  unfold State.takePlace
  dsimp only
  exact (nextOrder_keeps (modStream_keeps (startStream_keeps h))).onto

theorem placeRecord_keeps {s : State} {x1 : FrameHeader} {x2 : List Byte} {x3 : Nat} {x4 : Bool} {x5 : Option BlockRef} (h : Keeps s0 s)
    : Keeps s0 (State.placeRecord s x1 x2 x3 x4 x5) := by
  unfold State.placeRecord
  dsimp only
  split
  · exact takePlace_keeps h
  · split
    · exact countVoid_keeps (takePlace_keeps h)
    · exact blockRecordDone_keeps (countVoid_keeps (takePlace_keeps h))

theorem pollStatus_keeps {s : State} {x1 : Bool} {x2 : Bool} (h : Keeps s0 s) : Keeps s0 (State.pollStatus s x1 x2) := by
  unfold State.pollStatus
  dsimp only
  refine send_keeps (h.moves
    { gait := fun ok => by split <;> exact ok
      shape := by simp only [shapeOf, apply_ite GaitState.sensors, GaitState.failed, ite_self]; exact id })

theorem pairBlock_keeps {s : State} {a b : Nat} {q : Word32} {k : Nat} (h : Keeps s0 s) : Keeps s0 (s.pairBlock a b q k).2 := by
  unfold State.pairBlock
  split
  · exact unseat_keeps h
  · split
    · exact unseat_keeps h
    · exact pairWith_keeps h

theorem admitScale_keeps {s t : State} {r : Route} {x : FrameHeader} {f : List Byte} {c : Bool} (h : Keeps s0 s)
    (admitted : s.admitScale r x f c = .done t) : Keeps s0 t := by
  unfold State.admitScale at admitted
  dsimp only at admitted
  split at admitted
  · cases admitted
    exact addDiscard_keeps h
  · split at admitted
    · cases admitted
      exact addDiscard_keeps h
    · split at admitted
      · cases admitted
      · have started := nextOrder_keeps (modStream_keeps (x1 := x.stream) (x2 := fun y => { y with next := x.seq + 1 })
          (startStream_keeps (x1 := x.stream) (x2 := x.seq) h))
        split at admitted
        · cases admitted
          exact scaleFailed_keeps started
        · cases admitted
          exact modPair_keeps started

theorem admitRecord_keeps {s t : State} {r : Route} {x : FrameHeader} {f : List Byte} {c b : Bool} (h : Keeps s0 s)
    (admitted : s.admitRecord r x f c b = .done t) : Keeps s0 t := by
  unfold State.admitRecord at admitted
  dsimp only at admitted
  split at admitted
  · cases admitted
    exact addDiscard_keeps h
  · split at admitted
    · cases admitted
      exact addDiscard_keeps h
    · split at admitted
      · cases admitted
        exact .ite (addHdrErr_keeps h) (addDiscard_keeps h)
      · split at admitted
        · cases admitted
          exact addDiscard_keeps h
        · split at admitted
          · cases admitted
          · split at admitted
            · have started := startStream_keeps (x1 := x.stream) (x2 := x.seq) h
              have paired (p : Bool × State) (eq : (if x.seq.toNat % 64 = 0 then
                  (s.startStream x.stream x.seq).pairBlock x.stream r.partner x.seq x.block else (true, s.startStream x.stream x.seq)) =
                      p) :
                  Keeps s0 p.2 := by
                rw [← eq]
                split
                · exact pairBlock_keeps started
                · exact started
              split at admitted
              · next pairing =>
                cases admitted
                exact paired _ pairing
              · next pairing =>
                split at admitted
                · cases admitted
                  exact addDiscard_keeps (paired _ pairing)
                · cases admitted
                  exact placeRecord_keeps (paired _ pairing)
            · cases admitted
              exact placeRecord_keeps h

theorem admitFrame_keeps {s t : State} {f : List Byte} {c : Bool} (h : Keeps s0 s) (admitted : s.admitFrame f c = .done t) : Keeps s0 t
    := by
  unfold State.admitFrame at admitted
  dsimp only at admitted
  split at admitted
  · cases admitted
    exact addBadGen_keeps h
  · split at admitted
    · cases admitted
      exact addHdrErr_keeps h
    · split at admitted
      · cases admitted
        exact .ite (addHdrErr_keeps h) (addUnrouted_keeps h)
      · split at admitted
        · cases admitted
          exact addHdrErr_keeps h
        · split at admitted
          · cases admitted
            exact addDiscard_keeps h
          · split at admitted
            · exact admitScale_keeps h admitted
            · exact admitRecord_keeps h admitted

theorem pumpModule_keeps {s : State} {x1 : Nat} {x2 : Nat} (h : Keeps s0 s) : Keeps s0 (State.pumpModule s x1 x2) := by
  induction x2 generalizing s with
  | zero => exact h
  | succ n ih =>
    unfold State.pumpModule
    split
    · exact h
    · split
      · exact h
      · split
        · exact h
        · next t admitted => exact ih (admitFrame_keeps h admitted).step

theorem pump_keeps {s : State} (h : Keeps s0 s) : Keeps s0 (State.pump s) := refreshHeld_keeps (fillLanes_keeps (pumpModule_keeps
    (pumpModule_keeps h)))

theorem putAttempt_keeps {s : State} {x1 : Attempt} {x2 : Option Detected} (h : Keeps s0 s) : Keeps s0 (State.putAttempt s x1 x2) := by
  unfold State.putAttempt
  dsimp only
  split
  · exact failAttempt_keeps (modAttempt_keeps h)
  · exact modAttempt_keeps h

theorem putGathered_keeps {s : State} {x1 : Gathered} (h : Keeps s0 s) : Keeps s0 (State.putGathered s x1) := h.step

theorem refuseEntity_keeps {s : State} {x1 : Job} {x2 : Nat × Nat × Bool} (h : Keeps s0 s) : Keeps s0 (State.refuseEntity s x1 x2) := by
  unfold State.refuseEntity
  exact finishJob_keeps (h.moves { ent := fun ok => { ok.noJob with } })

theorem reissue_keeps {s : State} {x1 : Nat} {x2 : Nat} (h : Keeps s0 s) : Keeps s0 (State.reissue s x1 x2) := by
  unfold State.reissue
  dsimp only
  refine Keeps.foldl _ (Keeps.foldl _ ((modModule_keeps (modModule_keeps h)).moves { shape := ?_ }) fun _ _ kept => send_keeps kept)
    fun _ _ kept => send_keeps kept
  simp only [shapeOf, List.length_map]
  exact id

theorem reload_keeps {s : State}  (h : Keeps s0 s) : Keeps s0 (State.reload s) := by
  unfold State.reload
  dsimp only
  have emptied : Keeps s0 { s with
      arr := s.arr.emptied
      grp := { s.grp with groups := s.grp.groups.map (fun g => { g with gen := s.lowestGen g }) } } := 
    h.moves { arr := fun _ => arrOk_emptied, shape := fun ok => ok }
  exact Keeps.foldl _ emptied fun _ _ kept => fillPosition_keeps kept

theorem repayVoids_keeps {s : State} {x1 : Job} (h : Keeps s0 s) : Keeps s0 (State.repayVoids s x1) := modJob_keeps (Keeps.foldl _ h fun
    _ _ kept => countVoided_keeps kept)

theorem replayOne_keeps {s : State} {x0 : Bool} {x2 : Job × Head × JobPlace} (h : Keeps s0 s) : Keeps s0 (State.replayOne x0 s x2) := by
  unfold State.replayOne
  dsimp only
  refine .ite h (.ite ?_ ?_)
  · split
    · exact .ite (voidBuffer_keeps h) h
    · exact h
  · split
    · exact holdPlace_keeps h
    · exact voidPlace_keeps h
    · exact .ite (modGroup_keeps h) h

theorem reportThermal_keeps {s : State} {x1 : Bool} (h : Keeps s0 s) : Keeps s0 (State.reportThermal s x1) := .ite h (notifyIf_keeps
    (logEvent_keeps (.ite h (h.step))))

theorem forms_restore {s : State} {sv : Save} {kept : Bool} (saved : s.bag.save = some sv) : Forms s (s.restore sv kept) := by
  have cold := forms_cold s
  refine ⟨cold.mem, cold.log, cold.gait, fun ok => ?_, fun ok => ?_⟩
  · obtain ⟨live, shadow, _, channels, lanes, sensors, link, map, curry, cycles, save⟩ := cold.shape ok
    exact ⟨live, shadow, save sv saved, channels, lanes, sensors, link, map, curry, cycles, save⟩
  · obtain ⟨tally, -, -, save⟩ := (storesOk_iff s).mp ok
    obtain ⟨-, ent, arr, -⟩ := (storesOk_iff _).mp (cold.stores ok)
    exact (storesOk_iff _).mpr ⟨tally.restored (save sv saved), ent, arr, save⟩

theorem runAhead_keeps {s : State} {x1 : Word} (h : Keeps s0 s) : Keeps s0 (State.runAhead s x1) := by
  unfold State.runAhead
  split
  · exact h.moves { ent := fun ok => { ok with } }
  · exact h
  · exact .ite h (cacheRow_keeps h)

theorem scoreStep_keeps {s : State} {x1 : Nat} {x2 : Nat} (h : Keeps s0 s) : Keeps s0 (State.scoreStep s x1 x2) := by
  unfold State.scoreStep
  split
  · exact h
  · exact offer_keeps (modJob_keeps h)

theorem secondPass_keeps {s : State} {x1 : Load} {x2 : Option (Nat × Nat × Nat × Nat)} (h : Keeps s0 s) : Keeps s0 (State.secondPass s x1
    x2) := by
  unfold State.secondPass
  dsimp only
  have dropped := dropPending_keeps h
  split
  · exact endLoad_keeps dropped
  · refine .ite (endLoad_keeps dropped) (.ite (endLoad_keeps dropped) (.ite (endLoad_keeps dropped) ?_))
    split
    · exact endLoad_keeps dropped
    · have loaded (img : Image) (gs : List GroupDef) : Keeps s0 (gs.foldl (fun t g => t.loadGroup img x1.disp g) s.dropPending) :=
        Keeps.foldl _ dropped fun _ _ kept => loadGroup_keeps kept
      exact endLoad_keeps (copyImage_keeps (loaded _ _).onto)

theorem selectTap_keeps {s : State} {t : Tap} (h : Keeps s0 s) : Keeps s0 (State.selectTap s t) := by
  unfold State.selectTap
  split
  · exact Forms.refreshFault (h.forms.moves {})
  · next other =>
    have moved : Forms s { s with tap := t } := forms_of_moves {}
    exact h.trans ⟨moved.mem, moved.log, moved.gait, fun pin => .inr (pin.resolve_left other), moved.shape, moved.stores⟩

theorem setSaturated_keeps {s : State} {x1 : Nat} (h : Keeps s0 s) : Keeps s0 (State.setSaturated s x1) := modTile_keeps h

theorem stageWrite_keeps {s : State} {x1 : Nat} {x2 : Word} (h : Keeps s0 s) : Keeps s0 (State.stageWrite s x1 x2) := by
  unfold State.stageWrite
  refine .ite h.step (retarget_keeps (h.moves { shadow := fun ok => stagedShape_stage _ _ ok }))

theorem writeRows_keeps {s : State} {x1 : List UpdateEntry} (h : Keeps s0 s) : Keeps s0 (State.writeRows s x1) := by
  induction x1 generalizing s with
  | nil => exact h
  | cons u us ih =>
    unfold State.writeRows
    split
    · exact h
    · next r free =>
      dsimp only
      refine ih (entWrite_keeps (h.moves { ent := fun ok => { ok.setRow r _ with newRows := fun j hj x hx => ?_ } }))
      obtain ⟨e, job, rfl⟩ := Option.map_eq_some_iff.mp hj
      rcases List.mem_append.mp hx with hx | hx
      · exact ok.newRows e job x hx
      · rw [List.mem_singleton.mp hx]
        exact lowestFree_lt free

theorem startEntity_keeps {s : State} {x1 : Job} {x2 : Bool} (h : Keeps s0 s) : Keeps s0 (State.startEntity s x1 x2) := by
  unfold State.startEntity
  extract_lets es s1
  have begun : Keeps s0 s1 := modJob_keeps (checkKeys_keeps h)
  split
  · exact refuseEntity_keeps begun
  · have seated : Keeps s0 { s1 with ent := { s1.ent with job := some ⟨x1.id, x1.op == opEntEvict, es, [], 1⟩ } } :=
      begun.moves { ent := fun ok => { ok with newRows := fun _ hj _ hr => by cases hj; cases hr } }
    exact .ite seated (writeRows_keeps seated)

theorem startRetrain_keeps {s : State} {x1 : Nat} (h : Keeps s0 s) : Keeps s0 (State.startRetrain s x1) := by
  unfold State.startRetrain
  exact h.moves { shape := by simp only [shapeOf, List.length_modify]; exact id }

theorem storeTally_keeps {s : State} {x1 : List Nat} {x2 : Nat} {x3 : Word} (h : Keeps s0 s) : Keeps s0 (State.storeTally s x1 x2 x3) :=
    .ite (modTile_keeps (putTally_keeps h)) (putTally_keeps h)

theorem submit_keeps {s : State} {x1 : Nat} {x2 : Word32} (h : Keeps s0 s) : Keeps s0 (State.submit s x1 x2) := .ite (.ite
    (readHead_keeps (modRing_keeps h)) h) (.ite (.ite (readHead_keeps (modRing_keeps (h.step))) (modRing_keeps (h.step))) (modRing_keeps
    h))

theorem switchGroup_keeps {s : State} {x1 : Group} {x2 : List (Nat × Nat)} (h : Keeps s0 s) : Keeps s0 (State.switchGroup s x1 x2) :=
    retarget_keeps (.ite (Keeps.foldl _ (modGroup_keeps h) fun _ _ kept => loadTwin_keeps kept) (.ite (Keeps.foldl _ (modGroup_keeps h)
    fun _ _ kept => freeTwin_keeps kept) (modGroup_keeps h)))

theorem takeHead_keeps {s : State} {x1 : Nat} {x2 : Word32} (h : Keeps s0 s) : Keeps s0 (State.takeHead s x1 x2) := .ite h (modRing_keeps
    h)

theorem readTally_keeps {s : State} {w : Nat} (h : Keeps s0 s) : Keeps s0 (s.readTally w).2 := by
  unfold State.readTally
  dsimp only
  split
  · exact correctWord_keeps h
  · split
    · exact loseWord_keeps h
    · exact h.step

theorem noteSaturation_keeps {s : State} {k : Kept} {w : Nat} {b : Bool} (h : Keeps s0 s) : Keeps s0 (s.noteSaturation k w b).1 := by
  unfold State.noteSaturation
  split
  · exact setSaturated_keeps h
  · exact h

theorem addStandard_keeps {s : State} {a : Bool} {b : List Nat} {x : Addend} {k : Kept} (h : Keeps s0 s) : Keeps s0 (s.addStandard a b x
    k).1 := by
  unfold State.addStandard
  dsimp only
  split
  · exact h
  · exact noteSaturation_keeps (storeTally_keeps (readTally_keeps h))

theorem addWide_keeps {s : State} {a : Bool} {b : List Nat} {x : Addend} {k : Kept} (h : Keeps s0 s) : Keeps s0 (s.addWide a b x k).1 :=
    by
  unfold State.addWide
  dsimp only
  split
  · exact h
  · have read := readTally_keeps (w := x.word + 1) (readTally_keeps (w := x.word) h)
    have low {v : Word} : Keeps s0 (if wordDue a b x.word = true then ((s.readTally x.word).2.readTally (x.word + 1)).2.storeTally b
        x.word v
      else ((s.readTally x.word).2.readTally (x.word + 1)).2) := .ite (storeTally_keeps read) read
    exact noteSaturation_keeps (.ite (storeTally_keeps low) low)

theorem addAll_keeps {s : State} {a : Bool} {b : List Nat} {xs : List Addend} (h : Keeps s0 s) : Keeps s0 (s.addAll a b xs).1 := by
  unfold State.addAll
  refine List.foldlRecOn (motive := fun r : State × Kept => Keeps s0 r.1) _ _ h fun r kept x _ => ?_
  split
  · exact addWide_keeps kept
  · exact addStandard_keeps kept

theorem writeHalf_keeps {s : State} {x1 : Job} {x2 : Nat} {x3 : JobPlace} {x4 : List Addend} (h : Keeps s0 s) : Keeps s0 (State.writeHalf
    s x1 x2 x3 x4) := by
  unfold State.writeHalf
  exact modPlace_keeps (addAll_keeps h)

theorem writeLast_keeps {s : State} {x1 : Job} {x2 : Nat} {x3 : JobPlace} {x4 : Bool} {x5 : List Addend} {x6 : Gathered} (h : Keeps s0 s)
    : Keeps s0 (State.writeLast s x1 x2 x3 x4 x5 x6) := by
  unfold State.writeLast
  exact settle_keeps (modPlace_keeps (addAll_keeps h))

theorem tallyStage_keeps {s : State} {x1 : Attempt} {x2 : Job} {x3 : ModelDef} {x4 : JobPlace} (h : Keeps s0 s) : Keeps s0
    (State.tallyStage s x1 x2 x3 x4) := .ite (putGathered_keeps (dropAttempt_keeps (.ite h (writeHalf_keeps h)))) (.ite (endRecord_keeps
    (voidPlace_keeps h)) (endRecord_keeps (writeLast_keeps h)))

theorem thermalLevel_le (was tMax : Nat) : thermalLevel was tMax ≤ 4 := by
  unfold thermalLevel
  refine List.foldlRecOn (motive := fun l : Nat => l ≤ 4) _ _ (Nat.zero_le _) fun l small i range => ?_
  have := List.mem_range.mp range
  dsimp only
  split <;> omega

theorem thermal_keeps {s : State} (h : Keeps s0 s) : Keeps s0 (State.thermal s) := by
  unfold State.thermal
  exact .ite h (reportThermal_keeps (h.moves
    { gait := fun ⟨now, requested, ledger, _, moving⟩ => ⟨now, requested, ledger, thermalLevel_le _ _, moving⟩ }))

theorem tripped_keeps {s : State} {x1 : SagSource} (h : Keeps s0 s) : Keeps s0 (State.tripped s x1) := h.step

theorem tunePass_keeps {s : State} {x1 : Attempt} {x2 : ModelDef} {x3 : Nat} (h : Keeps s0 s) : Keeps s0 (State.tunePass s x1 x2 x3) :=
    .ite (putGathered_keeps h) (dropAttempt_keeps (putGathered_keeps h))

theorem upsetIndex_keeps {s : State} {x1 : List Upset} (h : Keeps s0 s) : Keeps s0 (State.upsetIndex s x1) := by
  unfold State.upsetIndex
  refine Keeps.foldl _ h fun t u kept => ?_
  split
  · next e =>
    dsimp only
    split
    · exact kept
    · next listed =>
      refine kept.entMoves fun _ ok => ?_
      have mem : (e, sget EntityEntry.none t.ent.index e) ∈ t.ent.index := mem_of_sget_ne fun none => listed (by rw [none]; rfl)
      exact ok.putIndex (ok.places _ mem) (ok.indexRows _ mem)
  · exact kept

theorem writeAccept_keeps {s : State} {x1 : Nat} (h : Keeps s0 s) : Keeps s0 (State.writeAccept s x1) := .ite (modStream_keeps
    (write_keeps h)) h

theorem writeExpect_keeps {s : State} {x1 : Nat} {x2 : Nat} {x3 : Word} (h : Keeps s0 s) : Keeps s0 (State.writeExpect s x1 x2 x3) :=
    .ite (stageWrite_keeps h) (h.step)

theorem writeFailed_keeps {s : State}  (h : Keeps s0 s) : Keeps s0 (State.writeFailed s) := by
  unfold State.writeFailed
  dsimp only
  have failed : Keeps s0 { s with gait := s.gait.failed } := h.moves { gait := fun ok => ok, shape := fun ok => ok }
  exact .ite (send_keeps failed) failed

theorem zeroTiles_keeps {s : State} {x1 : Job} {x2 : Nat} {x3 : Nat} (h : Keeps s0 s) : Keeps s0 (State.zeroTiles s x1 x2 x3) := .ite
    (clearTiles_keeps h) h

end
end Sys2Proof.Keeping
end

section
/-! PROOFS. Every command keeps what the invariants say. -/

-- Each theorem is checked before the next one, which bounds the threads that the compiler takes.
set_option Elab.async false

namespace Sys2Proof.Keeping
open Sys2Proof Sys2Proof.Machine Sys2Proof.Safety Sys2Proof.Laws Sys2Proof.KeptStores

/-- A command answers with a state that keeps what the invariants say. -/
def KeepsNext (s : State) (o : Host.Outcome State Fault Refusal) : Prop := ∃ t, o = .next t ∧ Keeps s t

theorem KeepsNext.of {s t : State} (step : Keeps s s → Keeps s t) : KeepsNext s (.next t) := ⟨t, rfl, step (.refl s)⟩

section
variable {s : State}

theorem execFrameArrival_keeps {module : Nat} {bytes : List Byte} : KeepsNext s (execFrameArrival module bytes s) := by
  unfold execFrameArrival
  refine .of fun h => .ite h ?_
  split
  · dsimp only
    refine startRetrain_keeps (h.moves { shape := ?_ })
    simp only [shapeOf, List.length_modify]
    exact id
  · exact .ite h (pump_keeps h.step)

theorem execDecodeDone_keeps {lane wait : Nat} : KeepsNext s (execDecodeDone lane wait s) := by
  unfold execDecodeDone
  refine .of fun h => .ite h ?_
  split
  · exact h
  · refine .ite h (.ite (pump_keeps (leaveScale_keeps (freeLane_keeps h))) ?_)
    split
    · exact pump_keeps (freeLane_keeps h)
    · exact pump_keeps (leaveLane_keeps (freeLane_keeps h))

theorem execDecodeBudget_keeps {lane wait : Nat} : KeepsNext s (execDecodeBudget lane wait s) := by
  unfold execDecodeBudget
  refine .of fun h => ?_
  split
  · exact h
  · split
    · exact h
    · split
      · exact h
      · dsimp only
        split
        · exact pump_keeps (leaveScale_keeps (freeLane_keeps h))
        · split
          · exact pump_keeps (freeLane_keeps h)
          · exact pump_keeps (leaveLane_keeps (freeLane_keeps h))

theorem execAcceptance_keeps {stream : Nat} : KeepsNext s (execAcceptance stream s) := by
  unfold execAcceptance
  refine .of fun h => ?_
  split
  · exact h
  · exact pump_keeps (writeAccept_keeps (accept_keeps h))

theorem execSfdLedger_keeps {value : Word} : KeepsNext s (execSfdLedger value s) := .of fun h => .ite (deriveLedger_keeps h.step) h

theorem execLedgerDebit_keeps {rail : Rail} : KeepsNext s (execLedgerDebit rail s) := .of fun h => .ite (ledgerMoved_keeps h.step) h

theorem execAvsPoll_keeps {wrote ok vdone : Bool} : KeepsNext s (execAvsPoll wrote ok vdone s) := .of fun h => .ite (.ite
    (pollStatus_keeps h) (.ite (pollStatus_keeps h.step) (writeFailed_keeps h))) h

theorem execGaitReached_keeps {mv : Nat} : KeepsNext s (execGaitReached mv s) := by
  unfold execGaitReached
  refine .of fun h => ?_
  dsimp only
  split
  · next reached =>
    simp only [Bool.and_eq_true] at reached
    exact h.moves { gait := fun ⟨_, requested, ledger, thermal, moving⟩ =>
      ⟨moving reached.1.1.2, requested, ledger, thermal, fun off => by cases off⟩ }
  · exact h

theorem execAvsErr_keeps {timeout : Bool} : KeepsNext s (execAvsErr timeout s) := by
  unfold execAvsErr
  refine .of fun h => .ite (logEvent_keeps (h.moves { gait := ?_ })) h
  exact fun ⟨_, _, ledger, thermal, _⟩ => ⟨Nat.zero_le _, Nat.le_refl _, ledger, thermal, fun off => by cases off⟩

theorem execAvsErrClear_keeps {value : Word} : KeepsNext s (execAvsErrClear value s) := .of fun h => .ite (clearAvsErr_keeps h) h

theorem execSensorConversion_keeps {sensor : Nat} {code : BitVec 10} {ok : Bool} : KeepsNext s (execSensorConversion sensor code ok s) :=
    by
  unfold execSensorConversion
  refine .of fun h => .ite (retarget_keeps (thermal_keeps ?_)) h
  dsimp only
  have read (x : Sensor) : Keeps s { s with gait := { s.gait with sensors := s.gait.sensors.set sensor x } } :=
    h.moves { gait := fun ok => ok, shape := by simp only [shapeOf, List.length_set]; exact id }
  exact .ite (logEvent_keeps (read _)) (read _)

theorem execEntityJoin_keeps {stream : Nat} {seq : Word32} {again : Bool} {ups : List Upset} : KeepsNext s (execEntityJoin stream seq
    again ups s) := by
  unfold execEntityJoin
  refine .of fun h => ?_
  split
  · exact h
  · split
    · exact h
    · exact .ite (refreshHeld_keeps (lookupJoin_keeps (upsetIndex_keeps h))) h

theorem execOutriderFetch_keeps {stream : Nat} {seq : Word32} {decodes : Bool} : KeepsNext s (execOutriderFetch stream seq decodes s) :=
    by
  unfold execOutriderFetch
  refine .of fun h => ?_
  split
  · exact h
  · split
    · exact h
    · exact .ite h (.ite (modWindow_keeps h) (runAhead_keeps (modWindow_keeps h)))

theorem execEntityUpdate_keeps {job : Nat} {again : Bool} : KeepsNext s (execEntityUpdate job again s) := by
  unfold execEntityUpdate
  refine .of fun h => ?_
  split
  · exact h
  · split
    · exact h
    · exact startEntity_keeps h

theorem execEntityEvict_keeps {job : Nat} {again : Bool} : KeepsNext s (execEntityEvict job again s) := by
  unfold execEntityEvict
  refine .of fun h => ?_
  split
  · exact h
  · split
    · exact h
    · exact startEntity_keeps h

theorem execEntityInvalidate_keeps {job : Nat} {again : Bool} : KeepsNext s (execEntityInvalidate job again s) := by
  unfold execEntityInvalidate
  refine .of fun h => .ite h ?_
  split
  · next e j job _ =>
    have checked : Keeps s (s.checkKeys e.entries again) := checkKeys_keeps h
    have live : (s.checkKeys e.entries again).live = s.live :=
      JobEntries.live_eq_of_onlyChanges (fs := [.ent, .flt, .mem, .pins, .out])
        (State.checkKeys_frame _ _ _ (OnlyChanges.refl _ _) (by decide) (by decide) (by decide) (by decide) (by decide)) (by decide)
    refine .ite h (.ite (finishEvict_keeps checked) (finishUpdate_keeps checked fun ok => ?_))
    rw [live]
    exact ((storesOk_iff s).mp ok).2.1.newRows e job
  · exact h

theorem execSfdRingSdb_keeps {ring : Nat} {value : Word} : KeepsNext s (execSfdRingSdb ring value s) := .of fun h => .ite (submit_keeps
    h) h

theorem execSfdRingCdb_keeps {ring : Nat} {value : Word} : KeepsNext s (execSfdRingCdb ring value s) := .of fun h => .ite
    (announceRing_keeps (freeContexts_keeps (modRing_keeps (takeHead_keeps h)))) h

theorem execMemoryWriteAcknowledged_keeps {ring : Nat} : KeepsNext s (execMemoryWriteAcknowledged ring s) := .of fun h => .ite (.ite
    (modRing_keeps (announceRing_keeps (modRing_keeps h))) (announceRing_keeps (modRing_keeps h))) h

theorem execJobDispatch_keeps : KeepsNext s (execJobDispatch s) := by
  unfold execJobDispatch
  refine .of fun h => ?_
  split
  · dsimp only
    split
    · exact haltBad_keeps h
    · split
      · exact haltBad_keeps h
      · exact dispatch_keeps (haltBad_keeps h)
  · exact h

theorem execJobRefusal_keeps {ring : Nat} : KeepsNext s (execJobRefusal ring s) := by
  unfold execJobRefusal
  refine .of fun h => .ite ?_ h
  extract_lets s1
  have read : Keeps s s1 := .ite (readHead_keeps h) h
  split
  · exact writeEntry_keeps (modRing_keeps read)
  · exact read

theorem execSfdRelease_keeps {value : Word} : KeepsNext s (execSfdRelease value s) := .of fun h => .ite (requestRelease_keeps h) h

theorem execRelease_keeps {job : Nat} : KeepsNext s (execRelease job s) := .of fun h => .ite (completeRelease_keeps h) h

theorem execFence_keeps {job : Nat} : KeepsNext s (execFence job s) := by
  unfold execFence
  refine .of fun h => ?_
  split
  · split
    · exact h
    · exact modJob_keeps h
  · exact h

theorem execFenceComplete_keeps {job : Nat} : KeepsNext s (execFenceComplete job s) := by
  unfold execFenceComplete
  refine .of fun h => ?_
  split
  · split
    · exact h
    · exact .ite (finishJob_keeps h) h
  · exact h

theorem execScore_keeps {job : Nat} : KeepsNext s (execScore job s) := .of fun h => .ite (scoreStep_keeps h) h

theorem execScoreTremolo_keeps {job : Nat} : KeepsNext s (execScoreTremolo job s) := .of fun h => .ite (scoreStep_keeps h) h

theorem execRecordDispatch_keeps {base : Nat} {again : Bool} {ups : List Upset} : KeepsNext s (execRecordDispatch base again ups s) := by
  unfold execRecordDispatch
  refine .of fun h => ?_
  split
  · split
    · exact h
    · exact .ite h (dispatchGroup_keeps (disturbAll_keeps h))
  · exact h

theorem execDoubleRunSwitch_keeps {base : Nat} : KeepsNext s (execDoubleRunSwitch base s) := by
  unfold execDoubleRunSwitch
  refine .of fun h => ?_
  split
  · exact h
  · exact .ite (modGroup_keeps h) h

theorem execRecordCommit_keeps {job : Nat} : KeepsNext s (execRecordCommit job s) := by
  unfold execRecordCommit
  refine .of fun h => ?_
  split
  · exact h
  · split
    · exact h
    · dsimp only
      split
      · exact commitSpecial_keeps h
      · split
        · exact committedOne_keeps h
        · split
          · exact h
          · exact .ite h (commitPlace_keeps h)

theorem execBridgeSearch_keeps {attempt pos bank : Nat} {ups : List Upset} : KeepsNext s (execBridgeSearch attempt pos bank ups s) := by
  unfold execBridgeSearch
  refine .of fun h => ?_
  split
  · exact h
  · dsimp only
    refine .ite h ?_
    split
    · exact putAttempt_keeps (disturbAll_keeps h)
    · exact putAttempt_keeps (searchBoth_keeps (disturbAll_keeps h))

theorem execAccumulationColumn_keeps {attempt pos : Nat} {ups : List Upset} : KeepsNext s (execAccumulationColumn attempt pos ups s) := by
  unfold execAccumulationColumn
  refine .of fun h => ?_
  split
  · exact h
  · dsimp only
    split
    · exact h
    · split
      · exact h
      · split
        · exact failAttempt_keeps (disturbAll_keeps h)
        · exact modAttempt_keeps (disturbAll_keeps h)

theorem execChordNode_keeps {attempt level node : Nat} {ups : List Upset} : KeepsNext s (execChordNode attempt level node ups s) := by
  unfold execChordNode
  refine .of fun h => ?_
  split
  · exact h
  · split
    · exact h
    · split
      · exact h
      · split
        · exact chordNode_keeps (disturbAll_keeps h)
        · exact h

theorem execTunerAdd_keeps {attempt : Nat} {ups : List Upset} : KeepsNext s (execTunerAdd attempt ups s) := by
  unfold execTunerAdd
  refine .of fun h => ?_
  split
  · exact h
  · split
    · dsimp only
      split
      · exact h
      · split
        · exact failAttempt_keeps (disturbAll_keeps h)
        · exact .ite (tunePass_keeps (modAttempt_keeps (disturbAll_keeps h))) (modAttempt_keeps (disturbAll_keeps h))
    · exact h

theorem stageAll_keeps {s0 s : State} {i : Nat} {es : List PatchEntry} {r : List PatchItem × State} (h : Keeps s0 s)
    (staged : s.stageAll i es = .ok r) : Keeps s0 r.2 := by
  induction es generalizing s i r with
  | nil =>
    cases staged
    exact h
  | cons e es ih =>
    unfold State.stageAll at staged
    split at staged
    · cases staged
    · next xs t copies =>
      split at staged
      · cases staged
      · next ys u rest =>
        cases staged
        exact ih (r := (ys, u)) (show Keeps s0 t from stageCopies_keeps copies h) rest

theorem execLeafPatch_keeps {job : Nat} : KeepsNext s (execLeafPatch job s) := by
  unfold execLeafPatch
  refine .of fun h => ?_
  split
  · exact h
  · refine .ite h ?_
    dsimp only
    split
    · exact finishJob_keeps h
    · split
      · exact finishJob_keeps h
      · next staged => exact .ite (finishJob_keeps h) (modJob_keeps (stageAll_keeps h staged)).onto

theorem execPatchBoundary_keeps {job base : Nat} : KeepsNext s (execPatchBoundary job base s) := by
  unfold execPatchBoundary
  refine .of fun h => ?_
  split
  · split
    · exact h
    · exact .ite (applyPatch_keeps h) h
  · exact h

theorem execLoadHarness_keeps {job : Nat} : KeepsNext s (execLoadHarness job s) := by
  unfold execLoadHarness
  refine .of fun h => ?_
  split
  · exact h
  · refine .ite h ?_
    dsimp only
    split
    · exact endLoad_keeps (modJob_keeps h)
    · exact (modJob_keeps h).onto

theorem execLoadFirstPass_keeps {job : Nat} : KeepsNext s (execLoadFirstPass job s) := by
  unfold execLoadFirstPass
  refine .of fun h => ?_
  split
  · exact h
  · split
    · exact h
    · dsimp only
      split
      · exact endLoad_keeps h
      · split
        · exact endLoad_keeps h
        · exact .ite (endLoad_keeps h) (.ite (endLoad_keeps h) h.step)

theorem execLoadSecondPass_keeps {job : Nat} {badCell : Option (Nat × Nat × Nat × Nat)} : KeepsNext s (execLoadSecondPass job badCell s)
    := by
  unfold execLoadSecondPass
  refine .of fun h => ?_
  dsimp only
  split
  · exact h
  · exact .ite h (.ite h (retarget_keeps (secondPass_keeps (freeTables_keeps h))))

theorem execFaultRecovery_keeps {ups : List Upset} {badSpares : List (Nat × Nat)} {twinWrong : Bool} : KeepsNext s (execFaultRecovery ups
    badSpares twinWrong s) := by
  unfold execFaultRecovery
  refine .of fun h => ?_
  split
  · exact h
  · exact .ite h (endRecovery_keeps (classify_keeps h))

theorem execCurryItem_keeps {phys : Nat} {ups : List Upset} : KeepsNext s (execCurryItem phys ups s) := by
  unfold execCurryItem
  extract_lets n s1 last flt f s2 pos i d
  refine .of fun h => .ite h ?_
  have read : Keeps s s2 := (disturbAll_keeps h).moves
    { log := fun ok => ok
      shape := by
        simp only [shapeOf, s2, f, List.length_set, apply_ite List.length, List.length_modify, ite_self]
        exact id }
  exact .ite read (.ite read (enqueueFault_keeps read.step))

theorem execSfdFaultAck_keeps {value : Word} : KeepsNext s (execSfdFaultAck value s) := .of fun h => .ite (ackFaults_keeps h) h

theorem execSfdSndDb_keeps {value : Word} : KeepsNext s (execSfdSndDb value s) := .of fun h => .ite h (.ite (modChannel_keeps h)
    (modChannel_keeps h.step))

theorem execSndFrameStart_keeps : KeepsNext s (execSndFrameStart s) := by
  unfold execSndFrameStart
  refine .of fun h => ?_
  split
  · exact h
  · split
    · exact h
    · exact modChannel_keeps h.step

theorem execSndFrameDone_keeps : KeepsNext s (execSndFrameDone s) := by
  unfold execSndFrameDone
  refine .of fun h => .ite h ?_
  split
  · exact h
  · exact .ite h (pump_keeps (modWindow_keeps (takePlace_keeps h)).onto)

theorem execMountGo_keeps {discard : Bool} : KeepsNext s (execMountGo discard s) := .of fun h => .ite (goMount_keeps (.ite (discard_keeps
    h) h)) h

theorem execMountDiscard_keeps : KeepsNext s (execMountDiscard s) := .of fun h => .ite (discard_keeps h) h

theorem execMount_keeps {job : Nat} : KeepsNext s (execMount job s) := by
  unfold execMount
  refine .of fun h => ?_
  split
  · exact h
  · exact .ite (requestMount_keeps (modJob_keeps h)) h

theorem execMountApply_keeps : KeepsNext s (execMountApply s) := by
  unfold execMountApply
  refine .of fun h => .ite h ?_
  split
  · exact failMount_keeps h
  · next passed =>
    refine .ite h (applyMount_keeps h ?_)
    unfold State.mountFail at passed
    exact (Option.or_eq_none_iff.mp (Option.or_eq_none_iff.mp (Option.or_eq_none_iff.mp passed).1).1).2

theorem execGroupPlaneSwitch_keeps {base : Nat} {bad : List (Nat × Nat)} : KeepsNext s (execGroupPlaneSwitch base bad s) := by
  unfold execGroupPlaneSwitch
  refine .of fun h => ?_
  split
  · exact h
  · exact .ite (reportMount_keeps (switchGroup_keeps h)) h

theorem execPlaneEndInvalidate_keeps {ended : Nat} : KeepsNext s (execPlaneEndInvalidate ended s) := by
  unfold execPlaneEndInvalidate
  refine .of fun h => ?_
  split
  · exact h
  · exact .ite (endGroup_keeps h) h

theorem execReplay_keeps {again : Bool} : KeepsNext s (execReplay again s) := .of fun h => .ite (.ite (endReplay_keeps (advanceGens_keeps
    (Keeps.foldl _ (advanceGens_keeps (Keeps.foldl _ h fun _ _ kept => repayVoids_keeps kept)) fun _ _ kept => replayOne_keeps kept)))
    (Keeps.foldl _ (advanceGens_keeps (Keeps.foldl _ h fun _ _ kept => repayVoids_keeps kept)) fun _ _ kept => replayOne_keeps kept)) h

theorem vital_railAt (s : State) (source : SagSource) (mv : Nat) : vital { s with pwr := s.pwr.railAt source mv } = vital s := by
  cases source <;> rfl

theorem execSag_keeps {source : SagSource} {mv : Nat} : KeepsNext s (execSag source mv s) := by
  unfold execSag
  refine .of fun h => .ite (h.step (vital_railAt s source mv)) ?_
  dsimp only
  have tripped : Keeps s (({ s with pwr := s.pwr.railAt source mv } : State).tripped source) := (h.step (vital_railAt s source mv)).step
  split
  · exact beginSave_keeps tripped
  · split
    · exact Forms.refreshFault (tripped.forms.moves {})
    · exact tripped
  · exact tripped

theorem execWarmRequest_keeps : KeepsNext s (execWarmRequest s) := .of fun h => .ite (beginSave_keeps h) h

theorem capture_stores (s : State) (ok : StoresOk s) :
    sparseOk TallyWord.reset s.capture.words = true ∧ sparseOk Tile.reset s.capture.tiles = true := by
  have ended : Keeps s ((s.endJobs false).markReplay true) := markReplay_keeps (endJobs_keeps (.refl s))
  have tally := ((storesOk_iff _).mp (ended.stores ok)).1
  exact ⟨sparseOk_filter tally.1, tally.2⟩

theorem execSaveSealed_keeps {vhold : Nat} : KeepsNext s (execSaveSealed vhold s) := by
  unfold execSaveSealed
  refine .of fun h => .ite h (Forms.enterReset ?_)
  dsimp only
  have saved (b : Saddlebag) (p : Power) (save : b.save = some s.capture) : Forms s { s with pwr := p, bag := b } :=
    forms_bag fun sv hsv => by
      obtain rfl : s.capture = sv := Option.some.inj (save.symm.trans hsv)
      exact ⟨capture_stores s, fun _ => by simp [State.capture]⟩
  split
  · exact (saved _ _ rfl).trans (send_keeps (.refl _)).forms
  · exact saved _ _ rfl

theorem execSaveIncomplete_keeps : KeepsNext s (execSaveIncomplete s) := by
  unfold execSaveIncomplete
  exact .of fun h => .ite (Forms.enterReset (h.forms.moves {})) h

theorem execPackageWarmReset_keeps {vddmKept : Bool} : KeepsNext s (execPackageWarmReset vddmKept s) := .of fun h => .ite h.step h

theorem execVholdLow_keeps {mv : Nat} : KeepsNext s (execVholdLow mv s) := .of fun h => .ite (refreshHeld_keeps h.step) h.step

theorem execPowerOn_keeps {vdd vddm vpp vhold : Nat} {regionsOk : Bool} : KeepsNext s (execPowerOn vdd vddm vpp vhold regionsOk s) := by
  unfold execPowerOn
  refine .of fun h => .ite h (.ite h.step ?_)
  extract_lets c power bag s1 s2
  have start : Forms s s1 := by
    simp only [s1]
    split
    · next sv valid =>
      refine forms_restore ?_
      unfold Saddlebag.valid at valid
      split at valid
      · exact valid
      · cases valid
    · exact (forms_cold s).moves {}
  have told : Forms s s2 := by
    simp only [s2]
    split
    · exact start
    · exact start.moves {}
  exact Forms.announceStart (told.moves {})

theorem execEngineReset_keeps : KeepsNext s (execEngineReset s) := by
  unfold execEngineReset
  refine .of fun h => .ite (pump_keeps (Forms.announceStart ?_)) h
  have ended : Keeps s (((s.endJobs true).dropPending).markReplay false) := markReplay_keeps (dropPending_keeps (endJobs_keeps h))
  refine (ended.forms.trans (forms_kept _)).trans (Keeps.forms ?_)
  refine reload_keeps (Keeps.foldl _ (retarget_keeps (.refl _)) fun t x kept => ?_)
  exact .ite (writeAccept_keeps kept) kept

theorem execTallyWrite_keeps {attempt : Nat} {ups : List Upset} : KeepsNext s (execTallyWrite attempt ups s) := by
  unfold execTallyWrite
  refine .of fun h => ?_
  split
  · exact h
  · split
    · split
      · exact h
      · dsimp only
        split
        · exact failAttempt_keeps (disturbAll_keeps h)
        · exact tallyStage_keeps (disturbAll_keeps h)
    · exact h

theorem drainOne_keeps {s0 s : State} {n : Nat} (h : Keeps s0 s) : Keeps s0 (Answering.drained (s.drainOne n)) := by
  rw [State.drainOne]
  split
  next bs s1 folded =>
    show Keeps s0 (bs, s1).2
    rw [← folded]
    refine List.foldlRecOn (motive := fun r : List (List Byte) × State => Keeps s0 r.2) (List.range 256) _ h fun r kept i _ => ?_
    split
    next v t read =>
      show Keeps s0 (v, t).2
      rw [← read]
      exact readTally_keeps kept

theorem drainAll_keeps {s0 s : State} {ns : List Nat} (h : Keeps s0 s) : Keeps s0 (Answering.drained (s.drainAll ns)) := by
  rw [State.drainAll]
  refine List.foldlRecOn (motive := fun r => Keeps s0 (Answering.drained r)) ns _ h fun r kept n _ => ?_
  split
  next w x t read =>
    show Keeps s0 (Answering.drained (w, x, t))
    rw [← read]
    exact drainOne_keeps kept

theorem execDrainTile_keeps {job : Nat} : KeepsNext s (execDrainTile job s) := by
  unfold execDrainTile
  refine .of fun h => ?_
  split
  · exact h
  · next j _ => exact .ite h (modJob_keeps (write_keeps (drainAll_keeps (ns := j.tileList) h)))

theorem execDrainWritesAcked_keeps {job upTo : Nat} : KeepsNext s (execDrainWritesAcked job upTo s) := by
  unfold execDrainWritesAcked
  refine .of fun h => ?_
  split
  · exact h
  · exact .ite h (.ite (finishJob_keeps (releaseTiles_keeps (modJob_keeps (zeroTiles_keeps h)))) (modJob_keeps (zeroTiles_keeps h)))

theorem execTileSpared_keeps {tile : Nat} : KeepsNext s (execTileSpared tile s) := by
  unfold execTileSpared
  refine .of fun h => .ite h ?_
  dsimp only
  have waited : Keeps s { s with tally := { s.tally with sparing := s.tally.sparing.filter (· != tile) } } := h.step
  refine .ite (logEvent_keeps (waited.moves { tally := fun ok => ⟨sparseOk_map_filter ok.1 fun y => ?_, ok.2⟩ })) (logEvent_keeps waited)
  split <;> rfl

theorem execSfdDbgTally_keeps : KeepsNext s (execSfdDbgTally s) := by
  unfold execSfdDbgTally
  refine .of fun h => .ite ?_ h
  dsimp only
  exact (readTally_keeps h).onto

theorem execSfdDbgCapCtl_keeps {value : Word} : KeepsNext s (execSfdDbgCapCtl value s) := .of fun h => .ite h.step h

theorem execSfdDbgChordSel_keeps {value : Word} : KeepsNext s (execSfdDbgChordSel value s) := .of fun h => .ite h.step h

theorem execSfdImgExpectWrite_keeps {agent index : Nat} {value : Word} : KeepsNext s (execSfdImgExpectWrite agent index value s) := .of
    fun h => .ite (writeExpect_keeps h) h

theorem immediateWrite_keeps {o : Nat} {v : Word} {f : State → Host.Outcome State Fault Refusal} (immediate : immediateWrite o v = some
    f) :
    KeepsNext s (f s) := by
  unfold immediateWrite at immediate
  repeat' split at immediate
  all_goals cases immediate
  · exact execSfdSndDb_keeps
  · exact execSfdRingSdb_keeps
  · exact execSfdRingCdb_keeps
  · exact execSfdRelease_keeps
  · exact execSfdLedger_keeps
  · exact execAvsErrClear_keeps
  · exact execSfdFaultAck_keeps
  · exact execMountGo_keeps
  · exact execMountDiscard_keeps
  · exact .of id
  · exact execSfdDbgCapCtl_keeps
  · exact execSfdDbgChordSel_keeps

theorem execRegisterWrite_keeps {agent offset : Nat} {value : Word} : KeepsNext s (execRegisterWrite agent offset value s) := by
  unfold execRegisterWrite
  split
  · exact .of id
  · split
    · exact .of fun h => writeExpect_keeps h
    · split
      · next f immediate => exact immediateWrite_keeps immediate
      · split
        · exact .of fun h => h.step
        · dsimp only
          split
          · exact .of fun h => stageWrite_keeps h
          · exact .of id

theorem execTelemetrySelect_keeps {addr : BitVec 7} {bytes : List Byte} : KeepsNext s (execTelemetrySelect addr bytes s) := by
  unfold execTelemetrySelect
  refine .of fun h => ?_
  split
  · exact h
  · split
    · exact h.step
    · exact h

theorem execTelemetryRead_keeps {addr : BitVec 7} : KeepsNext s (execTelemetryRead addr s) := .of fun h => .ite h.step h.step

theorem execEnec_keeps : KeepsNext s (execEnec s) := .of fun h => ccc_keeps h

theorem execDisec_keeps : KeepsNext s (execDisec s) := .of fun h => ccc_keeps h

theorem execRstdaa_keeps : KeepsNext s (execRstdaa s) := .of fun h => ccc_keeps h

theorem execEntdaa_keeps {addr : BitVec 7} : KeepsNext s (execEntdaa addr s) := .of fun h => ccc_keeps h

theorem execSetdasa_keeps {addr : BitVec 7} : KeepsNext s (execSetdasa addr s) := .of fun h => ccc_keeps h

theorem execGetpid_keeps : KeepsNext s (execGetpid s) := .of fun h => ccc_keeps h

theorem execGetbcr_keeps : KeepsNext s (execGetbcr s) := .of fun h => ccc_keeps h

theorem execGetdcr_keeps : KeepsNext s (execGetdcr s) := .of fun h => ccc_keeps h

theorem execGetstatus_keeps : KeepsNext s (execGetstatus s) := .of fun h => ccc_keeps h

theorem execGetmrl_keeps : KeepsNext s (execGetmrl s) := .of fun h => ccc_keeps h

theorem execBypass_keeps : KeepsNext s (execBypass s) := .of fun h => selectTap_keeps h

theorem execIdcode_keeps : KeepsNext s (execIdcode s) := .of fun h => selectTap_keeps h

theorem execSamplePreload_keeps {cells : BitVec 7} : KeepsNext s (execSamplePreload cells s) := .of fun h => selectTap_keeps h

theorem execExtest_keeps : KeepsNext s (execExtest s) := by
  unfold execExtest
  refine .of fun h => .ite ?_ (selectTap_keeps h)
  have driven : Forms s { s with
      tap := { s.tap with selected := tapExtest, sampled := s.pins.levels }
      pins := s.pins.drive s.tap.cells } := h.forms.moves {}
  exact driven.keeps (.inl rfl)

theorem execLinkLane_keeps {module lane : Nat} {cut : List Byte} : KeepsNext s (execLinkLane module lane cut s) := .of fun h => .ite h
    (pump_keeps (logEvent_keeps (cutFrame_keeps (startRetrain_keeps (modModule_keeps h)))))

theorem execLinkRetrainDone_keeps {module width : Nat} {fast : Bool} {cut : List Byte} : KeepsNext s (execLinkRetrainDone module width
    fast cut s) := .of fun h => .ite h (pump_keeps (.ite (.ite (reissue_keeps (reissue_keeps (modModule_keeps (.ite (cutFrame_keeps h)
    h)))) (reissue_keeps (modModule_keeps (.ite (cutFrame_keeps h) h)))) (.ite (reissue_keeps (modModule_keeps (.ite (cutFrame_keeps h)
    h))) (modModule_keeps (.ite (cutFrame_keeps h) h)))))

theorem execMemoryReadReturn_keeps {addr : Nat} {line check : List Byte} : KeepsNext s (execMemoryReadReturn addr line check s) := by
  unfold execMemoryReadReturn
  extract_lets m s1 a
  refine .of fun h => .ite h ?_
  have returned : Keeps s s1 := h.moves { shape := by simp only [shapeOf, s1, List.length_modify]; exact id }
  refine .ite (write_keeps returned) ?_
  split
  · exact cleanLine_keeps returned
  · exact correctLine_keeps returned
  · exact failLine_keeps returned

/-- Every command keeps what the invariants say. -/
theorem exec_keeps (c : Instr) (s : State) : KeepsNext s (exec c s) := by
  cases c with
  | frameArrival module bytes => exact execFrameArrival_keeps
  | decodeDone lane wait => exact execDecodeDone_keeps
  | decodeBudget lane wait => exact execDecodeBudget_keeps
  | entityJoin stream seq again ups => exact execEntityJoin_keeps
  | outriderFetch stream seq decodes => exact execOutriderFetch_keeps
  | acceptance stream => exact execAcceptance_keeps
  | jobDispatch => exact execJobDispatch_keeps
  | jobRefusal ring => exact execJobRefusal_keeps
  | score job => exact execScore_keeps
  | scoreTremolo job => exact execScoreTremolo_keeps
  | entityUpdate job again => exact execEntityUpdate_keeps
  | entityEvict job again => exact execEntityEvict_keeps
  | entityInvalidate job again => exact execEntityInvalidate_keeps
  | leafPatch job => exact execLeafPatch_keeps
  | patchBoundary job base => exact execPatchBoundary_keeps
  | loadHarness job => exact execLoadHarness_keeps
  | loadFirstPass job => exact execLoadFirstPass_keeps
  | loadSecondPass job badCell => exact execLoadSecondPass_keeps
  | mount job => exact execMount_keeps
  | mountGo discard => exact execMountGo_keeps
  | mountDiscard => exact execMountDiscard_keeps
  | mountApply => exact execMountApply_keeps
  | groupPlaneSwitch base badCopies => exact execGroupPlaneSwitch_keeps
  | planeEndInvalidate ended => exact execPlaneEndInvalidate_keeps
  | drainTile job => exact execDrainTile_keeps
  | drainWritesAcked job upTo => exact execDrainWritesAcked_keeps
  | fence job => exact execFence_keeps
  | fenceComplete job => exact execFenceComplete_keeps
  | release job => exact execRelease_keeps
  | sfdRelease value => exact execSfdRelease_keeps
  | recordDispatch base again ups => exact execRecordDispatch_keeps
  | bridgeSearch attempt pos bank ups => exact execBridgeSearch_keeps
  | accumulationColumn attempt pos ups => exact execAccumulationColumn_keeps
  | chordNode attempt level node ups => exact execChordNode_keeps
  | tunerAdd attempt ups => exact execTunerAdd_keeps
  | tallyWrite attempt ups => exact execTallyWrite_keeps
  | recordCommit job => exact execRecordCommit_keeps
  | doubleRunSwitch base => exact execDoubleRunSwitch_keeps
  | faultRecovery ups badSpares twinWrong => exact execFaultRecovery_keeps
  | curryItem phys ups => exact execCurryItem_keeps
  | tileSpared tile => exact execTileSpared_keeps
  | memoryReadReturn addr line check => exact execMemoryReadReturn_keeps
  | linkLane module lane cut => exact execLinkLane_keeps
  | linkRetrainDone module width fast cut => exact execLinkRetrainDone_keeps
  | sfdRingSdb ring value => exact execSfdRingSdb_keeps
  | sfdRingCdb ring value => exact execSfdRingCdb_keeps
  | sfdSndDb value => exact execSfdSndDb_keeps
  | sndFrameStart => exact execSndFrameStart_keeps
  | sndFrameDone => exact execSndFrameDone_keeps
  | sfdLedger value => exact execSfdLedger_keeps
  | ledgerDebit rail => exact execLedgerDebit_keeps
  | avsPoll wrote ok vdone => exact execAvsPoll_keeps
  | gaitReached mv => exact execGaitReached_keeps
  | avsErr timeout => exact execAvsErr_keeps
  | avsErrClear value => exact execAvsErrClear_keeps
  | sensorConversion sensor code ok => exact execSensorConversion_keeps
  | sfdFaultAck value => exact execSfdFaultAck_keeps
  | sfdDbgCapCtl value => exact execSfdDbgCapCtl_keeps
  | sfdDbgChordSel value => exact execSfdDbgChordSel_keeps
  | sfdDbgTally => exact execSfdDbgTally_keeps
  | registerWrite agent offset value => exact execRegisterWrite_keeps
  | sfdImgExpectWrite agent index value => exact execSfdImgExpectWrite_keeps
  | powerOn vdd vddm vpp vhold regionsOk => exact execPowerOn_keeps
  | engineReset => exact execEngineReset_keeps
  | warmRequest => exact execWarmRequest_keeps
  | packageWarmReset vddmKept => exact execPackageWarmReset_keeps
  | sag source mv => exact execSag_keeps
  | saveSealed vhold => exact execSaveSealed_keeps
  | saveIncomplete => exact execSaveIncomplete_keeps
  | vholdLow mv => exact execVholdLow_keeps
  | replay again => exact execReplay_keeps
  | telemetrySelect addr bytes => exact execTelemetrySelect_keeps
  | telemetryRead addr => exact execTelemetryRead_keeps
  | enec => exact execEnec_keeps
  | disec => exact execDisec_keeps
  | rstdaa => exact execRstdaa_keeps
  | entdaa addr => exact execEntdaa_keeps
  | setdasa addr => exact execSetdasa_keeps
  | getpid => exact execGetpid_keeps
  | getbcr => exact execGetbcr_keeps
  | getdcr => exact execGetdcr_keeps
  | getstatus => exact execGetstatus_keeps
  | getmrl => exact execGetmrl_keeps
  | bypass => exact execBypass_keeps
  | idcode => exact execIdcode_keeps
  | samplePreload cells => exact execSamplePreload_keeps
  | extest => exact execExtest_keeps
  | memoryWriteAcknowledged ring => exact execMemoryWriteAcknowledged_keeps

/-- A step takes the command off the queue, which no invariant speaks of, and runs it. -/
theorem step_keeps {s t : State} (stepped : step s = .next t) : Keeps s t := by
  unfold step at stepped
  split at stepped
  · cases stepped
    exact .refl s
  · next c rest _ =>
    obtain ⟨u, next, kept⟩ := exec_keeps c { s with pending := rest }
    obtain rfl : u = t := by simpa [next] using stepped
    exact (Keeps.step (t := { s with pending := rest }) (.refl s)).trans kept

end

/-! ## The statements -/

/-- Settles O7: every command keeps memory in its canonical form. -/
theorem stepKeepsMemoryForm : Obligations.StepKeepsMemoryForm := by
  unfold Obligations.StepKeepsMemoryForm
  exact fun s t ok stepped => (step_keeps stepped).mem ok

/-- Settles O8: an entry appended takes the log index at LOG_HEAD, and nothing else changes the log. -/
theorem stepKeepsFaultLog : Obligations.StepKeepsFaultLog := by
  unfold Obligations.StepKeepsFaultLog
  exact fun s t ok stepped => (step_keeps stepped).log ok

/-- Settles O9: an effective target is a gait, and only a change under way takes the gait requested into effect. -/
theorem stepKeepsGaits : Obligations.StepKeepsGaits := by
  unfold Obligations.StepKeepsGaits
  exact fun s t ok stepped => (step_keeps stepped).gait ok

/-- Settles O10: whatever changes the log, its acknowledgement, the enabled kinds or the supplies refreshes the pin, and so does what ends
EXTEST. -/
theorem stepKeepsFaultPin : Obligations.StepKeepsFaultPin := by
  unfold Obligations.StepKeepsFaultPin
  refine ⟨fun s t ok stepped => (step_keeps stepped).pin ok, fun s t c ok _ next ended => ?_⟩
  obtain ⟨u, answer, kept⟩ := exec_keeps c s
  obtain rfl : u = t := by simpa [answer] using next
  exact (kept.pin ok).resolve_left ended

/-- Settles O16: no command changes the length of such a list. -/
theorem stepKeepsShape : Obligations.StepKeepsShape := by
  unfold Obligations.StepKeepsShape
  exact fun s t ok stepped => (step_keeps stepped).shape ok

/-- Settles O24: every write of a store sets or drops one item in its place. -/
theorem stepKeepsStores : Obligations.StepKeepsStores := by
  unfold Obligations.StepKeepsStores
  exact fun s t ok stepped => (step_keeps stepped).stores ok

end Sys2Proof.Keeping
end

section
/-! PROOFS. What a comparison of two states leaves equal, part by part. -/

namespace Sys2Proof.PartsKept
open Sys2Proof Sys2Proof.Machine Sys2Proof.Safety

variable {s t : State} {fs : List Part}

theorem flt_eq_of_onlyChanges (frame : OnlyChanges fs s t) (kept : Part.flt ∉ fs) : t.flt = s.flt := by
  simpa [mask, kept] using congrArg State.flt frame

theorem arr_eq_of_onlyChanges (frame : OnlyChanges fs s t) (kept : Part.arr ∉ fs) : t.arr = s.arr := by
  simpa [mask, kept] using congrArg State.arr frame

theorem img_eq_of_onlyChanges (frame : OnlyChanges fs s t) (kept : Part.img ∉ fs) : t.img = s.img := by
  simpa [mask, kept] using congrArg State.img frame

theorem ent_eq_of_onlyChanges (frame : OnlyChanges fs s t) (kept : Part.ent ∉ fs) : t.ent = s.ent := by
  simpa [mask, kept] using congrArg State.ent frame

theorem link_eq_of_onlyChanges (frame : OnlyChanges fs s t) (kept : Part.link ∉ fs) : t.link = s.link := by
  simpa [mask, kept] using congrArg State.link frame

theorem pins_eq_of_onlyChanges (frame : OnlyChanges fs s t) (kept : Part.pins ∉ fs) : t.pins = s.pins := by
  simpa [mask, kept] using congrArg State.pins frame

theorem out_eq_of_onlyChanges (frame : OnlyChanges fs s t) (kept : Part.out ∉ fs) : t.out = s.out := by
  simpa [mask, kept] using congrArg State.out frame

theorem tap_eq_of_onlyChanges (frame : OnlyChanges fs s t) (kept : Part.tap ∉ fs) : t.tap = s.tap := by
  simpa [mask, kept] using congrArg State.tap frame

theorem pkg_eq_of_onlyChanges (frame : OnlyChanges fs s t) (kept : Part.pkg ∉ fs) : t.pkg = s.pkg := by
  simpa [mask, kept] using congrArg State.pkg frame

end Sys2Proof.PartsKept
end

section
/-! PROOFS. Job places: where a record of a job stands after an operation on its head, and what voiding a record leaves. -/

-- Each theorem is checked before the next one, which bounds the threads that the compiler takes.
set_option Elab.async false

namespace Sys2Proof.Places
open Sys2Proof Sys2Proof.Machine Sys2Proof.Safety Sys2Proof.Laws Sys2Proof.JobEntries

/-! ## Heads and places -/

section
variable {s t : State} {j : Job} {i : Nat}

theorem find?_map_if {α : Type} {p : α → Bool} {q : α → Prop} [DecidablePred q] (same : ∀ x, q x ↔ p x = true) {f : α → α}
    (kept : ∀ x, p x = true → p (f x) = true) (xs : List α) :
    (xs.map fun x => if q x then f x else x).find? p = (xs.find? p).map f := by
  induction xs with
  | nil => rfl
  | cons x xs ih =>
    by_cases hx : p x = true
    · rw [List.map_cons, if_pos ((same x).mpr hx), List.find?_cons_of_pos (kept x hx), List.find?_cons_of_pos hx]
      rfl
    · rw [List.map_cons, if_neg (mt (same x).mp hx), List.find?_cons_of_neg hx, List.find?_cons_of_neg hx, ih]

theorem head_modHead {st : Nat} {sq : Word32} {f : Head → Head} (stream : ∀ h, (f h).stream = h.stream) (seq : ∀ h, (f h).seq = h.seq) :
    (s.modHead st sq f).head st sq = (s.head st sq).map f :=
  find?_map_if (fun h => by simp) (fun h same => by simpa [stream, seq] using same) s.acc.heads

theorem placeAt_eq_some_iff {x : Head × JobPlace} :
    s.placeAt j i = some x ↔ s.head j.stream (j.seqOf i) = some x.1 ∧ x.1.placeOf j.id = some x.2 := by
  unfold State.placeAt
  rcases s.head j.stream (j.seqOf i) with - | h
  · simp
  · obtain ⟨y, p⟩ := x
    simp only [Option.map_eq_some_iff, Prod.mk.injEq, Option.some.injEq]
    exact ⟨fun ⟨q, found, head, place⟩ => ⟨head, head ▸ place ▸ found⟩, fun ⟨head, found⟩ => ⟨p, head ▸ found, head, rfl⟩⟩

theorem placeAt_of_acc (acc : t.acc = s.acc) : t.placeAt j i = s.placeAt j i := by
  simp only [State.placeAt, State.head, acc]

/-- A head with the places of one job changed. -/
def onPlaces (id : Nat) (f : JobPlace → JobPlace) (h : Head) : Head :=
  { h with places := h.places.map (fun p => if p.job = id then f p else p) }

theorem placeOf_onPlaces {id : Nat} {f : JobPlace → JobPlace} {h : Head} (job : ∀ p, (f p).job = p.job) :
    (onPlaces id f h).placeOf id = (h.placeOf id).map f :=
  find?_map_if (fun p => by simp) (fun p same => by simpa [job] using same) h.places

theorem placeAt_modPlace {f : JobPlace → JobPlace} (job : ∀ p, (f p).job = p.job) :
    (s.modPlace j.stream (j.seqOf i) j.id f).placeAt j i = (s.placeAt j i).map fun x => (onPlaces j.id f x.1, f x.2) := by
  have head : (s.modPlace j.stream (j.seqOf i) j.id f).head j.stream (j.seqOf i) =
      (s.head j.stream (j.seqOf i)).map (onPlaces j.id f) := head_modHead (fun _ => rfl) fun _ => rfl
  simp only [State.placeAt, head]
  rcases s.head j.stream (j.seqOf i) with - | h
  · rfl
  · simp only [Option.map_some, placeOf_onPlaces job]
    rcases h.placeOf j.id with - | p <;> rfl

theorem head_ensurePlace : (s.ensurePlace j i).head j.stream (j.seqOf i) = (s.head j.stream (j.seqOf i)).map fun h =>
    if (h.placeOf j.id).isSome then h else { h with places := h.places ++ [JobPlace.fresh j.id i] } :=
  head_modHead (fun h => by split <;> rfl) fun h => by split <;> rfl

/-- The place that a record of a job has, or gets, in a head (R330). -/
def placeIn (j : Job) (i : Nat) (h : Head) : JobPlace := (h.placeOf j.id).getD (JobPlace.fresh j.id i)

theorem placeAt_ensurePlace {h : Head} (found : s.head j.stream (j.seqOf i) = some h) :
    ∃ y, (s.ensurePlace j i).placeAt j i = some (y, placeIn j i h) := by
  rcases held : h.placeOf j.id with - | p
  · refine ⟨{ h with places := h.places ++ [JobPlace.fresh j.id i] }, placeAt_eq_some_iff.mpr ⟨?_, ?_⟩⟩
    · rw [head_ensurePlace, found]
      simp [held]
    · have missing : h.places.find? (fun p => p.job == j.id) = none := held
      simp [Head.placeOf, List.find?_append, missing, placeIn, JobPlace.fresh]
  · refine ⟨h, placeAt_eq_some_iff.mpr ⟨?_, ?_⟩⟩
    · rw [head_ensurePlace, found]
      simp [held]
    · simp [placeIn, held]

end

/-! ## A record that is voided (R153, R154, R162) -/

section
variable {s : State} {j : Job} {i st : Nat} {multi overs miss : Bool}

theorem acc_of_frame {fs : List Part} {s t : State} (frame : OnlyChanges fs s t) (kept : Part.acc ∉ fs) : t.acc = s.acc := by
  simpa [mask, kept] using congrArg State.acc frame

/-- A place with its status. -/
def settledAs (st : Nat) (multi overs miss : Bool) (p : JobPlace) : JobPlace :=
  { p with settled := true, replay := false, status := st, multi := multi, overflow := overs, miss := miss }

theorem placeAt_settle {x : Head × JobPlace} (found : s.placeAt j i = some x) :
    (s.settle j i st multi overs miss).placeAt j i =
      some (onPlaces j.id (settledAs st multi overs miss) x.1, settledAs st multi overs miss x.2) := by
  have settled : (s.modPlace j.stream (j.seqOf i) j.id (settledAs st multi overs miss)).placeAt j i =
      some (onPlaces j.id (settledAs st multi overs miss) x.1, settledAs st multi overs miss x.2) := by
    rw [placeAt_modPlace (f := settledAs st multi overs miss) fun _ => rfl, found]
    rfl
  rw [← settled]
  refine placeAt_of_acc ?_
  show State.acc (match (s.modPlace j.stream (j.seqOf i) j.id (settledAs st multi overs miss)).placeAt j i with
    | some (_, p) => if p.commit && (s.modPlace j.stream (j.seqOf i) j.id (settledAs st multi overs miss)).rewritten j i then
        (s.modPlace j.stream (j.seqOf i) j.id (settledAs st multi overs miss)).rewriteFrom j i j.n
      else s.modPlace j.stream (j.seqOf i) j.id (settledAs st multi overs miss)
    | none => s.modPlace j.stream (j.seqOf i) j.id (settledAs st multi overs miss)) = _
  rw [settled]
  dsimp only
  split
  · exact acc_of_frame (fs := [.mem, .rings]) (State.rewriteFrom_frame _ _ _ _ (OnlyChanges.refl _ _) (by decide) (by decide)) (by decide)
  · rfl

theorem undoWrite_acc {p : JobPlace} :
    (s.undoWrite j i p).acc = (s.modPlace j.stream (j.seqOf i) j.id fun q => { q with undo := [], undoSat := [] }).acc := by
  unfold State.undoWrite
  dsimp only
  have undone {t : State} (acc : t.acc = s.acc) : (t.modPlace j.stream (j.seqOf i) j.id fun q => { q with undo := [], undoSat := []
      }).acc =
      (s.modPlace j.stream (j.seqOf i) j.id fun q => { q with undo := [], undoSat := [] }).acc := by
    simp only [State.modPlace, State.modHead, acc]
  exact undone (List.foldlRecOn (motive := fun t : State => t.acc = s.acc) _ _ rfl fun t kept _ _ => kept)

theorem countVoided_acc {mark : Bool} {owe : List Nat} : (s.countVoided j i mark owe).acc = s.acc := by
  unfold State.countVoided
  dsimp only
  split <;> rfl

/-- A place whose writes are undone. -/
def undone (p : JobPlace) : JobPlace := { p with undo := [], undoSat := [] }

/-- A place that has cost what it reserved. -/
def paidUp (p : JobPlace) : JobPlace := { p with markA := true, markB := true, oweA := [], oweB := [], paid := true }

/-- What voiding leaves in the place of a record. -/
def voidedAs (st : Nat) (multi overs : Bool) (p : JobPlace) : JobPlace := settledAs st multi overs false (paidUp (undone p))

theorem placeAt_voidPlace {h : Head} (found : s.head j.stream (j.seqOf i) = some h) :
    ∃ y, (s.voidPlace j i st multi overs).placeAt j i = some (y, voidedAs st multi overs (placeIn j i h)) := by
  obtain ⟨y, ensured⟩ := placeAt_ensurePlace found
  generalize place : placeIn j i h = p at ensured ⊢
  have cleared : (((s.ensurePlace j i).undoWrite j i p).countVoided j i p.markB p.oweB).placeAt j i =
      some (onPlaces j.id undone y, undone p) := by
    rw [placeAt_of_acc (countVoided_acc.trans undoWrite_acc)]
    exact (placeAt_modPlace (f := undone) fun _ => rfl).trans (congrArg _ ensured)
  have paid : ((((s.ensurePlace j i).undoWrite j i p).countVoided j i p.markB p.oweB).modPlace j.stream (j.seqOf i) j.id paidUp).placeAt
      j i = some (onPlaces j.id paidUp (onPlaces j.id undone y), paidUp (undone p)) :=
    (placeAt_modPlace (f := paidUp) fun _ => rfl).trans (congrArg _ cleared)
  have settled := placeAt_settle (st := st) (multi := multi) (overs := overs) (miss := false) paid
  refine ⟨_, Eq.trans (placeAt_of_acc ?_) settled⟩
  unfold State.voidPlace
  simp only [ensured]
  split
  · rfl
  · exact acc_of_frame (fs := [.grp, .tally, .gait, .jobs, .led, .out]) (State.pay_frame _ _ (State.forget_frame _ _ _ (OnlyChanges.refl
        _ _) (by decide))
      (by decide) (by decide) (by decide) (by decide)) (by decide)

/-- Voiding a record touches its job's context at most in what the job still reserves. -/
theorem voidPlace_jobs : (s.voidPlace j i st multi overs).jobs = s.jobs ∨
    (s.voidPlace j i st multi overs).jobs = (s.modJob j.id fun x => { x with costLeft := x.costLeft - x.costRec }).jobs := by
  have ensured : OnlyChanges [.acc, .tally, .mem, .rings, .grp] s (s.ensurePlace j i) :=
    State.ensurePlace_frame _ _ _ (OnlyChanges.refl _ _) (by decide)
  unfold State.voidPlace
  dsimp only
  split
  · exact .inl (jobs_eq_of_onlyChanges ensured (by decide))
  · next p _ =>
    generalize settled : State.forget _ j.id i = s4
    have frame : OnlyChanges [.acc, .tally, .mem, .rings, .grp] s s4 := by
      rw [← settled]
      refine State.forget_frame _ _ _ (State.settle_frame _ _ _ _ _ _ _ (State.modPlace_frame _ _ _ _ _ (State.countVoided_frame _ _ _ _ _
        (State.undoWrite_frame _ _ _ _ ensured ?_ ?_) ?_) ?_) ?_ ?_ ?_) ?_ <;> decide
    have jobs : s4.jobs = s.jobs := jobs_eq_of_onlyChanges frame (by decide)
    split
    · exact .inl jobs
    · right
      have paid : (s4.pay j).jobs = (s4.modJob j.id fun x => { x with costLeft := x.costLeft - x.costRec }).jobs :=
        jobs_eq_of_onlyChanges (unreserve_frame _ _) (by decide)
      rw [paid]
      simp only [State.modJob, jobs]

end
end Sys2Proof.Places
end

section
/-! PROOFS. Offers: the record index that a scoring job offers next, and where it goes. -/

-- Each theorem is checked before the next one, which bounds the threads that the compiler takes.
set_option Elab.async false

namespace Sys2Proof.Offering
open Sys2Proof Sys2Proof.Machine Sys2Proof.Safety Sys2Proof.Laws Sys2Proof.JobEntries Sys2Proof.Places

/-- A job that has begun. -/
def begun (j : Job) : Job := { j with begun := true }

/-- A job that has offered its records below an index. -/
def offeredTo (n : Nat) (j : Job) : Job := { j with next := n }

/-- A job with the status of a record that takes no place (R321, R324). -/
def withSpecial (i st : Nat) (j : Job) : Job := { j with special := sput j.special i st }

/-- A job whose reserved cost of a record is paid (R373). -/
def oncePaid (j : Job) : Job := { j with costLeft := j.costLeft - j.costRec }

section
variable {s : State} {j x : Job} {id i st : Nat} {f g : Job → Job}

theorem modJob_comp (same : ∀ x, (f x).id = x.id) : (s.modJob id f).modJob id g = s.modJob id fun x => g (f x) := by
  have each (x : Job) : (if (if x.id = id then f x else x).id = id then g (if x.id = id then f x else x)
      else if x.id = id then f x else x) = if x.id = id then g (f x) else x := by
    by_cases h : x.id = id
    · simp [h, same]
    · simp [h]
  simp only [State.modJob, List.map_map, Function.comp_def, each]

theorem job_modJob (same : ∀ x, (f x).id = x.id) (found : s.job id = some x) : (s.modJob id f).job id = some (f x) := by
  rw [State.modJob_job _ _ _ same, if_pos rfl, found]
  rfl

theorem pay_job (found : s.job j.id = some x) : (s.pay j).job j.id = some (oncePaid x) := by
  have paid : (s.pay j).job j.id = (s.modJob j.id oncePaid).job j.id :=
    congrArg (fun js : Jobs => js.jobs.find? _) (jobs_eq_of_onlyChanges (unreserve_frame _ _) (by decide))
  rw [paid]
  exact job_modJob (fun _ => rfl) found

theorem pay_frame : OnlyChanges [.jobs, .led, .gait, .out] s (s.pay j) :=
  State.pay_frame _ _ (OnlyChanges.refl _ _) (by decide) (by decide) (by decide) (by decide)

/-- The jobs that a record is offered to before a job are the same while that job begins (R321). -/
theorem namesBefore_modJob (same : ∀ x, (f x).id = x.id) (j : Job) (h : Head) :
    (s.modJob j.id f).namesBefore j h = s.namesBefore j h := by
  have kept (xs : List Job) (p : Job → Bool) :
      (xs.map fun x => if x.id = j.id then f x else x).filter (fun x => decide (x.id < j.id) && p x) =
        xs.filter fun x => decide (x.id < j.id) && p x := by
    induction xs with
    | nil => rfl
    | cons x xs ih =>
      by_cases own : x.id = j.id
      · simp [own, same, ih]
      · simp [own, ih, List.filter_cons]
  simp only [State.namesBefore, State.modJob, Bool.and_assoc, kept]

/-! ## What one offer does -/

/-- The index takes its status without a place. -/
def offersSpecial (s : State) (j : Job) (st : Nat) : State :=
  ((s.modJob j.id (withSpecial j.next st)).modJob j.id (offeredTo (j.next + 1))).pay j

theorem offersSpecial_frame : OnlyChanges [.jobs, .led, .gait, .out] s (offersSpecial s j st) :=
  State.pay_frame _ _ (State.modJob_frame _ _ _ (State.modJob_frame _ _ _ (OnlyChanges.refl _ _) (by decide)) (by decide))
    (by decide) (by decide) (by decide) (by decide)

theorem offersSpecial_job (found : s.job j.id = some j) :
    (offersSpecial s j st).job j.id = some (oncePaid (offeredTo (j.next + 1) (withSpecial j.next st j))) :=
  pay_job (job_modJob (fun _ => rfl) (job_modJob (fun _ => rfl) found))

theorem offer_of_job (found : s.job id = some j) (due : s.pwr.replayDue = false) (left : j.next < j.n) :
    s.offer id =
      if j.next < s.releasedOf j then s.modJob id (offeredTo (j.next + 1))
      else if j.routed ≤ j.next then offersSpecial s j 0xB
      else match s.head j.stream (j.seqOf j.next) with
        | none => s
        | some h =>
          if 8 ≤ s.namesBefore j h then offersSpecial s j 0x9
          else (s.send? j j.next h).modJob id (offeredTo (j.next + 1)) := by
  have own := job_id found
  subst own
  unfold State.offer
  simp only [found]
  rw [if_neg (by simp [due, left])]
  rfl

/-- The step of a job that has just begun, in the terms of the state before it. -/
theorem offer_begun (found : s.job j.id = some j) (due : s.pwr.replayDue = false) (left : j.next < j.n) :
    (s.modJob j.id begun).offer j.id =
      if j.next < s.releasedOf j then s.modJob j.id fun x => offeredTo (j.next + 1) (begun x)
      else if j.routed ≤ j.next then offersSpecial (s.modJob j.id begun) (begun j) 0xB
      else match s.head j.stream (j.seqOf j.next) with
        | none => s.modJob j.id begun
        | some h =>
          if 8 ≤ s.namesBefore j h then offersSpecial (s.modJob j.id begun) (begun j) 0x9
          else ((s.modJob j.id begun).send? (begun j) j.next h).modJob j.id (offeredTo (j.next + 1)) := by
  rw [offer_of_job (job_modJob (f := begun) (fun _ => rfl) found) due left, modJob_comp (f := begun) fun _ => rfl]
  refine if_congr Iff.rfl rfl (if_congr Iff.rfl rfl ?_)
  have names (h : Head) : (s.modJob j.id begun).namesBefore (begun j) h = s.namesBefore j h :=
    namesBefore_modJob (f := begun) (fun _ => rfl) j h
  have head : (s.modJob j.id begun).head (begun j).stream ((begun j).seqOf (begun j).next) = s.head j.stream (j.seqOf j.next) := rfl
  rw [head]
  rcases s.head j.stream (j.seqOf j.next) with - | h
  · rfl
  · exact if_congr (by rw [names]) rfl rfl

theorem exec_scoring {op : Nat} {c : Instr} (named : (c, op) ∈ [(Instr.score id, 1), (.scoreTremolo id, 2)]) (up : s.up = true)
    (opened : s.openJob id op = some j) : exec c s = .next ((s.modJob id begun).offer id) := by
  simp only [List.mem_cons, Prod.mk.injEq, List.not_mem_nil, or_false] at named
  obtain ⟨rfl, rfl⟩ | ⟨rfl, rfl⟩ := named
  · show Host.Outcome.next (if s.up then s.scoreStep id 1 else s) = _
    simp only [State.scoreStep, up, opened]
    rfl
  · show Host.Outcome.next (if s.up then s.scoreStep id 2 else s) = _
    simp only [State.scoreStep, up, opened]
    rfl

end

/-! ## Where an accepted record goes -/

section
variable {s : State} {j : Job} {i st : Nat} {h : Head} {g : Group}

theorem send?_of_inl (dest : s.destination j h = .inl st) : s.send? j i h = s.voidPlace j i st false false := by
  simp only [State.send?, dest]

theorem send?_of_inr (dest : s.destination j h = .inr g) :
    s.send? j i h = (s.ensurePlace j i).modGroup g.gid fun x => { x with ready := x.ready ++ [(j.id, i)] } := by
  simp only [State.send?, dest]

theorem voidPlace_job {x : Job} (found : s.job j.id = some x) :
    ∃ y, (s.voidPlace j i st false false).job j.id = some y ∧ y.begun = x.begun ∧ y.committed = x.committed := by
  rcases voidPlace_jobs (s := s) (j := j) (i := i) (st := st) (multi := false) (overs := false) with same | paid
  · exact ⟨x, by simpa only [State.job, same] using found, rfl, rfl⟩
  · refine ⟨oncePaid x, ?_, rfl, rfl⟩
    simp only [State.job, paid]
    exact job_modJob (s := s) (f := oncePaid) (fun _ => rfl) found

end

/-- Settles O31: a scoring command marks its job begun and makes one offer, whose branches are those of the statement. -/
theorem scoreOffers : Obligations.ScoreOffers := by
  intro id op c j s named up opened due left
  obtain ⟨found, -, -⟩ := openJob_eq_some_iff.mp opened
  have own := job_id found
  subst own
  have run := exec_scoring named up opened
  have held : (s.modJob j.id begun).job j.id = some (begun j) := job_modJob (fun _ => rfl) found
  have offers := offer_begun found due left
  have began : OnlyChanges [.jobs] s (s.modJob j.id begun) := State.modJob_frame _ _ _ (OnlyChanges.refl _ _) (by decide)
  refine ⟨fun gone => ?_, fun kept unrouted => ?_, fun kept routed absent => ?_, fun h kept routed stands many => ?_,
    fun h g kept routed stands few dest => ?_, fun h st kept routed stands few dest => ?_⟩
  · rw [run, offers, if_pos gone]
    rfl
  · refine ⟨_, oncePaid (offeredTo (j.next + 1) (withSpecial j.next 0xB (begun j))), run, ?_, ⟨rfl, rfl, rfl⟩, ?_⟩
    · rw [offers, if_neg (Nat.not_lt.mpr kept), if_pos unrouted]
      exact offersSpecial_job held
    · exact (sget_sput _).trans (if_pos rfl)
  · refine ⟨_, run, ?_⟩
    have waits : (s.modJob j.id begun).offer j.id = s.modJob j.id begun := by
      rw [offers, if_neg (Nat.not_lt.mpr kept), if_neg (Nat.not_le.mpr routed), absent]
    rw [waits]
    exact ⟨began, held⟩
  · have special : (s.modJob j.id begun).offer j.id = offersSpecial (s.modJob j.id begun) (begun j) 0x9 := by
      rw [offers, if_neg (Nat.not_lt.mpr kept), if_neg (Nat.not_le.mpr routed), stands]
      exact if_pos many
    refine ⟨_, oncePaid (offeredTo (j.next + 1) (withSpecial j.next 0x9 (begun j))), run, ?_, ?_, ⟨rfl, rfl, rfl⟩, ?_⟩
    · rw [special]
      exact State.pay_frame _ _ (State.modJob_frame _ _ _ (State.modJob_frame _ _ _ (State.modJob_frame _ _ _ (OnlyChanges.refl _ _)
        (by decide)) (by decide)) (by decide)) (by decide) (by decide) (by decide) (by decide)
    · rw [special]
      exact offersSpecial_job held
    · exact (sget_sput _).trans (if_pos rfl)
  · have sent : (s.modJob j.id begun).offer j.id = (((s.modJob j.id begun).ensurePlace (begun j) j.next).modGroup g.gid
        fun x => { x with ready := x.ready ++ [(j.id, j.next)] }).modJob j.id (offeredTo (j.next + 1)) := by
      rw [offers, if_neg (Nat.not_lt.mpr kept), if_neg (Nat.not_le.mpr routed), stands]
      dsimp only
      rw [if_neg (by omega), send?_of_inr (g := g) (by exact dest)]
      rfl
    obtain ⟨y, placed⟩ := placeAt_ensurePlace (s := s.modJob j.id begun) (j := begun j) (i := j.next) (h := h) stands
    obtain ⟨head, place⟩ := placeAt_eq_some_iff.mp placed
    refine ⟨_, offeredTo (j.next + 1) (begun j), run, ?_, ?_, ⟨rfl, rfl, rfl⟩, rfl, ?_, ?_⟩
    · rw [sent]
      exact State.modJob_frame _ _ _ (State.modGroup_frame _ _ _ (State.ensurePlace_frame _ _ _ (State.modJob_frame _ _ _
        (OnlyChanges.refl _ _) (by decide)) (by decide)) (by decide)) (by decide)
    · rw [sent]
      exact job_modJob (fun _ => rfl) held
    · rw [sent]
      exact ⟨y, head, Option.isSome_iff_exists.mpr ⟨_, place⟩⟩
    · rw [sent]
      rfl
  · have sent : (s.modJob j.id begun).offer j.id =
        ((s.modJob j.id begun).voidPlace (begun j) j.next st false false).modJob j.id (offeredTo (j.next + 1)) := by
      rw [offers, if_neg (Nat.not_lt.mpr kept), if_neg (Nat.not_le.mpr routed), stands]
      dsimp only
      rw [if_neg (by omega), send?_of_inl (st := st) (by exact dest)]
    obtain ⟨y, placed⟩ := placeAt_voidPlace (s := s.modJob j.id begun) (j := begun j) (i := j.next) (h := h) (st := st)
      (multi := false) (overs := false) stands
    obtain ⟨head, place⟩ := placeAt_eq_some_iff.mp placed
    obtain ⟨x, job, kept1, kept2⟩ := voidPlace_job (s := s.modJob j.id begun) (j := begun j) (i := j.next) (st := st) held
    refine ⟨_, offeredTo (j.next + 1) x, y, _, run, ?_, ⟨rfl, kept1, kept2⟩, ?_, place, rfl, rfl, rfl⟩
    · rw [sent]
      exact job_modJob (fun _ => rfl) job
    · rw [sent]
      exact head

end Sys2Proof.Offering
end

section
/-! PROOFS. The end of a decode: what a lane that hands its record over, or gives it up, leaves behind. -/

-- Each theorem is checked before the next one, which bounds the threads that the compiler takes.
set_option Elab.async false

namespace Sys2Proof.DecodeLanes
open Sys2Proof Sys2Proof.Machine Sys2Proof.Safety Sys2Proof.Laws Sys2Proof.InOrder Sys2Proof.KeptStores

/-! ## The record that leaves its lane -/

section
variable {s : State} {w : WindowRecord} {void : Nat} {x : Supplied}

/-- The record as it leaves its lane. -/
def handedOver (s : State) (w : WindowRecord) (void : Nat) (x : Supplied) : WindowRecord :=
  { w with
    void := void, narrow := x.narrow, wide := x.wide
    phase := if void = 0 ∧ w.key ≠ 0 ∧ ((s.tablesAt w.tgen).route w.stream).any (fun r => r.emapEn) = true then .joining else .ready }

theorem leaveLane_window : (s.leaveLane w void x).ing.window =
    (s.modWindow w.stream w.seq fun _ => handedOver s w void x).ing.window := by
  have taken : (if s.takesJoin { w with void := void, narrow := x.narrow, wide := x.wide } then WindowPhase.joining else .ready) =
      (handedOver s w void x).phase := by
    simp only [handedOver, State.takesJoin, Bool.and_eq_true, beq_iff_eq, bne_iff_ne, ne_eq, and_assoc]
  unfold State.leaveLane
  dsimp only
  rw [taken]
  split <;> rfl

theorem leaveLane_lanes : (s.leaveLane w void x).ing.lanes = s.ing.lanes := by
  unfold State.leaveLane
  dsimp only
  split <;> rfl

theorem leaveLane_rx : (s.leaveLane w void x).ing.rx = s.ing.rx := by
  unfold State.leaveLane
  dsimp only
  split <;> rfl

theorem listed_of_modPair {st : Nat} {f : Pair → Pair} {p : Nat × Pair} (listed : p ∈ (s.modPair st f).ing.pairs) :
    p = (st, f (s.pair st)) ∨ p ∈ s.ing.pairs := mem_of_mem_smod listed

/-- A record that is done counts off the scale frame of its block, and no scale frame comes by it. -/
theorem leaveLane_coming : ∀ p ∈ (s.leaveLane w void x).ing.pairs, p.2.coming = [] ∨ ∃ q ∈ s.ing.pairs, p.1 = q.1 ∧ p.2.coming =
    q.2.coming := by
  unfold State.leaveLane
  dsimp only
  split
  · exact fun p listed => .inr ⟨p, listed, rfl, rfl⟩
  · intro p listed
    rcases listed_of_modPair listed with rfl | old
    · by_cases reset : s.pair w.stream = Pair.reset
      · exact .inl (congrArg Pair.coming reset)
      · exact .inr ⟨_, mem_of_sget_ne reset, rfl, rfl⟩
    · exact .inr ⟨p, old, rfl, rfl⟩

theorem leaveLane_frame : OnlyChanges [.ing] s (s.leaveLane w void x) :=
  State.leaveLane_frame _ _ _ _ (OnlyChanges.refl _ _) (by decide)

/-- A record that leaves its lane brings no frame and no waiter with it. -/
theorem quiet_leaveLane (quiet : Quiet s) : Quiet (s.leaveLane w void x) := by
  obtain ⟨noFrames, noWaiters⟩ := quiet
  refine ⟨leaveLane_rx.trans noFrames, ?_⟩
  simp only [State.laneWaiters, List.append_eq_nil_iff, List.filterMap_eq_nil_iff, List.flatMap_eq_nil_iff] at noWaiters ⊢
  obtain ⟨noRecords, noScales⟩ := noWaiters
  constructor
  · rw [leaveLane_window]
    intro y listed
    obtain ⟨z, held, rfl⟩ := List.mem_map.mp listed
    split
    · exact if_neg (by unfold handedOver; dsimp only; split <;> decide)
    · exact noRecords z held
  · intro p listed
    rcases leaveLane_coming p listed with none | ⟨q, held, stream, coming⟩
    · simp [none]
    · rw [coming, stream]
      exact noScales q held

theorem leaveLane_record {st : Nat} {sq : Word32} (found : s.window st sq = some w) :
    (s.leaveLane w void x).window st sq = some (handedOver s w void x) := by
  obtain ⟨rfl, rfl⟩ := window_key found
  have moved : (s.modWindow w.stream w.seq fun _ => handedOver s w void x).window w.stream w.seq =
      (s.window w.stream w.seq).map fun _ => handedOver s w void x :=
    Places.find?_map_if (f := fun _ => handedOver s w void x) (fun y => by simp) (fun y _ => by simp [handedOver]) s.ing.window
  simp only [State.window, leaveLane_window]
  exact moved.trans (congrArg _ found)

theorem budgetVoids_leaveLane : ((s.leaveLane w 3 x).stream w.stream).budgetVoids =
    min ((s.stream w.stream).budgetVoids + 1) 65535 := by
  have counted : (s.leaveLane w 3 x).ing.streams = smod Stream.reset s.ing.streams w.stream fun y => y.countVoid 3 := by
    unfold State.leaveLane
    dsimp only
    split <;> rfl
  have listed : (s.stream w.stream).countVoid 3 ≠ Stream.reset := by
    intro unlisted
    have none : min ((s.stream w.stream).budgetVoids + 1) 65535 = 0 := congrArg Stream.budgetVoids unlisted
    omega
  have read : (s.leaveLane w 3 x).stream w.stream = (s.stream w.stream).countVoid 3 := by
    unfold State.stream
    rw [counted]
    show sget Stream.reset (sset Stream.reset s.ing.streams w.stream ((s.stream w.stream).countVoid 3)) w.stream = _
    rw [sset, if_neg listed]
    exact (sget_sput _).trans (if_pos rfl)
  rw [read]
  rfl

end

/-! ## The two commands -/

section
variable {s : State} {w : WindowRecord} {l : Lane} {lane wait : Nat}

/-- What a lane leaves that hands its record over with a void status and what its payload supplies. -/
def freed (s : State) (lane : Nat) (w : WindowRecord) (void : Nat) (x : Supplied) : State :=
  ((s.freeLane lane).leaveLane w void x).pump

theorem laneSteps_of_record (record : l.scale = false) (found : s.window l.stream l.seq = some w) :
    s.laneSteps l wait = if w.frame = [] then l.work else l.work + wait := by
  simp [State.laneSteps, record, found]

theorem exec_decodeDone_of_within (up : s.up = true) (busy : s.ing.lanes[lane]? = some (some l)) (record : l.scale = false)
    (found : s.window l.stream l.seq = some w) (within : s.laneSteps l wait ≤ l.budget) :
    exec (.decodeDone lane wait) s = .next (freed s lane w (s.decodeRecord w).1 (s.decodeRecord w).2) := by
  have same : (s.freeLane lane).window l.stream l.seq = some w := found
  show execDecodeDone lane wait s = _
  unfold execDecodeDone
  simp only [up, List.getD_eq_getElem?_getD, busy, Option.getD_some, Nat.not_lt.mpr within, record, same, if_false, Bool.true_eq_false,
    Bool.false_eq_true]
  rfl

theorem exec_decodeDone_of_beyond (up : s.up = true) (busy : s.ing.lanes[lane]? = some (some l)) (beyond : l.budget < s.laneSteps l wait)
    :
    exec (.decodeDone lane wait) s = .next s := by
  show execDecodeDone lane wait s = _
  unfold execDecodeDone
  simp only [up, List.getD_eq_getElem?_getD, busy, Option.getD_some, if_pos beyond, Bool.true_eq_false, if_false]

theorem exec_decodeBudget_of_within (up : s.up = true) (busy : s.ing.lanes[lane]? = some (some l)) (within : s.laneSteps l wait ≤
    l.budget) :
    exec (.decodeBudget lane wait) s = .next s := by
  show execDecodeBudget lane wait s = _
  unfold execDecodeBudget
  simp only [up, List.getD_eq_getElem?_getD, busy, Option.getD_some, if_pos within, Bool.true_eq_false, if_false]

theorem exec_decodeBudget_of_beyond (up : s.up = true) (busy : s.ing.lanes[lane]? = some (some l)) (record : l.scale = false)
    (found : s.window l.stream l.seq = some w) (beyond : l.budget < s.laneSteps l wait) :
    exec (.decodeBudget lane wait) s = .next (freed s lane w 3 ⟨[], []⟩) := by
  have same : (s.freeLane lane).window l.stream l.seq = some w := found
  show execDecodeBudget lane wait s = _
  unfold execDecodeBudget
  simp only [up, List.getD_eq_getElem?_getD, busy, Option.getD_some, Nat.not_le.mpr beyond, record, same, if_false, Bool.true_eq_false,
    Bool.false_eq_true]
  rfl

theorem freed_after {void : Nat} {x : Supplied} (quiet : Quiet s) (found : s.window l.stream l.seq = some w) :
    OnlyChanges [.ing, .pwr, .out] s (freed s lane w void x) ∧ (freed s lane w void x).ing.lanes = s.ing.lanes.set lane none ∧
      (freed s lane w void x).window l.stream l.seq = some (handedOver s w void x) := by
  have same : (s.freeLane lane).window l.stream l.seq = some w := found
  have pumped : OnlyChanges [.pwr, .out] ((s.freeLane lane).leaveLane w void x) (freed s lane w void x) :=
    pump_of_quiet_frame (quiet_leaveLane (s := s.freeLane lane) quiet)
  have ing := ing_eq_of_onlyChanges pumped (by decide)
  refine ⟨?_, ?_, ?_⟩
  · exact State.pump_frame _ (State.leaveLane_frame _ _ _ _ (State.freeLane_frame _ _ (OnlyChanges.refl _ _) (by decide)) (by decide))
      (by decide) (by decide) (by decide)
  · rw [ing, leaveLane_lanes]
    rfl
  · simp only [State.window, ing]
    exact leaveLane_record same

end

/-! ## What a record supplies (R179, R190) -/

section
variable {s : State} {w : WindowRecord}

theorem decodeRecord_of_route {r : Route} (unvoid : w.void = 0) (frame : w.frame ≠ []) (crc : frameCrcOk w.frame = true)
    (route : (s.tablesAt w.tgen).route w.stream = some r) :
    s.decodeRecord w = if ∃ b, w.block = some b ∧ b.number ≠ (frameHeader w.frame).block then (2, ⟨[], []⟩)
      else match decodePayload (frameHeader w.frame) ((s.tablesAt w.tgen).qtable r.qtable) r.missing
          ((w.block.map (fun b => b.scales)).getD []) (frameBody w.frame) with
        | none => (2, ⟨[], []⟩)
        | some x => (0, x) := by
  have scales : w.block.elim [] (·.scales) = (w.block.map (fun b => b.scales)).getD [] := by cases w.block <;> rfl
  have other : w.block.any (fun b => b.number != (frameHeader w.frame).block) = true ↔
      ∃ b, w.block = some b ∧ b.number ≠ (frameHeader w.frame).block := by
    cases w.block <;> simp
  unfold State.decodeRecord
  simp only [unvoid, frame, crc, route, ne_eq, not_true_eq_false, if_false, Bool.true_eq_false, scales]
  by_cases wrong : ∃ b, w.block = some b ∧ b.number ≠ (frameHeader w.frame).block
  · rw [if_pos (other.mpr wrong), if_pos wrong]
  · rw [if_neg (mt other.mp wrong), if_neg wrong] <;> rfl

end

/-- Settles O35: whether the steps stay within the budget decides which of the two commands acts, and in a quiet state the pump
behind it moves nothing. -/
theorem decodeEnds : Obligations.DecodeEnds := by
  intro lane wait l w s up quiet busy record found
  have steps := laneSteps_of_record (wait := wait) record found
  have key := window_key found
  refine ⟨fun within => ?_, fun beyond => ?_, fun unvoid frame crc => ?_, fun r unvoid frame crc route => ?_,
    fun unvoid frame => ?_, fun void => ?_⟩
  · rw [← steps] at within
    exact ⟨⟨_, exec_decodeDone_of_within up busy record found within, freed_after quiet found⟩,
      exec_decodeBudget_of_within up busy within⟩
  · rw [← steps] at beyond
    refine ⟨⟨_, exec_decodeBudget_of_beyond up busy record found beyond, freed_after quiet found, ?_⟩,
      exec_decodeDone_of_beyond up busy beyond⟩
    have pumped : OnlyChanges [.pwr, .out] ((s.freeLane lane).leaveLane w 3 ⟨[], []⟩) (freed s lane w 3 ⟨[], []⟩) :=
      pump_of_quiet_frame (quiet_leaveLane (s := s.freeLane lane) quiet)
    simp only [State.stream, ing_eq_of_onlyChanges pumped (by decide)]
    rw [← key.1]
    exact budgetVoids_leaveLane (s := s.freeLane lane)
  · simp [State.decodeRecord, unvoid, frame, crc, stVoidCrc]
  · exact decodeRecord_of_route unvoid frame crc route
  · simp [State.decodeRecord, unvoid, frame, WindowRecord.soundCodes]
  · simp [State.decodeRecord, void]

end Sys2Proof.DecodeLanes
end

section
/-! PROOFS. A Curry pass (R428, R429): the item that an array reads next, and what its comparison leaves. -/

-- Each theorem is checked before the next one, which bounds the threads that the compiler takes.
set_option Elab.async false

namespace Sys2Proof.CurryPasses
open Sys2Proof Sys2Proof.Machine Sys2Proof.Safety Sys2Proof.Laws Sys2Proof.PartsKept
open Sys2Proof.ThermalThresholds (grp_eq_of_onlyChanges)
open Sys2Proof.Answering (onlyChanges_mono)

/-! ## The place that an array serves -/

section
variable {s t : State} {phys p : Nat}

theorem servedBy_of_arr (map : t.arr.map = s.arr.map) (out : t.arr.out = s.arr.out) : t.servedBy phys = s.servedBy phys := by
  simp only [State.servedBy, State.physOf, State.inService, map, out]

theorem servedBy_of_spare (spare : ∀ p, p < 32 → s.physOf p ≠ phys) : s.servedBy phys = phys := by
  have none : (List.range 32).find? (fun p => s.physOf p == phys) = none := by
    simpa [List.find?_eq_none] using spare
  have noneInService : (List.range 32).find? (fun p => s.inService p && s.physOf p == phys) = Option.none := by
    simp only [List.find?_eq_none, List.mem_range, Bool.and_eq_true, beq_iff_eq, not_and]
    exact fun q inRange _ => spare q inRange
  simp only [State.servedBy, none, noneInService]
  rfl

theorem servedBy_of_only (inRange : p < 32) (holds : s.physOf p = phys) (serves : s.inService p = true)
    (only : ∀ q, q < 32 → s.physOf q = phys → s.inService q = true → q = p) : s.servedBy phys = p := by
  have found : (List.range 32).find? (fun q => s.inService q && s.physOf q == phys) = some p := by
    rcases first : (List.range 32).find? (fun q => s.inService q && s.physOf q == phys) with - | q
    · exact absurd (List.find?_eq_none.mp first p (List.mem_range.mpr inRange)) (by simp [holds, serves])
    · have here := List.find?_some first
      simp only [Bool.and_eq_true, beq_iff_eq] at here
      rw [only q (List.mem_range.mp (List.mem_of_find?_eq_some first)) here.2 here.1]
  simp only [State.servedBy, found]
  rfl

theorem disturbAll_array (s : State) (ups : List Upset) :
    (s.disturbAll ups).arr.map = s.arr.map ∧ (s.disturbAll ups).arr.out = s.arr.out := by
  refine List.foldlRecOn (motive := fun t : State => t.arr.map = s.arr.map ∧ t.arr.out = s.arr.out) ups State.disturb ⟨rfl, rfl⟩ ?_
  intro t kept u _
  cases u <;> exact kept

end

/-! ## A comparison -/

section
variable {s : State} {phys : Nat} {ups : List Upset}

theorem arrayLive_eq_false_iff :
    s.arrayLive phys = false ↔ bitOf s.arr.retired.toNat phys = true ∨ (s.pkg.variant.active ≤ phys ∧ phys < 32) := by
  simp only [State.arrayLive, Bool.and_eq_false_iff, Bool.not_eq_false', Bool.and_eq_true, decide_eq_true_eq]

/-- The cycle of an array after its item n. -/
def cycled (f : Faults) (phys n : Nat) : Faults :=
  let last := decide (curryItems ≤ n + 1)
  { f with
    curry := f.curry.set phys (if last then 0 else n + 1)
    cycles := if last then f.cycles.modify phys (satAdd 32 · 1) else f.cycles }

/-- What the read of an item leaves before its comparison. -/
def itemRead (s : State) (phys : Nat) (ups : List Upset) : State :=
  { s.disturbAll ups with flt := cycled (s.disturbAll ups).flt phys (s.flt.curry.getD phys 0) }

/-- The mismatch of an item, as it is queued. -/
def mismatched (s : State) (d : Detected) : State :=
  ({ s with flt := { s.flt with mismatches := satAdd 16 s.flt.mismatches 1 } } : State).enqueueFault d

/-- The comparison of an item that has been read. -/
def compared (s : State) (pos phys : Nat) (i : Item) : State :=
  if s.itemOk pos phys i then s
  else if s.flt.queue.any (fun x => x.part == (s.curryFault pos phys i).part) then s
  else mismatched s (s.curryFault pos phys i)

theorem exec_curryItem_of_idle (idle : s.up = false ∨ s.live.curryEn = false ∨ s.suspended = true ∨ s.arrayLive phys = false) :
    exec (.curryItem phys ups) s = .next s :=
  congrArg Host.Outcome.next (if_pos idle)

theorem exec_curryItem_of_live (up : s.up = true) (en : s.live.curryEn = true) (free : s.suspended = false)
    (live : s.arrayLive phys = true) : exec (.curryItem phys ups) s =
      .next (compared (itemRead s phys ups) (s.servedBy phys) phys (curryItem (s.flt.curry.getD phys 0))) := by
  obtain ⟨map, out⟩ := disturbAll_array s ups
  have served : (itemRead s phys ups).servedBy phys = s.servedBy phys := servedBy_of_arr map out
  rw [← served]
  exact congrArg Host.Outcome.next (if_neg (by simp [up, en, free, live]))

/-! ## What the read of an item leaves -/

theorem itemRead_frame : OnlyChanges [.acc, .arr, .tally, .flt] s (itemRead s phys ups) := by
  have disturbed : OnlyChanges [.acc, .arr, .tally, .flt] s (s.disturbAll ups) :=
    State.disturbAll_frame _ _ (OnlyChanges.refl _ _) (by decide) (by decide) (by decide)
  exact disturbed

theorem itemRead_flt : (itemRead s phys ups).flt = cycled s.flt phys (s.flt.curry.getD phys 0) := by
  have flt : (s.disturbAll ups).flt = s.flt :=
    flt_eq_of_onlyChanges (State.disturbAll_frame (fs := [.acc, .arr, .tally]) _ _ (OnlyChanges.refl _ _) (by decide) (by decide)
      (by decide)) (by decide)
  show cycled (s.disturbAll ups).flt _ _ = _
  rw [flt]

/-- The cycle goes on at the next item, and from the last to the first, when CYCLES counts (R428, R435). -/
theorem cycled_goesOn {f g : Faults} {n : Nat} (inRange : phys < 34) (curry : f.curry.length = 34) (cycles : f.cycles.length = 34)
    (next : g.curry = (cycled f phys n).curry) (count : g.cycles = (cycled f phys n).cycles) :
    g.curry.getD phys 0 = (if 53247 ≤ n then 0 else n + 1) ∧ (∀ q, q ≠ phys → g.curry.getD q 0 = f.curry.getD q 0) ∧
    (53247 ≤ n → g.cycles.getD phys 0 = min (f.cycles.getD phys 0 + 1) 4294967295) ∧ (n < 53247 → g.cycles = f.cycles) := by
  have last : decide (curryItems ≤ n + 1) = decide (53247 ≤ n) := decide_eq_decide.mpr (by simp [curryItems])
  rw [next, count]
  simp only [cycled, last, decide_eq_true_eq]
  refine ⟨?_, fun q other => ?_, fun last => ?_, fun more => if_neg (Nat.not_le.mpr more)⟩
  · simp [List.getD_eq_getElem?_getD, curry, inRange]
  · simp [List.getD_eq_getElem?_getD, List.getElem?_set_ne (Ne.symm other)]
  · simp [last, List.getD_eq_getElem?_getD, cycles, inRange, satAdd]

theorem mismatched_groups {d : Detected} : ∀ g ∈ (mismatched s d).grp.groups, g.gid = d.grp → g.paused = true := by
  intro g listed own
  obtain ⟨y, -, rfl⟩ := List.mem_map.mp listed
  by_cases same : y.gid = d.grp
  · rw [if_pos same]
  · rw [if_neg same] at own
    exact absurd own same

end

/-! ## The items of a cycle (R428) -/

theorem curryItem_cell (π : Bool) {slot c : Nat} (hs : slot < 256) (hc : c < 64) :
    curryItem ((if π then 16384 else 0) + 64 * slot + c) = .cell π slot c := by
  have lower : (if π then 16384 else 0) + 64 * slot + c < 32768 := by cases π <;> simp <;> omega
  rw [curryItem, if_pos lower]
  cases π <;> simp <;> omega

theorem curryItem_desc (π : Bool) {slot : Nat} (hs : slot < 256) :
    curryItem (32768 + (if π then 256 else 0) + slot) = .desc π slot := by
  have lower : 32768 + (if π then 256 else 0) + slot < 33280 := by cases π <;> simp <;> omega
  rw [curryItem, if_neg (by omega), if_pos lower]
  cases π <;> simp <;> omega

theorem curryItem_mask {m : Nat} (hm : m < 1024) : curryItem (33280 + m) = .mask m := by
  rw [curryItem, if_neg (by omega), if_neg (by omega), if_pos (by omega), Nat.add_sub_cancel_left]

theorem curryItem_row {bank r : Nat} (hb : bank < 16) (hr : r < 1152) : curryItem (34304 + 1152 * bank + r) = .row bank r := by
  have item : (34304 + 1152 * bank + r - 34304) / 1152 = bank ∧ (34304 + 1152 * bank + r - 34304) % 1152 = r := by omega
  rw [curryItem, if_neg (by omega), if_neg (by omega), if_neg (by omega), if_pos (by omega), item.1, item.2]

theorem curryItem_scale (k : Nat) : curryItem (52736 + k) = .scale (4 * k) := by
  rw [curryItem, if_neg (by omega), if_neg (by omega), if_neg (by omega), if_neg (by omega), Nat.add_sub_cancel_left]

/-- Settles O56: the comparison is that of the item with the disturbed bits, and its three answers are the branches. -/
theorem curryItem : Obligations.CurryItem := by
  refine ⟨?reads, ?rests, fun phys s => servedBy_of_spare, fun phys p s => servedBy_of_only, fun π slot c => curryItem_cell π,
    fun π slot => curryItem_desc π, fun m => curryItem_mask, fun bank r => curryItem_row, fun k _ => curryItem_scale k⟩
  case reads =>
    intro phys ups s up en free inRange kept fused curry cycles n s1 d
    have live : s.arrayLive phys = true := by
      rw [← Bool.not_eq_false, arrayLive_eq_false_iff]
      simp [kept, fused]
    have flt := itemRead_flt (s := s) (phys := phys) (ups := ups)
    have grp : (itemRead s phys ups).grp = s.grp := grp_eq_of_onlyChanges itemRead_frame (by decide)
    have run := exec_curryItem_of_live (ups := ups) up en free live
    obtain ⟨own, others, wraps, more⟩ :=
      cycled_goesOn (g := (itemRead s phys ups).flt) inRange curry cycles (congrArg Faults.curry flt) (congrArg Faults.cycles flt)
    have queue : (itemRead s phys ups).flt.queue = s.flt.queue := by rw [flt]; rfl
    have mismatches : (itemRead s phys ups).flt.mismatches = s.flt.mismatches := by rw [flt]; rfl
    have item : (itemRead s phys ups).itemOk (s.servedBy phys) phys (Machine.curryItem n) =
        s1.itemOk (s.servedBy phys) phys (Machine.curryItem n) := rfl
    have fault : (itemRead s phys ups).curryFault (s.servedBy phys) phys (Machine.curryItem n) = d := rfl
    rw [compared, item, fault, queue] at run
    by_cases ok : s1.itemOk (s.servedBy phys) phys (Machine.curryItem n) = true
    · exact ⟨itemRead s phys ups, run.trans (congrArg _ (if_pos ok)), onlyChanges_mono (by decide) itemRead_frame, rfl, rfl, rfl,
        own, others, wraps, more, fun _ => ⟨grp, queue, mismatches⟩, fun wrong => absurd ok (by simp [wrong])⟩
    · by_cases queued : s.flt.queue.any (fun x => x.part == d.part) = true
      · obtain ⟨x, listed, same⟩ := List.any_eq_true.mp queued
        exact ⟨itemRead s phys ups, run.trans (congrArg _ ((if_neg ok).trans (if_pos queued))),
          onlyChanges_mono (by decide) itemRead_frame, rfl, rfl, rfl, own, others, wraps, more, fun good => absurd good ok,
          fun _ => ⟨fun _ => ⟨queue, grp⟩, fun none => absurd (eq_of_beq same) (none x listed)⟩⟩
      · exact ⟨mismatched (itemRead s phys ups) d, run.trans (congrArg _ ((if_neg ok).trans (if_neg queued))),
          State.enqueueFault_frame _ _ (onlyChanges_mono (by decide) (itemRead_frame (phys := phys))) (by decide) (by decide), rfl, rfl,
              rfl,
          own, others, wraps, more, fun good => absurd good ok,
          fun _ => ⟨fun ⟨x, listed, same⟩ => absurd (List.any_eq_true.mpr ⟨x, listed, by simp [same]⟩) queued,
            fun _ => ⟨congrArg (· ++ [d]) queue, congrArg (satAdd 16 · 1) mismatches, mismatched_groups⟩⟩⟩
  case rests =>
    intro phys ups s rests
    refine exec_curryItem_of_idle ?_
    rw [arrayLive_eq_false_iff]
    tauto

end Sys2Proof.CurryPasses
end

section
/-! PROOFS. Reads of Tally words (R160, R161, R510) and the spare rows of tiles (R421). -/

-- Each theorem is checked before the next one, which bounds the threads that the compiler takes.
set_option Elab.async false

namespace Sys2Proof.TallyWords
open Sys2Proof Sys2Proof.Machine Sys2Proof.Safety Sys2Proof.Laws Sys2Proof.PartsKept Sys2Proof.GaitSteps Sys2Proof.KeptStores
open Sys2Proof.JobEntries (tally_eq_of_onlyChanges)
open Sys2Proof.StagedFields (mem_insertNat)
open Sys2Proof.Answering (onlyChanges_mono)

/-! ## The log -/

/-- An event is the last entry of the log, under the index that LOG_HEAD had. -/
theorem logEvent_last (s : State) (ev cls rung : Nat) (d : Detected) (detail : Nat) :
    (s.logEvent ev cls rung d detail).flt.log.getLast? = some (entryOf s ev cls rung d detail) ∧
      (s.logEvent ev cls rung d detail).flt.logHead = s.flt.logHead + 1 := by
  rw [logEvent_flt, (count_log _ _).1, (count_log _ _).2]
  exact ⟨append_getLast? _ _, append_logHead _ _⟩

theorem logEvent_tally (s : State) (ev cls rung : Nat) (d : Detected) (detail : Nat) :
    (s.logEvent ev cls rung d detail).tally = s.tally :=
  tally_eq_of_onlyChanges (State.logEvent_frame (fs := [.flt, .pins, .out]) _ _ _ _ _ _ (OnlyChanges.refl _ _) (by decide) (by decide)
    (by decide)) (by decide)

/-! ## The stored word and its check (R160) -/

section
variable {s : State} {w : Nat} {v : Word} {x : TallyWord}

/-- The word of SFD_DBG_TALLY_ECC: the stored check bits, and what the read found. -/
def eccWord (x : TallyWord) (corrected lost : Bool) : Word :=
  wordOf [((tallyStoredCheck x).toNat, 0, 8), (flag corrected, 8, 1), (flag lost, 9, 1)]

theorem eccWord_flags (x : TallyWord) (corrected lost : Bool) :
    wbit (eccWord x corrected lost) 8 = corrected ∧ wbit (eccWord x corrected lost) 9 = lost := by
  have word : eccWord x corrected lost =
      BitVec.ofNat 64 ((tallyStoredCheck x).toNat % 256 + flag corrected % 2 * 256 + flag lost % 2 * 512) := by
    simp only [eccWord, wordOf, place, List.foldl_cons, List.foldl_nil, Nat.shiftLeft_eq, Nat.zero_add, Nat.pow_zero, Nat.mul_one,
      Nat.reducePow]
  have low : (tallyStoredCheck x).toNat % 256 < 256 := Nat.mod_lt _ (by decide)
  rw [word]
  simp only [wbit, bitOf, BitVec.toNat_ofNat, Nat.testBit, Nat.shiftRight_eq_div_pow, Nat.one_and_eq_mod_two]
  generalize (tallyStoredCheck x).toNat % 256 = c at low
  constructor
  · have bit : (c + flag corrected % 2 * 256 + flag lost % 2 * 512) % 2 ^ 64 / 2 ^ 8 % 2 = flag corrected := by
      cases corrected <;> cases lost <;> simp only [flag, if_true, if_false, Bool.false_eq_true] <;> omega
    rw [bit]
    cases corrected <;> rfl
  · have bit : (c + flag corrected % 2 * 256 + flag lost % 2 * 512) % 2 ^ 64 / 2 ^ 9 % 2 = flag lost := by
      cases corrected <;> cases lost <;> simp only [flag, if_true, if_false, Bool.false_eq_true] <;> omega
    rw [bit]
    cases lost <;> rfl

theorem tallyRead_of_clean (clean : ones 72 x.flips.toNat = 0) : tallyRead x = (x.value, false, false) := if_pos clean

theorem tallyRead_of_one (one : ones 72 x.flips.toNat = 1) : tallyRead x = (x.value, true, false) := by
  simp [tallyRead, one]

theorem tallyRead_of_two (two : ones 72 x.flips.toNat = 2) : tallyRead x = (x.value ^^^ x.flips.setWidth 64, false, true) := by
  simp [tallyRead, two]

/-! ## What a read leaves -/

/-- The state after a read of a word that answered so. -/
def afterRead (s : State) (w : Nat) (r : Word × Bool × Bool) : State :=
  if r.2.1 then s.correctWord w r.1 else if r.2.2 then s.loseWord w
  else { s with tally := { s.tally with corrected := s.tally.corrected.filter (· != w) } }

theorem readTally_state : (s.readTally w).2 = afterRead s w (tallyRead (s.tallyWord w)) := by
  unfold State.readTally afterRead
  obtain ⟨v, corrected, lost⟩ := tallyRead (s.tallyWord w)
  cases corrected <;> cases lost <;> rfl

theorem correctWord_words : (s.correctWord w v).tally.words = sset TallyWord.reset s.tally.words w ⟨v, 0⟩ := by
  unfold State.correctWord
  dsimp only
  split
  · unfold State.logTally
    rw [logEvent_tally]
    rfl
  · rfl

theorem loseWord_of_told (told : w ∈ s.tally.told) : s.loseWord w = s := if_pos (List.contains_iff_mem.mpr told)

/-- A word that is lost for the first time is named in its tile and in the fault log (R161). -/
theorem loseWord_of_new (new : w ∉ s.tally.told) :
    (s.loseWord w).tally.words = s.tally.words ∧ w % 256 ∈ ((s.loseWord w).tile (w / 256)).lost ∧
      (s.loseWord w).flt.logHead = s.flt.logHead + 1 := by
  let named (t : Tile) : Tile := { t with lost := insertNat t.lost (w % 256) }
  have held : w % 256 ∈ (named (s.tile (w / 256))).lost := (mem_insertNat _ _ _).mpr (.inl rfl)
  have listed : named (s.tile (w / 256)) ≠ Tile.reset := fun reset => by
    rw [reset] at held
    cases held
  have tile : sget Tile.reset (s.modTile (w / 256) named).tally.tiles (w / 256) = named (s.tile (w / 256)) := by
    show sget Tile.reset (sset Tile.reset s.tally.tiles (w / 256) (named (s.tile (w / 256)))) (w / 256) = _
    rw [sset, if_neg listed]
    exact (sget_sput _).trans (if_pos rfl)
  have lost : s.loseWord w = ({ s.modTile (w / 256) named with
      tally := { (s.modTile (w / 256) named).tally with told := insertNat (s.modTile (w / 256) named).tally.told w } } : State).logTally
          w :=
    if_neg fun told => new (List.contains_iff_mem.mp told)
  unfold State.logTally at lost
  rw [lost, State.tile, logEvent_tally]
  exact ⟨rfl, tile.symm ▸ held, (logEvent_last _ _ _ _ _ _).2⟩

/-- A read touches no word but its own, and that one only to correct it. -/
theorem afterRead_words (r : Word × Bool × Bool) : (afterRead s w r).tally.words =
    if r.2.1 then sset TallyWord.reset s.tally.words w ⟨r.1, 0⟩ else s.tally.words := by
  unfold afterRead
  split
  · exact correctWord_words
  split
  · by_cases told : w ∈ s.tally.told
    · rw [loseWord_of_told told]
    · exact (loseWord_of_new told).1
  · rfl

theorem afterRead_frame (r : Word × Bool × Bool) : OnlyChanges [.tally, .flt, .pins, .out] s (afterRead s w r) := by
  unfold afterRead
  split
  · exact State.correctWord_frame _ _ _ (OnlyChanges.refl _ _) (by decide) (by decide) (by decide) (by decide)
  split
  · exact State.loseWord_frame _ _ (OnlyChanges.refl _ _) (by decide) (by decide) (by decide) (by decide)
  · exact OnlyChanges.refl _ _

end

/-! ## The debug window (R510) -/

/-- What the debug window shows of the selected word. -/
def shown (s : State) : Selects :=
  let x := s.tallyWord (wfield s.sel.tally 0 18)
  { s.sel with tallyValue := (tallyRead x).1, tallyEcc := eccWord x (tallyRead x).2.1 (tallyRead x).2.2 }

theorem exec_sfdDbgTally_of_up {s : State} (up : s.up = true) : exec .sfdDbgTally s = .next
    { afterRead s (wfield s.sel.tally 0 18) (tallyRead (s.tallyWord (wfield s.sel.tally 0 18))) with sel := shown s } := by
  have sel : ((s.readTally (wfield s.sel.tally 0 18)).2).sel = s.sel := by
    have frame := afterRead_frame (s := s) (w := wfield s.sel.tally 0 18) (tallyRead (s.tallyWord (wfield s.sel.tally 0 18)))
    rw [readTally_state]
    simpa [mask] using congrArg State.sel frame
  rw [← readTally_state]
  refine congrArg Host.Outcome.next ((if_pos up).trans ?_)
  show ({ (s.readTally (wfield s.sel.tally 0 18)).2 with sel := { (s.readTally (wfield s.sel.tally 0 18)).2.sel with
    tallyValue := (shown s).tallyValue, tallyEcc := (shown s).tallyEcc } } : State) = _
  rw [sel]
  rfl

/-! ## Spare rows (R421) -/

section
variable {s : State} {n : Nat}

/-- A word as the repair of its tile leaves it. -/
def repaired (n : Nat) (x : Nat × TallyWord) : Nat × TallyWord :=
  if x.1 / 256 = n ∧ ones 72 x.2.flips.toNat = 1 then (x.1, ⟨x.2.value, 0⟩) else x

/-- A tile that has its spare row, or goes without. -/
def unspared (s : State) (n : Nat) : State :=
  { s with tally := { s.tally with sparing := s.tally.sparing.filter (· != n) } }

/-- A tile in a spare row, its words corrected where they can be. -/
def spared (s : State) (n : Nat) : State :=
  { s with tally := { s.tally with
    sparing := s.tally.sparing.filter (· != n)
    words := (s.tally.words.map (repaired n)).filter (fun x => x.2 != TallyWord.reset)
    spared := s.tally.spared ++ [n] } }

theorem exec_tileSpared_of_idle (idle : n ∉ s.tally.sparing ∨ (s.tile n).owner ≠ none) : exec (.tileSpared n) s = .next s := by
  refine congrArg Host.Outcome.next (if_pos (.inr ?_))
  rcases idle with idle | owned
  · exact .inl (by simpa using idle)
  · exact .inr (Option.isSome_iff_ne_none.mpr owned)

theorem exec_tileSpared_of_due (up : s.up = true) (waits : n ∈ s.tally.sparing) (free : (s.tile n).owner = none) :
    exec (.tileSpared n) s = .next (if s.tally.spared.length < 8 then
      (spared s n).logEvent evTileSpared clsAction 0 Detected.nowhere n
      else (unspared s n).logEvent evTileUnrepaired clsLasting 0 Detected.nowhere n) :=
  congrArg Host.Outcome.next (if_neg (by simp [up, waits, free]))

theorem not_mem_sparing : n ∉ s.tally.sparing.filter (· != n) := by simp

theorem repaired_fst (x : Nat × TallyWord) : (repaired n x).1 = x.1 := by
  unfold repaired
  split <;> rfl

theorem sget_of_mem {α : Type} {d x : α} {m : Sparse α} {k : Nat} (rising : Rising m) (listed : (k, x) ∈ m) : sget d m k = x := by
  induction m with
  | nil => cases listed
  | cons z m ih =>
    obtain ⟨i, y⟩ := z
    obtain ⟨above, rest⟩ := rising_cons.mp rising
    rcases List.mem_cons.mp listed with same | later
    · cases same
      exact if_pos rfl
    · exact (if_neg (Nat.ne_of_lt (above _ later))).trans (ih rest later)

/-- A store rewritten item by item, its defaults left out, reads back rewritten. -/
theorem sget_map_filter {α : Type} [DecidableEq α] {d : α} {f : Nat × α → Nat × α} (key : ∀ x, (f x).1 = x.1) {m : Sparse α}
    (rising : Rising m) (k : Nat) (unlisted : (f (k, d)).2 = d) :
    sget d ((m.map f).filter fun x => x.2 != d) k = (f (k, sget d m k)).2 := by
  by_contra other
  rcases ne_or_eq (sget d m k) d with held | absent
  · have moved : f (k, sget d m k) ∈ m.map f := List.mem_map.mpr ⟨_, mem_of_sget_ne held, rfl⟩
    have pair : f (k, sget d m k) = (k, (f (k, sget d m k)).2) := Prod.ext (key _) rfl
    rcases ne_or_eq (f (k, sget d m k)).2 d with stays | falls
    · have listed : f (k, sget d m k) ∈ (m.map f).filter fun x => x.2 != d := List.mem_filter.mpr ⟨moved, bne_iff_ne.mpr stays⟩
      rw [pair] at listed
      exact other (sget_of_mem ((rising.map key).filter) listed)
    · rw [falls] at other
      obtain ⟨stays, shows⟩ := List.mem_filter.mp (mem_of_sget_ne other)
      have same := sget_of_mem (d := d) (rising.map key) stays
      rw [sget_of_mem (d := d) (rising.map key) (pair ▸ moved), falls] at same
      exact other same.symm
  · rw [absent, unlisted] at other
    obtain ⟨⟨i, y⟩, held, same⟩ := List.mem_map.mp (List.mem_filter.mp (mem_of_sget_ne other)).1
    have own : i = k := (key (i, y)).symm.trans (congrArg Prod.fst same)
    subst own
    rw [sget_of_mem rising held] at absent
    subst absent
    exact other ((congrArg Prod.snd same).symm.trans unlisted)

theorem spared_words (ok : sparseOk TallyWord.reset s.tally.words = true) (w : Nat) : (spared s n).tallyWord w =
    if w / 256 = n ∧ ones 72 (s.tallyWord w).flips.toNat = 1 then ⟨(s.tallyWord w).value, 0⟩ else s.tallyWord w := by
  refine (sget_map_filter repaired_fst (sparseOk_iff.mp ok).2 w ?_).trans ?_
  · have clean : ones 72 TallyWord.reset.flips.toNat ≠ 1 := by decide
    rw [repaired, if_neg fun h => clean h.2]
  · unfold repaired State.tallyWord
    split <;> rfl

end

/-- Settles O54: the read answers by its number of wrong bits, and the spare row by the number of spares taken. -/
theorem tallyReads : Obligations.TallyReads := by
  refine ⟨?reads, ?spares, fun n s => exec_tileSpared_of_idle⟩
  case reads =>
    intro s up stores w x n
    obtain ⟨words, -⟩ := stores
    have word (v : Nat) : (afterRead s w (tallyRead x)).tallyWord v =
        if (tallyRead x).2.1 = true ∧ v = w then ⟨(tallyRead x).1, 0⟩ else s.tallyWord v := by
      unfold State.tallyWord
      rw [afterRead_words]
      by_cases corrected : (tallyRead x).2.1 = true
      · rw [if_pos corrected, sget_sset words]
        simp only [corrected, true_and]
      · rw [if_neg corrected, if_neg fun h => corrected h.1]
    refine ⟨_, exec_sfdDbgTally_of_up up, ?_, rfl, fun v other => ?_, fun clean => ?_, fun one => ?_, fun two => ?_⟩
    · have frame : OnlyChanges [.sel, .tally, .flt, .pins, .out] s (afterRead s w (tallyRead x)) :=
        onlyChanges_mono (by decide) (afterRead_frame _)
      exact frame
    · exact (word v).trans (if_neg fun h => other h.2)
    · have read := tallyRead_of_clean clean
      refine ⟨congrArg Prod.fst read, (word w).trans (if_neg fun h => ?_), ?_⟩
      · rw [read] at h
        exact Bool.false_ne_true h.1
      · show (afterRead s w (tallyRead x)).flt = s.flt
        rw [read]
        rfl
    · have read := tallyRead_of_one one
      obtain ⟨corrected, lost⟩ := eccWord_flags x (tallyRead x).2.1 (tallyRead x).2.2
      refine ⟨congrArg Prod.fst read, (word w).trans ?_, corrected.trans ?_, lost.trans ?_⟩
      · rw [read, if_pos ⟨rfl, rfl⟩]
      all_goals rw [read]
    · have read := tallyRead_of_two two
      obtain ⟨corrected, lost⟩ := eccWord_flags x (tallyRead x).2.1 (tallyRead x).2.2
      have after : afterRead s w (tallyRead x) = s.loseWord w := by
        rw [read]
        rfl
      refine ⟨congrArg Prod.fst read, (word w).trans (if_neg fun h => ?_), fun told => ?_, fun new => ?_, corrected.trans ?_,
        lost.trans ?_⟩
      · rw [read] at h
        exact Bool.false_ne_true h.1
      · show (afterRead s w (tallyRead x)).flt = s.flt
        rw [after, loseWord_of_told told]
      · show w % 256 ∈ ((afterRead s w (tallyRead x)).tile (w / 256)).lost ∧ (afterRead s w (tallyRead x)).flt.logHead = _
        rw [after]
        exact (loseWord_of_new new).2
      all_goals rw [read]
  case spares =>
    intro n s up stores waits free
    obtain ⟨words, -⟩ := stores
    have run := exec_tileSpared_of_due up waits free
    by_cases room : s.tally.spared.length < 8
    · rw [if_pos room] at run
      have tally := logEvent_tally (spared s n) evTileSpared clsAction 0 Detected.nowhere n
      refine ⟨_, _, run, ?_, ?_, ?_, (logEvent_last _ _ _ _ _ _).1, rfl, rfl, fun _ => ⟨?_, rfl, fun w => ?_⟩,
        fun none => absurd room (Nat.not_lt.mpr none)⟩
      · exact State.logEvent_frame _ _ _ _ _ _ (OnlyChanges.refl _ _) (by decide) (by decide) (by decide)
      · rw [tally]
        exact not_mem_sparing
      · rw [tally]
        rfl
      · rw [tally]
        rfl
      · rw [State.tallyWord, tally]
        exact spared_words words w
    · rw [if_neg room] at run
      have tally := logEvent_tally (unspared s n) evTileUnrepaired clsLasting 0 Detected.nowhere n
      refine ⟨_, _, run, ?_, ?_, ?_, (logEvent_last _ _ _ _ _ _).1, rfl, rfl, fun some => absurd some room, fun _ => ⟨?_, ?_, rfl⟩⟩
      · exact State.logEvent_frame _ _ _ _ _ _ (OnlyChanges.refl _ _) (by decide) (by decide) (by decide)
      · rw [tally]
        exact not_mem_sparing
      all_goals
        rw [tally]
        rfl

end Sys2Proof.TallyWords
end

section
/-! PROOFS. Returns of lines (R401 to R406, R468): the marks that a return leaves, and what memory then holds. -/

-- Each theorem is checked before the next one, which bounds the threads that the compiler takes.
set_option Elab.async false

namespace Sys2Proof.LineReturns
open Sys2Proof Sys2Proof.Machine Sys2Proof.Safety Sys2Proof.Laws Sys2Proof.PartsKept Sys2Proof.GaitSteps
open Sys2Proof.TallyWords (logEvent_last)
open Sys2Proof.JobEntries (live_eq_of_onlyChanges)
open Sys2Proof.InOrder (mem_eq_of_onlyChanges)
open Sys2Proof.StagedFields (mem_insertNat)
open Sys2Proof.Answering (onlyChanges_mono)

/-! ## The memory port's side of the fault state -/

section
variable {s : State} {a off : Nat} {data : List Byte}

/-- The marks and counts of the memory port, which no event of the log touches. -/
def portSide (f : Faults) : Faults :=
  { f with log := [], logHead := 0, logLost := 0, lostAt := none, trans := [], transients := 0, lasting := 0 }

theorem count_portSide (f : Faults) (cls : Nat) : portSide (f.count cls) = portSide f := by
  unfold Faults.count
  split
  · rfl
  · split <;> rfl

theorem append_portSide (f : Faults) (e : LogEntry) : portSide (f.append e) = portSide f := by
  unfold Faults.append
  dsimp only
  split <;> rfl

theorem logEvent_portSide (s : State) (ev cls rung : Nat) (d : Detected) (detail : Nat) :
    portSide (s.logEvent ev cls rung d detail).flt = portSide s.flt := by
  rw [logEvent_flt, count_portSide, append_portSide]

theorem logEvent_frame (s : State) (ev cls rung : Nat) (d : Detected) (detail : Nat) :
    OnlyChanges [.flt, .pins, .out] s (s.logEvent ev cls rung d detail) :=
  State.logEvent_frame _ _ _ _ _ _ (OnlyChanges.refl _ _) (by decide) (by decide) (by decide)

theorem transientLine_portSide : portSide (s.transientLine a).flt = portSide s.flt := by
  rw [State.transientLine, logEvent_portSide]
  rfl

/-- A transient error of a line is counted, and its entry is the last of the log (R403). -/
theorem transientLine_logged : (s.transientLine a).flt.transients = min (s.flt.transients + 1) 65535 ∧
    ∃ e, (s.transientLine a).flt.log.getLast? = some e ∧ e.event = evMemLine ∧ e.cls = 1 := by
  refine ⟨?_, _, (logEvent_last _ _ _ _ _ _).1, rfl, rfl⟩
  rw [State.transientLine, logEvent_flt, Faults.count, if_pos rfl]
  simp only [(append_counters _ _).2]
  rfl

theorem writeBack_flt : (s.writeBack a data).flt = s.flt :=
  flt_eq_of_onlyChanges (State.writeBack_frame (fs := [.mem]) _ _ _ (OnlyChanges.refl _ _) (by decide)) (by decide)

theorem rereadRow_flt : (s.rereadRow a data).flt = s.flt :=
  flt_eq_of_onlyChanges (State.rereadRow_frame (fs := [.ent, .mem]) _ _ _ (OnlyChanges.refl _ _) (by decide) (by decide)) (by decide)

/-- A line's two marks are over. -/
def taken (f : Faults) (a : Nat) : Faults :=
  { f with retryLines := f.retryLines.filter (· != a), lostLines := f.lostLines.filter (· != a) }

/-- The line of the other copy no longer waits. -/
def mended (f : Faults) (b : Nat) : Faults :=
  { f with mirrorWaits := f.mirrorWaits.filter (· != b), mirrorReads := satAdd 16 f.mirrorReads 1 }

theorem mendCopy_of_waiting {b : Nat} (copy : s.otherCopy a = some b) (waits : b ∈ s.flt.mirrorWaits) :
    s.mendCopy a data = ({ s with flt := mended s.flt b } : State).writeBack b data := by
  have waiting : (s.otherCopy a).filter s.flt.mirrorWaits.contains = some b := by simp [copy, waits]
  simp only [State.mendCopy, waiting]
  rfl

theorem mendCopy_of_not_waiting (free : ∀ b, s.otherCopy a = some b → b ∉ s.flt.mirrorWaits) : s.mendCopy a data = s := by
  have waiting : (s.otherCopy a).filter s.flt.mirrorWaits.contains = none := by
    rw [Option.filter_eq_none_iff]
    exact fun b copy => by simpa using free b copy
  simp only [State.mendCopy, waiting]

/-- The line as it is taken, before it mends the other copy. -/
def accepted (s : State) (a : Nat) (data : List Byte) : State :=
  let t := (s.rereadRow a data).write (s.redirect a) data
  { t with flt := taken t.flt a }

theorem acceptLine_eq : s.acceptLine a data = (accepted s a data).mendCopy a data := rfl

theorem accepted_flt : (accepted s a data).flt = taken s.flt a := congrArg (taken · a) rereadRow_flt

theorem accepted_frame : OnlyChanges [.ent, .flt, .mem] s (accepted s a data) := by
  have reread : OnlyChanges [.ent, .flt, .mem] s ((s.rereadRow a data).write (s.redirect a) data) :=
    State.write_frame _ _ _ (State.rereadRow_frame _ _ _ (OnlyChanges.refl _ _) (by decide) (by decide)) (by decide)
  exact reread

theorem otherCopy_of_live {t : State} (live : t.live = s.live) : t.otherCopy a = s.otherCopy a := by
  simp only [State.otherCopy, State.regionOf, live]

theorem accepted_live : (accepted s a data).live = s.live := live_eq_of_onlyChanges accepted_frame (by decide)

theorem acceptLine_of_free (free : ∀ b, s.otherCopy a = some b → b ∉ s.flt.mirrorWaits) : s.acceptLine a data = accepted s a data := by
  rw [acceptLine_eq]
  refine mendCopy_of_not_waiting fun b copy => ?_
  rw [otherCopy_of_live accepted_live] at copy
  rw [accepted_flt]
  exact free b copy

/-- What a line that is taken leaves of the marks: its own are over, and those of the copy that it mends. -/
theorem acceptLine_flt : (s.acceptLine a data).flt = taken s.flt a ∨
    ∃ b, s.otherCopy a = some b ∧ b ∈ s.flt.mirrorWaits ∧ (s.acceptLine a data).flt = mended (taken s.flt a) b := by
  by_cases free : ∀ b, s.otherCopy a = some b → b ∉ s.flt.mirrorWaits
  · exact .inl ((congrArg State.flt (acceptLine_of_free free)).trans accepted_flt)
  · obtain ⟨b, h⟩ := not_forall.mp free
    obtain ⟨copy, waits⟩ := Classical.not_imp.mp h
    have waits := not_not.mp waits
    refine .inr ⟨b, copy, waits, ?_⟩
    rw [acceptLine_eq, mendCopy_of_waiting (otherCopy_of_live accepted_live ▸ copy) (by rw [accepted_flt]; exact waits), writeBack_flt]
    exact congrArg (mended · b) accepted_flt

/-! ## Memory -/

theorem rereadRow_wf (wf : Memory.wf s.mem = true) : Memory.wf (s.rereadRow a data).mem = true := by
  unfold State.rereadRow
  split
  · dsimp only
    split
    · exact wf
    · exact memWrite_wf (s.redirect a) data wf
  · exact wf

theorem accepted_wf (wf : Memory.wf s.mem = true) : Memory.wf (accepted s a data).mem = true := write_wf _ _ (rereadRow_wf wf)

theorem pageHome_redirect (base size : Nat) : (s.pageHome base size (a / 4096)).1 + a % 4096 = s.redirect a := by
  unfold State.pageHome State.redirect
  split
  · exact Nat.div_add_mod a 4096
  · rfl

theorem memRead_write_other {n c : Nat} {bs : List Byte} (wf : Memory.wf s.mem = true) (off : ∀ i, i < n → Apart a bs.length (c + i)) :
    memRead (s.write a bs).mem c n = memRead s.mem c n :=
  List.map_congr_left fun i inside => write_other _ _ _ wf (off i (List.mem_range.mp inside))

theorem memRead_write (wf : Memory.wf s.mem = true) (length : data.length = off) (short : off ≤ 2 ^ 48) :
    memRead (s.write a data).mem a off = data := by
  subst length
  exact memRead_memWrite _ _ wf short

theorem accepted_holds (wf : Memory.wf s.mem = true) (length : data.length = 128) :
    memRead (accepted s a data).mem (s.redirect a) 128 = data :=
  memRead_write (s := s.rereadRow a data) (rereadRow_wf wf) length (by omega)

/-- A whole line written to its page stands there, with its check bytes behind it. -/
theorem shelterWrite_line {base size : Nat} (wf : Memory.wf s.mem = true) (aligned : a % 128 = 0) (length : data.length = 128)
    (free : ∀ i, i < 128 → Apart ((s.pageHome base size (a / 4096)).2 + 8 * (a % 4096 / 128)) 8 (s.redirect a + i)) :
    memRead (s.shelterWrite base size a data).mem (s.redirect a) 128 = data ∧
      memRead (s.shelterWrite base size a data).mem ((s.pageHome base size (a / 4096)).2 + 8 * (a % 4096 / 128)) 8 = rsCheck data := by
  have one : (a % 4096 + data.length + 4095) / 4096 = 1 := by omega
  have whole : data.take (4096 - a % 4096) = data := List.take_of_length_le (by omega)
  have lines : List.range' (a % 4096 / 128) ((a % 4096 + data.length + 127) / 128 - a % 4096 / 128) = [a % 4096 / 128] := by
    rw [show (a % 4096 + data.length + 127) / 128 - a % 4096 / 128 = 1 by omega]
    rfl
  have line : (data.drop (128 * (a % 4096 / 128) - a % 4096)).take 128 = data := by
    rw [show 128 * (a % 4096 / 128) - a % 4096 = 0 by omega, List.drop_zero, ← length, List.take_length]
  have written : (s.shelterWrite base size a data) = (s.write (s.redirect a) data).write
      ((s.pageHome base size (a / 4096)).2 + 8 * (a % 4096 / 128)) (rsCheck data) := by
    unfold State.shelterWrite
    rw [one]
    show s.pageWrite base size a (data.take (4096 - a % 4096)) = _
    rw [whole]
    unfold State.pageWrite
    dsimp only
    rw [pageHome_redirect, lines, List.flatMap_singleton, if_pos (by omega), line]
  have wf' : Memory.wf (s.write (s.redirect a) data).mem = true := write_wf _ _ wf
  rw [written]
  refine ⟨?_, memRead_write wf' (rsCheck_length _) (by omega)⟩
  rw [memRead_write_other wf' (by rwa [rsCheck_length]), memRead_write wf length (by omega)]

/-! ## Pages that are retired (R404) -/

/-- A page directed to a spare. -/
def retired (f : Faults) (a i : Nat) : Faults :=
  { f with pages := f.pages ++ [(a / 4096, i)], correctedLines := f.correctedLines.filter (fun l => l / 4096 != a / 4096) }

theorem copyPage_flt {t : State} {page : Nat} : (s.copyPage t page).flt = s.flt :=
  flt_eq_of_onlyChanges (State.copyPage_frame (fs := [.mem]) _ _ _ (OnlyChanges.refl _ _) (by decide)) (by decide)

theorem lastingLine_of_spare {i : Nat} (spare : lowestFree s.live.spareCount (s.flt.pages.map Prod.snd) = some i) :
    portSide (s.lastingLine a).flt = retired (portSide s.flt) a i := by
  have live : (s.logEvent evMemLine clsLasting 0 Detected.nowhere (pageDetail a)).live = s.live :=
    live_eq_of_onlyChanges (logEvent_frame _ _ _ _ _ _) (by decide)
  have side := logEvent_portSide s evMemLine clsLasting 0 Detected.nowhere (pageDetail a)
  unfold State.lastingLine
  generalize s.logEvent evMemLine clsLasting 0 Detected.nowhere (pageDetail a) = t at live side
  have pages : t.flt.pages = s.flt.pages := (congrArg Faults.pages side :)
  unfold State.retirePage
  rw [live, pages, spare]
  dsimp only
  rw [logEvent_portSide, copyPage_flt, ← side, ← pages]
  rfl

theorem lastingLine_of_full (full : lowestFree s.live.spareCount (s.flt.pages.map Prod.snd) = none) :
    portSide (s.lastingLine a).flt = portSide s.flt := by
  have live : (s.logEvent evMemLine clsLasting 0 Detected.nowhere (pageDetail a)).live = s.live :=
    live_eq_of_onlyChanges (logEvent_frame _ _ _ _ _ _) (by decide)
  have side := logEvent_portSide s evMemLine clsLasting 0 Detected.nowhere (pageDetail a)
  unfold State.lastingLine
  generalize s.logEvent evMemLine clsLasting 0 Detected.nowhere (pageDetail a) = t at live side
  have pages : t.flt.pages = s.flt.pages := (congrArg Faults.pages side :)
  unfold State.retirePage
  rw [live, pages, full]
  exact (logEvent_portSide _ _ _ _ _ _).trans side

/-! ## Lines that are lost (R405, R406) -/

/-- The first reads that failed, and the count of uncorrectable lines. -/
def failures (f : Faults) : List Nat × Nat := (f.retryLines, f.uncorrectable)

theorem failures_of_portSide {f g : Faults} (same : portSide f = portSide g) : failures f = failures g :=
  congrArg₂ Prod.mk (congrArg Faults.retryLines same :) (congrArg Faults.uncorrectable same :)

theorem logEvent_failures (s : State) (ev cls rung : Nat) (d : Detected) (detail : Nat) :
    failures (s.logEvent ev cls rung d detail).flt = failures s.flt := failures_of_portSide (logEvent_portSide _ _ _ _ _ _)

theorem lastingLine_failures : failures (s.lastingLine a).flt = failures s.flt := by
  rcases free : lowestFree s.live.spareCount (s.flt.pages.map Prod.snd) with - | i
  · exact failures_of_portSide (lastingLine_of_full free)
  · have spare := congrArg failures (lastingLine_of_spare (a := a) free)
    exact spare

theorem entWrite_failures {bs : List Byte} : failures (s.entWrite a bs).flt = failures s.flt := by
  unfold State.entWrite
  dsimp only
  rw [flt_eq_of_onlyChanges (State.shelterWrite_frame (fs := [.mem]) _ _ _ _ _ (OnlyChanges.refl _ _) (by decide)) (by decide)]
  rfl

theorem writeMirror_failures {i : Nat} : failures (s.writeMirror i).flt = failures s.flt := by
  simp only [State.writeMirror, entWrite_failures]

theorem failures_ite {p : Prop} [Decidable p] {t u : State} {f : List Nat × Nat} (first : failures t.flt = f)
    (second : failures u.flt = f) : failures (if p then t else u).flt = f := by
  split
  · exact first
  · exact second

theorem writeMirrors_failures (xs : List Nat) :
    failures (xs.foldl (fun (t : State) i => t.writeMirror (off / 16 + i)) s).flt = failures s.flt := by
  induction xs generalizing s with
  | nil => rfl
  | cons x xs ih => rw [List.foldl_cons, ih, writeMirror_failures]

theorem loseEntity_failures : failures (s.loseEntity a off).flt = failures s.flt := by
  simp only [State.loseEntity]
  exact failures_ite (writeMirrors_failures _) (failures_ite entWrite_failures
    (failures_ite (logEvent_failures _ _ _ _ _ _) (logEvent_failures _ _ _ _ _ _)))

theorem loseHarness_failures : failures (s.loseHarness a off).flt = failures s.flt := by
  unfold State.loseHarness
  dsimp only
  split
  · rw [writeBack_flt]
  split
  · rw [writeBack_flt]
  · rw [logEvent_failures]
    have kept := congrArg failures (writeBack_flt (s := s) (a := a) (data := s.shelterRead a 128))
    exact kept

theorem loseBoth_failures : failures (s.loseBoth a off).flt = failures s.flt := by
  unfold State.loseBoth
  dsimp only
  split
  · exact loseHarness_failures
  split
  · rw [logEvent_failures, flt_eq_of_onlyChanges (State.breakPending_frame (fs := [.arr, .gait, .img, .out]) _ (OnlyChanges.refl _ _)
      (by decide) (by decide) (by decide) (by decide)) (by decide)]
  · rfl

theorem issueRead_flt : (s.issueRead a).flt = s.flt :=
  flt_eq_of_onlyChanges (State.issueRead_frame (fs := [.link, .out]) _ _ (OnlyChanges.refl _ _) (by decide) (by decide)) (by decide)

theorem loseCopy_failures : failures (s.loseCopy a off).flt = failures s.flt := by
  unfold State.loseCopy
  split
  · exact loseBoth_failures
  split
  · exact loseBoth_failures
  · rw [issueRead_flt]
    rfl

theorem loseLine_failures : failures (s.loseLine a).flt = failures s.flt := by
  unfold State.loseLine
  split
  · exact loseEntity_failures
  · exact loseCopy_failures
  · exact loseCopy_failures
  · rfl

/-- A line of rows that stays uncorrectable is marked lost, with its event. -/
theorem loseLine_of_rows (region : s.regionOf a = .entity off) (rows : 0x400000 + ovfSize s.live.ovfBits ≤ off) :
    a ∈ (s.loseLine a).flt.lostLines ∧ ∃ e, (s.loseLine a).flt.log.getLast? = some e ∧ e.event = evLineLost := by
  have marked : s.loseLine a = s.markLost a := by
    simp only [State.loseLine, region, State.loseEntity]
    rw [if_neg (by omega), if_neg (by omega), if_neg (by omega)]
  rw [marked]
  refine ⟨?_, _, (logEvent_last _ _ _ _ _ _).1, rfl⟩
  have lost := congrArg Faults.lostLines (logEvent_portSide ({ s with flt := { s.flt with lostLines := insertNat s.flt.lostLines a } })
    evLineLost clsLasting 0 Detected.nowhere (pageDetail a))
  exact lost ▸ (mem_insertNat _ _ _).mpr (.inl rfl)

/-- A line of the harness copy with a mirror waits for the other copy (R405). -/
theorem loseLine_of_mirrored {b : Nat} (copy : s.otherCopy a = some b) (free : b ∉ s.flt.mirrorWaits) :
    s.loseLine a = ({ s with flt := { s.flt with mirrorWaits := insertNat s.flt.mirrorWaits a } } : State).issueRead b := by
  have waits (off : Nat) : s.loseCopy a off =
      ({ s with flt := { s.flt with mirrorWaits := insertNat s.flt.mirrorWaits a } } : State).issueRead b := by
    simp only [State.loseCopy, copy]
    exact if_neg (by simpa using free)
  unfold State.otherCopy at copy
  split at copy
  · cases copy
  · split at copy
    · next region =>
      simp only [State.loseLine, region]
      exact waits _
    · next region =>
      simp only [State.loseLine, region]
      exact waits _
    · cases copy

/-! ## Requests (R468) -/

/-- No module has lost a request. -/
def KeepsRequests (s t : State) : Prop :=
  ∀ n, ∀ q ∈ (s.link.getD n LinkModule.reset).requests, q ∈ (t.link.getD n LinkModule.reset).requests

theorem KeepsRequests.of_link {t : State} (link : t.link = s.link) : KeepsRequests s t := by
  unfold KeepsRequests
  rw [link]
  exact fun _ _ held => held

theorem KeepsRequests.trans {t u : State} (first : KeepsRequests s t) (second : KeepsRequests t u) : KeepsRequests s u :=
  fun n q held => second n q (first n q held)

theorem getD_modify_requests {f : LinkModule → LinkModule} {m n : Nat} {ls : List LinkModule} {q : Nat}
    (kept : n = m → ∀ l : LinkModule, q ∈ l.requests → q ∈ (f l).requests) (held : q ∈ (ls.getD n LinkModule.reset).requests) :
    q ∈ ((ls.modify m f).getD n LinkModule.reset).requests := by
  rw [List.getD_eq_getElem?_getD, List.getElem?_modify]
  rw [List.getD_eq_getElem?_getD] at held
  rcases listed : ls[n]? with - | l
  · rw [listed] at held
    exact held
  · rw [listed] at held
    by_cases same : m = n
    · simpa [same] using kept same.symm l held
    · simpa [same] using held

theorem issueRead_keepsRequests : KeepsRequests s (s.issueRead a) := by
  intro n q held
  have grown := getD_modify_requests (f := fun l => { l with requests := l.requests ++ [portAddr (s.redirect (portAddr a / 128 * 128))] })
    (m := s.readModule (portAddr (s.redirect (portAddr a / 128 * 128)))) (fun _ l held => List.mem_append_left _ held) held
  unfold State.issueRead
  dsimp only
  split <;> exact grown

theorem loseLine_keepsRequests : KeepsRequests s (s.loseLine a) := by
  have both (off : Nat) : (s.loseBoth a off).link = s.link :=
    link_eq_of_onlyChanges (State.loseBoth_frame (fs := [.arr, .flt, .gait, .img, .mem, .out, .pins]) _ _ _ (OnlyChanges.refl _ _)
      (by decide) (by decide) (by decide) (by decide) (by decide) (by decide) (by decide)) (by decide)
  have copies (off : Nat) : KeepsRequests s (s.loseCopy a off) := by
    unfold State.loseCopy
    split
    · exact .of_link (both off)
    split
    · exact .of_link (link_eq_of_onlyChanges (State.loseBoth_frame (fs := [.arr, .flt, .gait, .img, .mem, .out, .pins]) _ _ _
        (OnlyChanges.refl _ _) (by decide) (by decide) (by decide) (by decide) (by decide) (by decide) (by decide)) (by decide))
    · refine KeepsRequests.trans ?_ issueRead_keepsRequests
      exact .of_link rfl
  unfold State.loseLine
  split
  · exact .of_link (link_eq_of_onlyChanges (State.loseEntity_frame (fs := [.ent, .flt, .mem, .out, .pins]) _ _ _ (OnlyChanges.refl _ _)
      (by decide) (by decide) (by decide) (by decide) (by decide)) (by decide))
  · exact copies _
  · exact copies _
  · exact .of_link rfl

theorem failLine_keepsRequests : KeepsRequests s (s.failLine a) := by
  unfold State.failLine
  dsimp only
  split
  · refine KeepsRequests.trans (.of_link ?_) loseLine_keepsRequests
    exact link_eq_of_onlyChanges (State.lastingLine_frame (fs := [.flt, .mem, .out, .pins]) _ _ (OnlyChanges.refl _ _) (by decide)
      (by decide) (by decide) (by decide)) (by decide)
  · refine KeepsRequests.trans ?_ issueRead_keepsRequests
    exact .of_link rfl

end

/-! ## The return -/

section
variable {s : State} {addr : Nat} {line check : List Byte}

/-- The state without the request that the line answers. -/
def answered (s : State) (addr : Nat) : State :=
  { s with link := s.link.modify (s.carrier addr) fun l => { l with requests := l.requests.erase addr } }

theorem answered_keepsRequests {n q : Nat} (other : n ≠ s.carrier addr) (held : q ∈ (s.link.getD n LinkModule.reset).requests) :
    q ∈ ((answered s addr).link.getD n LinkModule.reset).requests :=
  getD_modify_requests (fun same => absurd same other) held

/-- What a line of a protected region leaves, by what its checks say (R401). -/
def decoded (s : State) (a : Nat) (line : List Byte) : LineDecode → State
  | .clean => s.cleanLine a line
  | .corrected data => s.correctLine a data
  | .uncorrectable => s.failLine a

theorem exec_memoryReadReturn (up : s.up = true) (opened : (s.link.getD (s.carrier addr) LinkModule.reset).open = true) :
    exec (.memoryReadReturn addr line check) s = .next (
      if s.regionOf (s.carried addr) = .plain then (answered s addr).write (s.carried addr) line
      else decoded (answered s addr) (s.carried addr) line (rsDecode s.live.correct line check)) := by
  have open_ : ¬(s.up = false ∨ (s.link.getD (s.carrier addr) LinkModule.reset).open = false) := by
    rw [up, opened]
    simp
  refine congrArg Host.Outcome.next ((if_neg open_).trans ?_)
  show (if (answered s addr).regionOf ((answered s addr).carried addr) = .plain then _ else
    match rsDecode (answered s addr).live.correct line check with
      | .clean => (answered s addr).cleanLine ((answered s addr).carried addr) line
      | .corrected data => (answered s addr).correctLine ((answered s addr).carried addr) data
      | .uncorrectable => (answered s addr).failLine ((answered s addr).carried addr)) = _
  refine if_congr Iff.rfl rfl ?_
  show _ = decoded (answered s addr) ((answered s addr).carried addr) line (rsDecode (answered s addr).live.correct line check)
  rcases rsDecode (answered s addr).live.correct line check <;> rfl

theorem decoded_keepsRequests {t : State} {a : Nat} (r : LineDecode) : KeepsRequests t (decoded t a line r) := by
  cases r
  case clean =>
    exact .of_link (link_eq_of_onlyChanges (State.cleanLine_frame (fs := [.ent, .flt, .mem, .out, .pins]) _ _ _ (OnlyChanges.refl _ _)
      (by decide) (by decide) (by decide) (by decide) (by decide)) (by decide))
  case corrected data =>
    exact .of_link (link_eq_of_onlyChanges (State.correctLine_frame (fs := [.ent, .flt, .mem, .out, .pins]) _ _ _ (OnlyChanges.refl _ _)
      (by decide) (by decide) (by decide) (by decide) (by decide)) (by decide))
  case uncorrectable => exact failLine_keepsRequests

theorem answered_frame : OnlyChanges [.link] s (answered s addr) := rfl

/-- Bounded-distance decoding answers a line of 128 bytes (R401). -/
theorem length_of_corrected {n : Nat} {data : List Byte} (h : rsDecode n line check = .corrected data) : data.length = 128 := by
  unfold rsDecode at h
  dsimp only at h
  split at h
  · cases h
  split at h
  · cases h
  split at h
  · cases h
    simp
  · cases h

end

/-! ## A line without an error -/

section
variable {s : State} {a : Nat} {data : List Byte}

/-- The state in which a line without an error is taken: after a first read that failed, the error was transient (R403). -/
def reread (s : State) (a : Nat) (data : List Byte) : State :=
  if s.flt.retryLines.contains a then (s.transientLine a).writeBack a data else s

theorem reread_of_first (first : a ∉ s.flt.retryLines) : reread s a data = s := if_neg (by simpa using first)

theorem reread_of_second (second : a ∈ s.flt.retryLines) : reread s a data = (s.transientLine a).writeBack a data :=
  if_pos (by simpa using second)

theorem reread_portSide : portSide (reread s a data).flt = portSide s.flt := by
  unfold reread
  split
  · rw [writeBack_flt, transientLine_portSide]
  · rfl

theorem reread_live : (reread s a data).live = s.live := by
  unfold reread
  split
  · exact live_eq_of_onlyChanges (fs := [.mem, .flt, .pins, .out]) (State.writeBack_frame _ _ _ (State.transientLine_frame _ _
      (OnlyChanges.refl _ _) (by decide) (by decide) (by decide)) (by decide)) (by decide)
  · rfl

theorem writeBack_wf (wf : Memory.wf s.mem = true) : Memory.wf (s.writeBack a data).mem = true := by
  unfold State.writeBack
  split
  · exact wf
  · exact shelterWrite_wf _ _ _ _ wf

theorem reread_wf (wf : Memory.wf s.mem = true) : Memory.wf (reread s a data).mem = true := by
  unfold reread
  split
  · refine writeBack_wf ?_
    rwa [mem_eq_of_onlyChanges (State.transientLine_frame (fs := [.flt, .pins, .out]) _ _ (OnlyChanges.refl _ _) (by decide) (by decide)
      (by decide)) (by decide)]
  · exact wf

theorem redirect_of_portSide {t : State} (live : t.live = s.live) (side : portSide t.flt = portSide s.flt) :
    t.redirect a = s.redirect a := by
  have pages : t.flt.pages = s.flt.pages := (congrArg Faults.pages side :)
  simp only [State.redirect, live, pages]

/-- A line is no longer marked as last corrected. -/
def uncorrected (f : Faults) (a : Nat) : Faults := { f with correctedLines := f.correctedLines.filter (· != a) }

theorem cleanLine_flt : (s.cleanLine a data).flt = uncorrected ((reread s a data).acceptLine a data).flt a := rfl

theorem cleanLine_mem : (s.cleanLine a data).mem = ((reread s a data).acceptLine a data).mem := rfl

theorem cleanLine_frame : OnlyChanges [.ent, .flt, .pins, .mem, .out] s (s.cleanLine a data) :=
  State.cleanLine_frame _ _ _ (OnlyChanges.refl _ _) (by decide) (by decide) (by decide) (by decide) (by decide)

/-- What the copies of a state say, they say of the state in which the line is taken. -/
theorem reread_waits {b : Nat} : b ∈ (reread s a data).flt.mirrorWaits ↔ b ∈ s.flt.mirrorWaits := by
  have waits : (reread s a data).flt.mirrorWaits = s.flt.mirrorWaits := (congrArg Faults.mirrorWaits (reread_portSide (data := data)) :)
  rw [waits]

theorem cleanLine_marks : a ∉ (s.cleanLine a data).flt.retryLines ∧ a ∉ (s.cleanLine a data).flt.lostLines ∧
    a ∉ (s.cleanLine a data).flt.correctedLines ∧ (s.cleanLine a data).flt.uncorrectable = s.flt.uncorrectable ∧
    (s.cleanLine a data).flt.log = (reread s a data).flt.log ∧ (s.cleanLine a data).flt.transients = (reread s a data).flt.transients :=
        by
  have count : (reread s a data).flt.uncorrectable = s.flt.uncorrectable := (congrArg Faults.uncorrectable (reread_portSide (data :=
      data)) :)
  rw [cleanLine_flt]
  rcases acceptLine_flt (s := reread s a data) (a := a) (data := data) with flt | ⟨b, -, -, flt⟩ <;> rw [flt]
  · exact ⟨by simp [uncorrected, taken], by simp [uncorrected, taken], by simp [uncorrected, taken], count, rfl, rfl⟩
  · exact ⟨by simp [uncorrected, taken, mended], by simp [uncorrected, taken, mended], by simp [uncorrected, taken, mended], count, rfl,
        rfl⟩

theorem cleanLine_holds (wf : Memory.wf s.mem = true) (length : data.length = 128)
    (free : ∀ q, s.otherCopy a = some q → q ∉ s.flt.mirrorWaits) :
    memRead (s.cleanLine a data).mem (s.redirect a) 128 = data ∧ (s.cleanLine a data).flt.mirrorReads = s.flt.mirrorReads := by
  have free' : ∀ q, (reread s a data).otherCopy a = some q → q ∉ (reread s a data).flt.mirrorWaits := fun q copy => by
    rw [otherCopy_of_live reread_live] at copy
    exact mt reread_waits.mp (free q copy)
  constructor
  · rw [cleanLine_mem, acceptLine_of_free free', ← redirect_of_portSide reread_live reread_portSide]
    exact accepted_holds (reread_wf wf) length
  · rw [cleanLine_flt, acceptLine_of_free free', uncorrected, accepted_flt]
    exact (congrArg Faults.mirrorReads (reread_portSide (data := data)) :)

theorem cleanLine_mends {q : Nat} (copy : s.otherCopy a = some q) (waits : q ∈ s.flt.mirrorWaits) :
    q ∉ (s.cleanLine a data).flt.mirrorWaits ∧ (s.cleanLine a data).flt.mirrorReads = min (s.flt.mirrorReads + 1) 65535 := by
  have reads : (reread s a data).flt.mirrorReads = s.flt.mirrorReads := (congrArg Faults.mirrorReads (reread_portSide (data := data)) :)
  rw [cleanLine_flt, acceptLine_eq, mendCopy_of_waiting (b := q)
    (by rw [otherCopy_of_live accepted_live, otherCopy_of_live reread_live]; exact copy)
    (by rw [accepted_flt]; exact reread_waits.mpr waits), uncorrected, writeBack_flt]
  refine ⟨by simp [mended], ?_⟩
  show satAdd 16 (accepted (reread s a data) a data).flt.mirrorReads 1 = _
  rw [accepted_flt]
  exact congrArg (satAdd 16 · 1) reads

end

/-! ## A line that is corrected -/

section
variable {s : State} {a : Nat} {data : List Byte}

/-- A corrected line as it is used and written back. -/
def corrected (s : State) (a : Nat) (data : List Byte) : State :=
  (({ s with flt := { s.flt with lineCorrected := satAdd 16 s.flt.lineCorrected 1 } } : State).acceptLine a data).writeBack a data

/-- The first correction of a line since it last read without one. -/
def onceCorrected (s : State) (a : Nat) : State :=
  ({ s with flt := { s.flt with correctedLines := insertNat s.flt.correctedLines a } } : State).transientLine a

/-- A correction at two reads running, or of a part that has used up its transient errors. -/
def twiceCorrected (s : State) (a : Nat) : State :=
  ({ s with flt := { s.flt with correctedLines := s.flt.correctedLines.filter (· != a) } } : State).lastingLine a

theorem correctLine_of_first (first : a ∉ s.flt.correctedLines) (fresh : s.worn (memPart a) = false) :
    s.correctLine a data = onceCorrected (corrected s a data) a := if_neg (by simp [first, fresh])

theorem correctLine_of_again (again : a ∈ s.flt.correctedLines ∨ s.worn (memPart a) = true) :
    s.correctLine a data = twiceCorrected (corrected s a data) a := if_pos (by simpa using again)

/-- What a corrected line leaves of the marks, before its own correction is marked. -/
theorem corrected_flt : a ∉ (corrected s a data).flt.retryLines ∧
    (corrected s a data).flt.lineCorrected = min (s.flt.lineCorrected + 1) 65535 ∧
    (corrected s a data).flt.pages = s.flt.pages := by
  rw [corrected, writeBack_flt]
  rcases acceptLine_flt (s := { s with flt := { s.flt with lineCorrected := satAdd 16 s.flt.lineCorrected 1 } }) (a := a) (data := data)
    with flt | ⟨b, -, -, flt⟩ <;> rw [flt]
  · exact ⟨by simp [taken], rfl, rfl⟩
  · exact ⟨by simp [taken, mended], rfl, rfl⟩

theorem corrected_live : (corrected s a data).live = s.live := by
  have frame : OnlyChanges [.flt, .ent, .mem] s (({ s with flt := { s.flt with lineCorrected := satAdd 16 s.flt.lineCorrected 1 } } :
      State).acceptLine a data) := State.acceptLine_frame _ _ _ rfl (by decide) (by decide) (by decide)
  exact live_eq_of_onlyChanges (State.writeBack_frame _ _ _ frame (by decide)) (by decide)

theorem onceCorrected_portSide : portSide (onceCorrected s a).flt =
    portSide { s.flt with correctedLines := insertNat s.flt.correctedLines a } := transientLine_portSide

theorem onceCorrected_mem : (onceCorrected s a).mem = s.mem :=
  mem_eq_of_onlyChanges (s := { s with flt := { s.flt with correctedLines := insertNat s.flt.correctedLines a } })
    (State.transientLine_frame (fs := [.flt, .pins, .out]) _ _ (OnlyChanges.refl _ _) (by decide) (by decide) (by decide)) (by decide)

/-- A first correction marks its line, and nothing else of the port. -/
theorem onceCorrected_marks : a ∈ (onceCorrected s a).flt.correctedLines ∧
    (onceCorrected s a).flt.retryLines = s.flt.retryLines ∧ (onceCorrected s a).flt.lineCorrected = s.flt.lineCorrected ∧
    (onceCorrected s a).flt.pages = s.flt.pages := by
  have side := onceCorrected_portSide (s := s) (a := a)
  have marks : (onceCorrected s a).flt.correctedLines = insertNat s.flt.correctedLines a := (congrArg Faults.correctedLines side :)
  refine ⟨marks ▸ (mem_insertNat _ _ _).mpr (.inl rfl), ?_, ?_, ?_⟩
  · exact (congrArg Faults.retryLines side :)
  · exact (congrArg Faults.lineCorrected side :)
  · exact (congrArg Faults.pages side :)

/-- A second correction running retires the line's page, where a spare is left (R404). -/
theorem twiceCorrected_marks : a ∉ (twiceCorrected s a).flt.correctedLines ∧
    (twiceCorrected s a).flt.retryLines = s.flt.retryLines ∧ (twiceCorrected s a).flt.lineCorrected = s.flt.lineCorrected ∧
    (∀ i, lowestFree s.live.spareCount (s.flt.pages.map Prod.snd) = some i →
      (twiceCorrected s a).flt.pages = s.flt.pages ++ [(a / 4096, i)]) ∧
    (lowestFree s.live.spareCount (s.flt.pages.map Prod.snd) = none → (twiceCorrected s a).flt.pages = s.flt.pages) := by
  let s1 : State := { s with flt := { s.flt with correctedLines := s.flt.correctedLines.filter (· != a) } }
  rcases spare : lowestFree s.live.spareCount (s.flt.pages.map Prod.snd) with - | i
  · have side : portSide (twiceCorrected s a).flt = portSide s1.flt := lastingLine_of_full (s := s1) spare
    have marks : (twiceCorrected s a).flt.correctedLines = s.flt.correctedLines.filter (· != a) := (congrArg Faults.correctedLines side :)
    refine ⟨by simp [marks], ?_, ?_, fun i some => (by cases some), fun _ => ?_⟩
    · exact (congrArg Faults.retryLines side :)
    · exact (congrArg Faults.lineCorrected side :)
    · exact (congrArg Faults.pages side :)
  · have side : portSide (twiceCorrected s a).flt = retired (portSide s1.flt) a i := lastingLine_of_spare (s := s1) spare
    have marks : (twiceCorrected s a).flt.correctedLines =
        (s.flt.correctedLines.filter (· != a)).filter (fun l => l / 4096 != a / 4096) := (congrArg Faults.correctedLines side :)
    refine ⟨by simp [marks], ?_, ?_, fun k same => ?_, fun none => (by cases none)⟩
    · exact (congrArg Faults.retryLines side :)
    · exact (congrArg Faults.lineCorrected side :)
    · obtain rfl := Option.some.inj same
      exact (congrArg Faults.pages side :)

theorem corrected_holds {base size : Nat} (wf : Memory.wf s.mem = true) (aligned : a % 128 = 0) (length : data.length = 128)
    (region : s.regionBase a = some (base, size)) (unshared : ∀ q, s.otherCopy a = some q → q ∉ s.flt.mirrorWaits)
    (free : ∀ i, i < 128 → Apart ((s.pageHome base size (a / 4096)).2 + 8 * (a % 4096 / 128)) 8 (s.redirect a + i)) :
    memRead (corrected s a data).mem (s.redirect a) 128 = data ∧
      memRead (corrected s a data).mem ((s.pageHome base size (a / 4096)).2 + 8 * (a % 4096 / 128)) 8 = rsCheck data := by
  let s1 : State := { s with flt := { s.flt with lineCorrected := satAdd 16 s.flt.lineCorrected 1 } }
  have accept : s1.acceptLine a data = accepted s1 a data := acceptLine_of_free unshared
  have live : (accepted s1 a data).live = s.live := accepted_live
  have pages : (accepted s1 a data).flt.pages = s.flt.pages := by
    rw [accepted_flt]
    rfl
  have region' : (accepted s1 a data).regionBase a = some (base, size) := by
    rw [← region]
    simp only [State.regionBase, State.regionOf, live]
  have written : corrected s a data = (accepted s1 a data).shelterWrite base size a data := by
    rw [corrected, accept, State.writeBack, region']
  have home : (accepted s1 a data).redirect a = s.redirect a := by simp only [State.redirect, live, pages]
  have checks : (accepted s1 a data).pageHome base size (a / 4096) = s.pageHome base size (a / 4096) := by
    simp only [State.pageHome, live, pages]
  have line := shelterWrite_line (s := accepted s1 a data) (base := base) (size := size) (data := data) (accepted_wf wf) aligned length
  rw [home, checks] at line
  rw [written]
  exact line free

end

/-! ## A line that is uncorrectable -/

section
variable {s : State} {a : Nat}

/-- A first read that failed. -/
def firstFailed (s : State) (a : Nat) : State :=
  { s with flt := { s.flt with
    uncorrectable := satAdd 16 s.flt.uncorrectable 1
    retryLines := insertNat s.flt.retryLines a } }

/-- A second read that failed: the error is lasting. -/
def lastingFailed (s : State) (a : Nat) : State :=
  ({ s with flt := { s.flt with
    uncorrectable := satAdd 16 s.flt.uncorrectable 1
    retryLines := s.flt.retryLines.filter (· != a) } } : State).lastingLine a

theorem failLine_of_first (first : a ∉ s.flt.retryLines) (fresh : s.worn (memPart a) = false) :
    s.failLine a = (firstFailed s a).issueRead a := if_neg (by simp [first, fresh])

theorem failLine_of_again (again : a ∈ s.flt.retryLines ∨ s.worn (memPart a) = true) :
    s.failLine a = (lastingFailed s a).loseLine a := if_pos (by simpa using again)

theorem failures_of_lost : failures ((lastingFailed s a).loseLine a).flt =
    (s.flt.retryLines.filter (· != a), min (s.flt.uncorrectable + 1) 65535) := by
  rw [loseLine_failures, lastingFailed, lastingLine_failures]
  rfl

theorem lastingFailed_live : (lastingFailed s a).live = s.live := by
  have frame : OnlyChanges [.flt, .mem, .out, .pins] s (lastingFailed s a) :=
    State.lastingLine_frame _ _ rfl (by decide) (by decide) (by decide) (by decide)
  exact live_eq_of_onlyChanges frame (by decide)

theorem lastingFailed_waits : (lastingFailed s a).flt.mirrorWaits = s.flt.mirrorWaits ∧
    (lastingFailed s a).flt.lostItems = s.flt.lostItems := by
  rcases spare : lowestFree s.live.spareCount (s.flt.pages.map Prod.snd) with - | i
  · have side := lastingLine_of_full (a := a) (s := { s with flt := { s.flt with
      uncorrectable := satAdd 16 s.flt.uncorrectable 1, retryLines := s.flt.retryLines.filter (· != a) } }) spare
    exact ⟨(congrArg Faults.mirrorWaits side :), (congrArg Faults.lostItems side :)⟩
  · have side := lastingLine_of_spare (a := a) (s := { s with flt := { s.flt with
      uncorrectable := satAdd 16 s.flt.uncorrectable 1, retryLines := s.flt.retryLines.filter (· != a) } }) spare
    exact ⟨(congrArg Faults.mirrorWaits side :), (congrArg Faults.lostItems side :)⟩

end

/-- Settles O57: the decoder's answer for the line decides, and each answer has its marks and its line of memory. -/
theorem memoryReadReturn : Obligations.MemoryReadReturn := by
  intro addr line check s up opened wf length aligned a home r holds worn
  have run := exec_memoryReadReturn (line := line) (check := check) up opened
  refine ⟨fun t next n other q held => ?requests, fun plain => ?plain, fun guarded clean => ?clean,
    fun data guarded fixed => ?corrected, fun guarded bad first fresh => ?first, fun guarded bad again => ?second⟩
  case requests =>
    obtain rfl := Host.Outcome.next.inj (run.symm.trans next)
    split
    · exact answered_keepsRequests other held
    · exact decoded_keepsRequests _ n q (answered_keepsRequests other held)
  case plain =>
    rw [if_pos plain] at run
    refine ⟨_, run, State.write_frame _ _ _ (onlyChanges_mono (by decide) answered_frame) (by decide), ?_, fun c off => ?_⟩
    · exact memRead_write (s := answered s addr) wf length (by omega)
    · exact write_other (s := answered s addr) _ c _ wf (by rwa [length])
  all_goals rw [if_neg guarded] at run
  case clean =>
    have answer : rsDecode s.live.correct line check = .clean := clean
    rw [answer] at run
    obtain ⟨retry, lost, marks, count, log, transients⟩ := cleanLine_marks (s := answered s addr) (a := a) (data := line)
    refine ⟨_, run, ?_, retry, lost, marks, count, fun first => ?_, fun second => ?_, fun free => ?_, fun q copy waits => ?_⟩
    · exact State.cleanLine_frame _ _ _ (onlyChanges_mono (by decide) answered_frame) (by decide) (by decide) (by decide) (by decide)
        (by decide)
    · exact log.trans (by rw [reread_of_first (s := answered s addr) first]; rfl)
    · rw [reread_of_second (s := answered s addr) second, writeBack_flt] at log transients
      obtain ⟨counted, e, last, event, cls⟩ := transientLine_logged (s := answered s addr) (a := a)
      exact ⟨transients.trans counted, e, (congrArg List.getLast? log).trans last, event, cls⟩
    · exact cleanLine_holds (s := answered s addr) wf length free
    · exact cleanLine_mends (s := answered s addr) copy waits
  case corrected =>
    have answer : rsDecode s.live.correct line check = .corrected data := fixed
    rw [answer] at run
    obtain ⟨retry, count, pages⟩ := corrected_flt (s := answered s addr) (a := a) (data := data)
    have live' : (corrected (answered s addr) a data).live = s.live := corrected_live
    have frame : OnlyChanges [.ent, .flt, .link, .pins, .mem, .out] s (decoded (answered s addr) a line (.corrected data)) :=
      State.correctLine_frame _ _ _ (onlyChanges_mono (by decide) answered_frame) (by decide) (by decide) (by decide) (by decide)
        (by decide)
    by_cases again : a ∈ s.flt.correctedLines ∨ worn
    · have state : decoded (answered s addr) a line (.corrected data) = twiceCorrected (corrected (answered s addr) a data) a :=
        correctLine_of_again again
      rw [show s.carried addr = a from rfl, state] at run
      rw [state] at frame
      obtain ⟨marks, retry', count', spare, full⟩ := twiceCorrected_marks (s := corrected (answered s addr) a data) (a := a)
      rw [live', pages] at spare full
      exact ⟨_, run, frame, count'.trans count, retry' ▸ retry, fun first fresh => absurd again (by tauto),
        fun _ => ⟨marks, spare, full⟩⟩
    · obtain ⟨first, fresh⟩ := not_or.mp again
      have state : decoded (answered s addr) a line (.corrected data) = onceCorrected (corrected (answered s addr) a data) a :=
        correctLine_of_first first (Bool.eq_false_iff.mpr fresh)
      rw [show s.carried addr = a from rfl, state] at run
      rw [state] at frame
      obtain ⟨marks, retry', count', pages'⟩ := onceCorrected_marks (s := corrected (answered s addr) a data) (a := a)
      refine ⟨_, run, frame, count'.trans count, retry' ▸ retry,
        fun _ _ => ⟨marks, pages'.trans pages, fun base size region unshared => ?_⟩, fun other => absurd other again⟩
      simp only [holds, onceCorrected_mem]
      intro free
      exact corrected_holds (s := answered s addr) wf aligned (length_of_corrected answer) region unshared free
  case first =>
    have answer : rsDecode s.live.correct line check = .uncorrectable := bad
    rw [answer] at run
    have state : decoded (answered s addr) a line .uncorrectable = (firstFailed (answered s addr) a).issueRead a :=
      failLine_of_first first (Bool.eq_false_iff.mpr fresh)
    rw [show s.carried addr = a from rfl, state] at run
    refine ⟨_, run, State.issueRead_frame _ _ ?_ (by decide) (by decide), ?_, ?_, ?_⟩
    · have frame : OnlyChanges [.flt, .link, .out] s (answered s addr) := onlyChanges_mono (by decide) answered_frame
      exact frame
    all_goals rw [issueRead_flt]
    · rfl
    · exact (mem_insertNat _ _ _).mpr (.inl rfl)
    · rfl
  case second =>
    have answer : rsDecode s.live.correct line check = .uncorrectable := bad
    rw [answer] at run
    have state : decoded (answered s addr) a line .uncorrectable = (lastingFailed (answered s addr) a).loseLine a :=
      failLine_of_again again
    rw [show s.carried addr = a from rfl, state] at run
    have kept := failures_of_lost (s := answered s addr) (a := a)
    have live' : (lastingFailed (answered s addr) a).live = s.live := lastingFailed_live
    refine ⟨_, run, ?_, ?_, ?_, fun off region rows => ?_, fun q copy free => ?_⟩
    · obtain ⟨t, next, frame⟩ := Answering.exec_answers (.memoryReadReturn addr line check) s
      rwa [← Host.Outcome.next.inj (next.symm.trans run)]
    · exact (congrArg Prod.snd kept :)
    · have retry : ((lastingFailed (answered s addr) a).loseLine a).flt.retryLines = s.flt.retryLines.filter (· != a) :=
        (congrArg Prod.fst kept :)
      simp [retry]
    · refine loseLine_of_rows (off := off) ?_ (live' ▸ rows)
      rw [← region]
      simp only [State.regionOf, live']
    · have waits : (lastingFailed (answered s addr) a).flt.mirrorWaits = s.flt.mirrorWaits := lastingFailed_waits.1
      have items : (lastingFailed (answered s addr) a).flt.lostItems = s.flt.lostItems := lastingFailed_waits.2
      rw [loseLine_of_mirrored (b := q) (by rw [otherCopy_of_live live']; exact copy) (by rw [waits]; exact free), issueRead_flt]
      exact ⟨(mem_insertNat _ _ _).mpr (.inl rfl), items⟩

end Sys2Proof.LineReturns
end

section
/-! PROOFS. Commits (R326, R327): the result entry of a record, and the job entry behind the last one. -/

-- Each theorem is checked before the next one, which bounds the threads that the compiler takes.
set_option Elab.async false

namespace Sys2Proof.Commits
open Sys2Proof Sys2Proof.Machine Sys2Proof.Safety Sys2Proof.Laws Sys2Proof.JobEntries Sys2Proof.Places Sys2Proof.Offering
open Sys2Proof.InOrder (mem_eq_of_onlyChanges)

/-! ## Slots of a completion ring -/

section
variable {c : RingCfg} {p q : Word32}

theorem cSize_lt : c.cSize < 32 := Nat.mod_lt _ (by decide)

/-- Two slots of a ring share no byte (R318). -/
theorem slots_apart (other : p.toNat % 2 ^ c.cSize ≠ q.toNat % 2 ^ c.cSize) {k : Nat} (inside : k < 16) :
    Apart (c.slotAddr q) 16 (c.slotAddr p + k) := by
  intro i hi same
  have small : 2 ^ c.cSize ≤ 2 ^ 31 := Nat.pow_le_pow_right (by decide) (Nat.lt_succ_iff.mp cSize_lt)
  have hp := Nat.mod_lt p.toNat (Nat.two_pow_pos c.cSize)
  have hq := Nat.mod_lt q.toNat (Nat.two_pow_pos c.cSize)
  simp only [RingCfg.slotAddr, portAddr] at same
  generalize p.toNat % 2 ^ c.cSize = a at *
  generalize q.toNat % 2 ^ c.cSize = b at *
  omega

theorem entryStands_of_onlySlots {m m' : List Host.Cell} {body : Nat} (stands : EntryStands c m p body)
    (only : OnlySlots c [q] m m') (other : p.toNat % 2 ^ c.cSize ≠ q.toNat % 2 ^ c.cSize) : EntryStands c m' p body := by
  refine Eq.trans (List.map_congr_left fun k inside => ?_) stands
  refine only _ fun r named => ?_
  rw [List.mem_singleton.mp named]
  exact slots_apart other (List.mem_range.mp inside)

/-- A slot of a record and the slot of the job entry are two, where the ring holds them all. -/
theorem slot_ne_entrySlot {j : Job} (scoring : j.scoring = true) (fits : j.n + 1 ≤ 2 ^ c.cSize) {i : Nat} (record : i < j.n) :
    (j.slot + BitVec.ofNat 32 i).toNat % 2 ^ c.cSize ≠ j.entrySlot.toNat % 2 ^ c.cSize := by
  have divides : 2 ^ c.cSize ∣ 2 ^ 32 := Nat.pow_dvd_pow 2 (Nat.le_of_lt cSize_lt)
  have slots : j.slots - 1 = j.n := by simp [Job.slots, scoring]
  simp only [Job.entrySlot, slots, BitVec.toNat_add, BitVec.toNat_ofNat, Nat.mod_mod_of_dvd _ divides]
  rw [Nat.add_mod, Nat.mod_mod_of_dvd _ divides, Nat.add_mod _ (j.n % 2 ^ 32), Nat.mod_mod_of_dvd _ divides,
    Nat.mod_eq_of_lt (show i < 2 ^ c.cSize by omega), Nat.mod_eq_of_lt (show j.n < 2 ^ c.cSize by omega)]
  have low := Nat.mod_lt j.slot.toNat (Nat.two_pow_pos c.cSize)
  generalize j.slot.toNat % 2 ^ c.cSize = a at *
  generalize 2 ^ c.cSize = size at *
  intro same
  have left : (a + i) % size = if a + i < size then a + i else a + i - size := by
    split
    · exact Nat.mod_eq_of_lt ‹_›
    · rw [Nat.mod_eq_sub_mod (by omega), Nat.mod_eq_of_lt (by omega)]
  have right : (a + j.n) % size = if a + j.n < size then a + j.n else a + j.n - size := by
    split
    · exact Nat.mod_eq_of_lt ‹_›
    · rw [Nat.mod_eq_sub_mod (by omega), Nat.mod_eq_of_lt (by omega)]
  rw [left, right] at same
  split at same <;> split at same <;> omega

end

/-! ## Where a job's entries stand -/

/-- What places the entries of a job, and what they say of it. -/
def seat (j : Job) : Nat × Nat × Nat × Nat × Word32 × Nat := (j.id, j.ring, j.op, j.tag, j.slot, j.n)

section
variable {s t : State} {j x y : Job} {id : Nat}

theorem entrySlot_of_seat (same : seat x = seat y) : x.entrySlot = y.entrySlot := by
  simp only [seat, Prod.mk.injEq] at same
  obtain ⟨-, -, op, -, slot, n⟩ := same
  have scoring : x.scoring = y.scoring := by simp only [Job.scoring, op]
  simp only [Job.entrySlot, Job.slots, scoring, slot, n]

/-- The context of a job, as far as its entries go. -/
def Seated (s : State) (j : Job) : Prop := ∃ x, s.job j.id = some x ∧ seat x = seat j

theorem Seated.modJob {f : Job → Job} (h : Seated s j) (kept : ∀ x, seat (f x) = seat x) : Seated (s.modJob j.id f) j := by
  obtain ⟨x, found, same⟩ := h
  exact ⟨f x, job_modJob (fun x => congrArg Prod.fst (kept x)) found, (kept x).trans same⟩

theorem Seated.of_jobs (h : Seated s j) (jobs : t.jobs = s.jobs) : Seated t j := by
  unfold Seated State.job
  rw [jobs]
  exact h

/-- The contexts of a job say how far its commits are. -/
def CommittedTo (s : State) (id n v : Nat) : Prop := ∀ x ∈ s.jobs.jobs, x.id = id → x.committed = n ∧ x.voided = v

theorem CommittedTo.modJob {f : Job → Job} {n v : Nat} (h : CommittedTo s id n v)
    (kept : ∀ x, (f x).id = x.id ∧ (f x).committed = x.committed ∧ (f x).voided = x.voided) : CommittedTo (s.modJob id f) id n v := by
  intro x listed own
  obtain ⟨y, held, rfl⟩ := List.mem_map.mp listed
  obtain ⟨same, committed, voided⟩ := kept y
  by_cases mine : y.id = id
  · rw [if_pos mine, committed, voided]
    exact h y held mine
  · rw [if_neg mine] at own
    exact absurd own mine

theorem CommittedTo.of_jobs {n v : Nat} (h : CommittedTo s id n v) (jobs : t.jobs = s.jobs) : CommittedTo t id n v := by
  unfold CommittedTo
  rw [jobs]
  exact h

theorem CommittedTo.finishJob {n v status done detail : Nat} (h : CommittedTo s id n v) (found : s.job id = some j) :
    CommittedTo (s.finishJob id status done detail) id n v := by
  rw [finishJob_of_job found]
  intro x left own
  have held := (List.mem_filter.mp left).1
  rw [jobs_eq_of_onlyChanges (unreserve_frame _ _) (by decide)] at held
  have entry : CommittedTo (entered s id status done detail j) id n v := by
    refine CommittedTo.modJob (CommittedTo.of_jobs h ?_) fun _ => ⟨rfl, rfl, rfl⟩
    exact jobs_eq_of_onlyChanges (State.writeEntry_frame (fs := [.mem, .rings]) _ _ _ _ (OnlyChanges.refl _ _) (by decide) (by decide))
      (by decide)
  exact entry x held own

theorem writeEntry_mem_congr {r : Nat} {p : Word32} {body : Nat} (live : t.live = s.live) (mem : t.mem = s.mem) :
    (t.writeEntry r p body).mem = (s.writeEntry r p body).mem := by
  cases en : (s.live.ring r).en with
  | true =>
    have en' : (t.live.ring r).en = true := live ▸ en
    rw [writeEntry_of_en en, writeEntry_of_en en']
    simp only [State.modRing, State.write, live, mem]
  | false =>
    have off : (t.live.ring r).en = false := live ▸ en
    rw [writeEntry_of_not_en en, writeEntry_of_not_en off, mem]

end

/-! ## One commit counted -/

section
variable {s : State} {j : Job} {void paid : Bool}

/-- The count of a commit in the job's context. -/
def counted (j : Job) (void : Bool) (x : Job) : Job := { x with committed := j.committed + 1, voided := j.voided + flag void }

/-- The state when a commit is counted, and its release may go on. -/
def afterCount (s : State) (j : Job) (void paid : Bool) : State :=
  (if paid then s.modJob j.id (counted j void) else (s.modJob j.id (counted j void)).pay j).releaseStream j.stream

theorem committedOne_of_last (last : j.committed + 1 = j.n) :
    s.committedOne j void paid = ((afterCount s j void paid).releaseTiles j).finishJob j.id stJobOk j.n (j.voided + flag void) := if_pos
        last

theorem committedOne_of_more (more : j.committed + 1 ≠ j.n) : s.committedOne j void paid = afterCount s j void paid := if_neg more

theorem afterCount_frame : OnlyChanges [.ing, .acc, .jobs, .led, .gait, .pwr, .out] s (afterCount s j void paid) := by
  unfold afterCount
  refine State.releaseStream_frame _ _ ?_ (by decide) (by decide) (by decide) (by decide)
  split
  · exact State.modJob_frame _ _ _ (OnlyChanges.refl _ _) (by decide)
  · exact State.pay_frame _ _ (State.modJob_frame _ _ _ (OnlyChanges.refl _ _) (by decide)) (by decide) (by decide) (by decide) (by
        decide)

theorem afterCount_jobs : (afterCount s j void paid).jobs =
    (if paid then s.modJob j.id (counted j void) else (s.modJob j.id (counted j void)).modJob j.id oncePaid).jobs := by
  have released {t : State} : (t.releaseStream j.stream).jobs = t.jobs :=
    jobs_eq_of_onlyChanges (State.releaseStream_frame (fs := [.ing, .acc, .pwr, .out]) _ _ (OnlyChanges.refl _ _) (by decide) (by decide)
      (by decide) (by decide)) (by decide)
  unfold afterCount
  rw [released]
  split
  · rfl
  · exact jobs_eq_of_onlyChanges (unreserve_frame _ _) (by decide)

theorem afterCount_seated (found : s.job j.id = some j) : Seated (afterCount s j void paid) j := by
  refine Seated.of_jobs ?_ afterCount_jobs
  have first : Seated (s.modJob j.id (counted j void)) j := Seated.modJob ⟨j, found, rfl⟩ fun _ => rfl
  split
  · exact first
  · exact first.modJob fun _ => rfl

theorem afterCount_committedTo : CommittedTo (afterCount s j void paid) j.id (j.committed + 1) (j.voided + flag void) := by
  refine CommittedTo.of_jobs ?_ afterCount_jobs
  have first : CommittedTo (s.modJob j.id (counted j void)) j.id (j.committed + 1) (j.voided + flag void) := by
    intro x listed own
    obtain ⟨y, -, rfl⟩ := List.mem_map.mp listed
    by_cases mine : y.id = j.id
    · rw [if_pos mine]
      exact ⟨rfl, rfl⟩
    · rw [if_neg mine] at own
      exact absurd own mine
  split
  · exact first
  · exact first.modJob fun _ => ⟨rfl, rfl, rfl⟩

/-- A job that has released its tiles (R150). -/
def disowned (x : Job) : Job := { x with owns := false }

theorem releaseTiles_jobs : (s.releaseTiles j).jobs = s.jobs ∨
    (s.releaseTiles j).jobs = (s.modJob j.id disowned).jobs := by
  unfold State.releaseTiles
  split
  · right
    have kept : ∀ (ns : List Nat) (t : State), (ns.foldl (fun (t : State) n => t.modTile n fun x => { x with owner := none }) t).jobs =
        t.jobs := fun ns t => List.foldlRecOn (motive := fun u : State => u.jobs = t.jobs) ns _ rfl fun _ kept _ _ => kept
    simp only [State.modJob, kept]
    rfl
  · exact .inl rfl

theorem releaseTiles_frame : OnlyChanges [.jobs, .tally] s (s.releaseTiles j) :=
  State.releaseTiles_frame _ _ (OnlyChanges.refl _ _) (by decide) (by decide)

/-- What a counted commit leaves: its entry alone is written, and only by the last commit (R327). -/
theorem committedOne_leaves (wf : Memory.wf s.mem = true) (found : s.job j.id = some j) :
    OnlySlots (s.live.ring j.ring) (if j.committed + 1 = j.n then [j.entrySlot] else []) s.mem (s.committedOne j void paid).mem ∧
    CommittedTo (s.committedOne j void paid) j.id (j.committed + 1) (j.voided + flag void) ∧
    (j.committed + 1 = j.n → JobEnds s (s.committedOne j void paid) j 0x100 j.n (j.voided + flag void)) := by
  have seated := afterCount_seated (void := void) (paid := paid) found
  have count := afterCount_committedTo (s := s) (j := j) (void := void) (paid := paid)
  have live : (afterCount s j void paid).live = s.live := live_eq_of_onlyChanges afterCount_frame (by decide)
  have mem : (afterCount s j void paid).mem = s.mem := mem_eq_of_onlyChanges afterCount_frame (by decide)
  by_cases last : j.committed + 1 = j.n
  · rw [committedOne_of_last last, if_pos last]
    generalize afterCount s j void paid = u at *
    have live' : (u.releaseTiles j).live = s.live := (live_eq_of_onlyChanges releaseTiles_frame (by decide)).trans live
    have mem' : (u.releaseTiles j).mem = s.mem := (mem_eq_of_onlyChanges releaseTiles_frame (by decide)).trans mem
    have seated' : Seated (u.releaseTiles j) j := by
      rcases releaseTiles_jobs (s := u) (j := j) with same | gone
      · exact seated.of_jobs same
      · exact Seated.of_jobs (seated.modJob (f := disowned) fun _ => rfl) gone
    have count' : CommittedTo (u.releaseTiles j) j.id (j.committed + 1) (j.voided + flag void) := by
      rcases releaseTiles_jobs (s := u) (j := j) with same | gone
      · exact count.of_jobs same
      · exact CommittedTo.of_jobs (count.modJob (f := disowned) fun _ => ⟨rfl, rfl, rfl⟩) gone
    obtain ⟨x, held, same⟩ := seated'
    have slot := entrySlot_of_seat same
    simp only [seat, Prod.mk.injEq] at same
    obtain ⟨own, ring, op, tag, -, -⟩ := same
    have entry : ((u.releaseTiles j).finishJob j.id stJobOk j.n (j.voided + flag void)).mem =
        (s.writeEntry j.ring j.entrySlot (jobBody 0x100 j.op j.tag j.n (j.voided + flag void))).mem := by
      rw [finishJob_mem held, slot, ring, op, tag]
      exact writeEntry_mem_congr live' mem'
    refine ⟨?_, count'.finishJob held, fun _ => ⟨fun en => ?_, fun y left mine => finishJob_contexts held left mine⟩⟩
    · rw [entry]
      exact writeEntry_onlySlots wf
    · rw [entry]
      exact writeEntry_stands wf en
  · rw [committedOne_of_more last, if_neg last, mem]
    exact ⟨fun _ _ => rfl, count, fun done => absurd done last⟩

/-- A commit with its result entry. -/
theorem committedEntry_leaves {u : State} {body : Nat} (wf : Memory.wf s.mem = true) (found : s.job j.id = some j)
    (scoring : j.scoring = true) (left : j.committed < j.n) (en : (s.live.ring j.ring).en = true)
    (fits : j.n + 1 ≤ 2 ^ (s.live.ring j.ring).cSize) (jobs : u.jobs = s.jobs) (live : u.live = s.live) (mem : u.mem = s.mem) :
    let slot := j.slot + BitVec.ofNat 32 j.committed
    let t := (u.writeEntry j.ring slot body).committedOne j void paid
    EntryStands (s.live.ring j.ring) t.mem slot body ∧
    OnlySlots (s.live.ring j.ring) (if j.committed + 1 = j.n then [slot, j.entrySlot] else [slot]) s.mem t.mem ∧
    CommittedTo t j.id (j.committed + 1) (j.voided + flag void) ∧
    (j.committed + 1 = j.n → JobEnds s t j 0x100 j.n (j.voided + flag void)) := by
  intro slot t
  have wrote : OnlyChanges [.mem, .rings] u (u.writeEntry j.ring slot body) :=
    State.writeEntry_frame _ _ _ _ (OnlyChanges.refl _ _) (by decide) (by decide)
  have live' : (u.writeEntry j.ring slot body).live = s.live := (live_eq_of_onlyChanges wrote (by decide)).trans live
  have jobs' : (u.writeEntry j.ring slot body).jobs = s.jobs := (jobs_eq_of_onlyChanges wrote (by decide)).trans jobs
  have stands : EntryStands (s.live.ring j.ring) (u.writeEntry j.ring slot body).mem slot body := by
    rw [writeEntry_mem_congr live mem]
    exact writeEntry_stands wf en
  have only : OnlySlots (s.live.ring j.ring) [slot] s.mem (u.writeEntry j.ring slot body).mem := by
    rw [writeEntry_mem_congr live mem]
    exact writeEntry_onlySlots wf
  have wf' : Memory.wf (u.writeEntry j.ring slot body).mem = true := by
    rw [writeEntry_mem_congr live mem, writeEntry_of_en en]
    exact write_wf _ _ wf
  have found' : (u.writeEntry j.ring slot body).job j.id = some j := by
    rw [State.job, jobs']
    exact found
  obtain ⟨entries, count, ends⟩ := committedOne_leaves (void := void) (paid := paid) wf' found'
  rw [live'] at entries
  refine ⟨?_, ?_, count, fun last => jobEnds_of_live live' (ends last)⟩
  · by_cases last : j.committed + 1 = j.n
    · rw [if_pos last] at entries
      exact entryStands_of_onlySlots stands entries (slot_ne_entrySlot scoring fits left)
    · rw [if_neg last] at entries
      refine Eq.trans (List.map_congr_left fun k _ => entries _ (by simp)) stands
  · intro a off
    refine (entries a fun p named => ?_).trans (only a fun p named => ?_)
    · split at named
      · rw [if_pos ‹_›] at off
        exact off p (List.mem_cons_of_mem _ named)
      · cases named
    · rw [List.mem_singleton.mp named]
      split at off <;> exact off slot List.mem_cons_self

end

/-! ## The command -/

section
variable {s : State} {j : Job} {id : Nat}

/-- Commits go on: the job still owes one, and no lower entry waits for the replay. -/
theorem exec_recordCommit_of_due (up : s.memUp = true) (found : s.job id = some j) (scoring : j.scoring = true) (unwritten : j.written =
    false)
    (left : j.committed < j.n) (rewritten : s.rewritten j j.committed = true) :
    exec (.recordCommit id) s = .next (
      if sget 0 j.special j.committed ≠ 0 then s.commitSpecial j j.committed (sget 0 j.special j.committed)
      else if j.committed < s.releasedOf j then s.committedOne j false true
      else match s.placeAt j j.committed with
        | none => s
        | some (_, p) => if p.open || p.commit then s else s.commitPlace j j.committed p) := by
  show execRecordCommit id s = _
  unfold execRecordCommit
  simp only [found]
  rw [if_neg (by simp [up, scoring, unwritten, left, rewritten])] <;> rfl

end

/-- Settles O32: what a commit leaves follows from its count and from the one or two entries that it writes. -/
theorem recordCommit : Obligations.RecordCommit := by
  intro id j s up wf found scoring unwritten left en fits rewritten i slot done
  have own := job_id found
  subst own
  have run := exec_recordCommit_of_due up found scoring unwritten left rewritten
  refine ⟨fun none released => ?_, fun h p none kept placed settled scored uncommitted => ?_, fun st special given => ?_,
    fun h p none kept placed unsettled => ?_⟩
  · rw [if_neg (not_not.mpr none), if_pos released] at run
    exact ⟨_, run, committedOne_leaves wf found⟩
  · rw [if_neg (not_not.mpr none), if_neg (Nat.not_lt.mpr kept), placed] at run
    dsimp only at run
    rw [if_neg (by simp [JobPlace.open, settled, scored, uncommitted])] at run
    have leaves := committedEntry_leaves (void := p.status != 0) (paid := p.paid) (body := j.resultOf p)
      (u := s.modPlace j.stream (j.seqOf i) j.id fun q => { q with commit := true }) wf found scoring left en fits rfl rfl rfl
    exact ⟨_, run, leaves⟩
  · subst special
    rw [if_pos given] at run
    have counted : OnlyChanges [.tally] s (s.countVoided j i false []) := State.countVoided_frame _ _ _ _ _ (OnlyChanges.refl _ _) (by
        decide)
    have leaves := committedEntry_leaves (void := true) (paid := true)
      (body := resultBody false false false (sget 0 j.special i) j.stream j.tag (j.seqOf i).toNat i 0)
      (u := s.countVoided j i false []) wf found scoring left en fits (jobs_eq_of_onlyChanges counted (by decide))
      (live_eq_of_onlyChanges counted (by decide)) (mem_eq_of_onlyChanges counted (by decide))
    exact ⟨_, run, leaves⟩
  · rw [if_neg (not_not.mpr none), if_neg (Nat.not_lt.mpr kept), placed] at run
    dsimp only at run
    rwa [if_pos (by simp [JobPlace.open, unsettled])] at run

end Sys2Proof.Commits
end

section
/-! PROOFS. The modules of the package link (R466 to R468): a failed lane, and what a training sends again. -/

-- Each theorem is checked before the next one, which bounds the threads that the compiler takes.
set_option Elab.async false

namespace Sys2Proof.Trainings
open Sys2Proof Sys2Proof.Machine Sys2Proof.Safety Sys2Proof.Laws Sys2Proof.PartsKept Sys2Proof.InOrder
open Sys2Proof.TallyWords (logEvent_last)
open Sys2Proof.JobEntries (rings_eq_of_onlyChanges)

/-! ## Modules -/

section
variable {s t : State} {m k : Nat}

theorem getD_modify {α : Type} {d : α} {f : α → α} {xs : List α} (inRange : m < xs.length) :
    (xs.modify m f).getD k d = if k = m then f (xs.getD m d) else xs.getD k d := by
  simp only [List.getD_eq_getElem?_getD, List.getElem?_modify]
  by_cases same : m = k
  · subst same
    simp [List.getElem?_eq_getElem inRange]
  · rw [if_neg (Ne.symm same)]
    rcases xs[k]? with - | x <;> simp [same]

theorem modModule_module {f : LinkModule → LinkModule} (inRange : m < s.link.length) (k : Nat) :
    (s.modModule m f).module k = if k = m then f (s.module m) else s.module k := getD_modify inRange

/-! ## The pump of a quiet state -/

theorem quiet_of_ing (quiet : Quiet s) (ing : t.ing = s.ing) : Quiet t := by
  unfold Quiet State.laneWaiters
  rw [ing]
  exact quiet

/-- A quiet pump may announce that acceptance is held, and does nothing else to the ports. -/
theorem pump_out (quiet : Quiet s) : ∃ rest, s.pump.out = s.out ++ rest := by
  rw [pump_of_quiet quiet]
  unfold State.refreshHeld State.notifyIf
  dsimp only
  split
  · split
    · exact ⟨_, rfl⟩
    · exact ⟨[], (List.append_nil _).symm⟩
  · exact ⟨[], (List.append_nil _).symm⟩

/-! ## A failed lane (R467) -/

/-- A module that a failed lane sends to its retrain. -/
def failedAt (lane : Nat) (l : LinkModule) : LinkModule := { l with failedLane := lane, degrade := true, retraining := true }

/-- The state when the retrain has cut the frame on its way. -/
def laneLost (s : State) (m lane : Nat) (cut : List Byte) : State :=
  ((s.modModule m fun l => { l with failedLane := lane, degrade := true }).startRetrain m).cutFrame m cut

theorem exec_linkLane_of_trained {lane : Nat} {cut : List Byte} (up : s.up = true) (trained : (s.module m).state ≠ 0) :
    exec (.linkLane m lane cut) s =
      .next ((laneLost s m lane cut).logEvent evLinkLane clsAction 0 Detected.nowhere (16 * m + lane)).pump :=
  congrArg Host.Outcome.next (if_neg (by simp [up, trained]))

theorem modify_modify {α : Type} {f g : α → α} {xs : List α} : (xs.modify m f).modify m g = xs.modify m fun x => g (f x) :=
  List.modify_modify_eq f g m xs

/-- Without a frame on its way the retrain changes its module alone. -/
theorem laneLost_nil {lane : Nat} : laneLost s m lane [] = s.modModule m (failedAt lane) := by
  have nothing (u : State) : u.cutFrame m [] = u := by
    have none : tagLength [] = none := by decide
    simp only [State.cutFrame, none]
  rw [laneLost, nothing]
  simp only [State.startRetrain, State.modModule, modify_modify]
  rfl

/-- A frame that is cut before its header is whole is discarded, on the stream that it names (R466). -/
theorem cutFrame_of_short {len st : Nat} {r : Route} {cut : List Byte} (tag : tagLength cut = some len) (named : 12 ≤ cut.length)
    (short : cut.length < 8 + (if frameGen (cut.drop 8) = 1 then 16 else 24)) (stream : (frameHeader (cut.drop 8)).stream = st)
    (route : s.tables.route st = some r) :
    s.cutFrame m cut = (s.modModule m fun l => { l with cut := satAdd 16 l.cut 1 }).addDiscard st := by
  have length : (cut.drop 8).length = cut.length - 8 := List.length_drop
  have part : decide ((cut.drop 8).length ≥ (if frameGen (cut.drop 8) = 1 then 16 else 24)) = false := by
    rw [decide_eq_false_iff_not, length]
    omega
  have found : (cutStream (cut.drop 8)).filter (fun st => (s.tables.route st).isSome) = some st := by
    rw [cutStream, if_neg (by omega), stream]
    simp [route]
  unfold State.cutFrame
  simp only [tag, part, Bool.false_and, Bool.false_eq_true, if_false, found]
  rfl

theorem laneLost_of_short {lane len st : Nat} {r : Route} {cut : List Byte} (tag : tagLength cut = some len) (named : 12 ≤ cut.length)
    (short : cut.length < 8 + (if frameGen (cut.drop 8) = 1 then 16 else 24)) (stream : (frameHeader (cut.drop 8)).stream = st)
    (route : s.tables.route st = some r) :
    laneLost s m lane cut = (s.modModule m fun l => { failedAt lane l with cut := satAdd 16 l.cut 1 }).addDiscard st := by
  refine (cutFrame_of_short (r := r) tag named short stream (by exact route)).trans ?_
  simp only [State.startRetrain, State.modModule, modify_modify]
  rfl

end

/-! ## What goes out again (R468) -/

section
variable {s : State} {source target : Nat}

/-- Entries written on a module that memory has not acknowledged. -/
def writesOf (s : State) (n : Nat) : List Nat := s.rings.flatMap fun x => (x.unacked.filter fun w => w.1 == n).map Prod.snd

/-- The requests of a module as another one sends them again. -/
def sentAgain (s : State) (target source : Nat) : List Message :=
  ((s.module source).requests.map fun a => .memRead target a) ++ (writesOf s source).map fun a => .memWrite target a

/-- The rings whose unacknowledged writes another module carries. -/
def carriedBy (s : State) (target source : Nat) : List Ring := s.rings.map fun x => { x with
  unacked := x.unacked.map fun w => if w.1 = source then (target, w.2) else w }

theorem foldl_send {α : Type} (f : α → Message) (xs : List α) (s : State) :
    xs.foldl (fun (t : State) a => t.send (f a)) s = { s with out := s.out ++ xs.map f } := by
  induction xs generalizing s with
  | nil => simp
  | cons x xs ih =>
    rw [List.foldl_cons, ih]
    simp only [State.send, List.map_cons, List.append_assoc, List.singleton_append]

/-- A module whose requests are all sent again elsewhere, and the one that takes them. -/
def reissued (s : State) (source target : Nat) : List LinkModule :=
  (s.link.modify source fun l => { l with requests := [] }).modify target fun l =>
    { l with requests := l.requests ++ (s.module source).requests }

theorem reissue_eq : s.reissue source target = { s with
    link := reissued s source target, rings := carriedBy s target source, out := s.out ++ sentAgain s target source } := by
  unfold State.reissue
  simp only [foldl_send, sentAgain, ← List.append_assoc]
  rfl

theorem carriedBy_self : carriedBy s source source = s.rings := by
  have same (w : Nat × Nat) : (if w.1 = source then (source, w.2) else w) = w := by
    split
    · next own => exact Prod.ext own.symm rfl
    · rfl
  simp only [carriedBy, same, List.map_id']

theorem reissued_self (k : Nat) : (s.reissue source source).module k = s.module k := by
  rw [reissue_eq]
  simp only [State.module, reissued, modify_modify, List.nil_append]
  simp only [List.getD_eq_getElem?_getD, List.getElem?_modify]
  by_cases same : source = k
  · subst same
    rcases s.link[source]? with - | l <;> simp
  · rcases s.link[k]? with - | l <;> simp [same]

theorem reissue_module (hs : source < s.link.length) (ht : target < s.link.length) (other : source ≠ target) (k : Nat) :
    (s.reissue source target).module k =
      if k = target then { s.module target with requests := (s.module target).requests ++ (s.module source).requests }
      else if k = source then { s.module source with requests := [] } else s.module k := by
  rw [reissue_eq]
  show (reissued s source target).getD k LinkModule.reset = _
  rw [reissued, getD_modify (by simpa using ht), getD_modify hs, getD_modify hs, if_neg (Ne.symm other)]
  rfl

theorem reissue_frame : OnlyChanges [.rings, .link, .out] s (s.reissue source target) :=
  State.reissue_frame _ _ _ (OnlyChanges.refl _ _) (by decide) (by decide) (by decide)

end

/-! ## The end of a training -/

section
variable {s : State} {m width : Nat} {fast : Bool}

/-- What a training leaves: the module that reached a width carries its own requests, and those of a module that is down; those
of a module that stays down go to the other one, where it is up. -/
def retrained (s : State) (m width : Nat) (fast : Bool) : State :=
  let s1 := s.modModule m fun l => l.trained width fast
  if width ≠ 0 then
    if (s.module (1 - m)).state = 0 ∧ (s.module (1 - m)).retraining = false then (s1.reissue m m).reissue (1 - m) m else s1.reissue m m
  else if (s.module (1 - m)).open then s1.reissue m (1 - m) else s1

theorem exec_linkRetrainDone_of_up (up : s.up = true) (two : s.link.length = 2) (inRange : m < 2) :
    exec (.linkRetrainDone m width fast []) s = .next (retrained s m width fast).pump := by
  have nothing (u : State) : u.cutFrame m [] = u := by
    have none : tagLength [] = none := by decide
    simp only [State.cutFrame, none]
  have other : (s.modModule m fun l => l.trained width fast).module (1 - m) = s.module (1 - m) :=
    (modModule_module (by omega) _).trans (if_neg (by omega))
  refine congrArg Host.Outcome.next ((if_neg (by simp [up])).trans ?_)
  simp only [nothing, ite_self, other]
  rfl

theorem retrained_frame : OnlyChanges [.rings, .link, .out] s (retrained s m width fast) := by
  have first : OnlyChanges [.rings, .link, .out] s (s.modModule m fun l => l.trained width fast) :=
    State.modModule_frame _ _ _ (OnlyChanges.refl _ _) (by decide)
  have again {u : State} (frame : OnlyChanges [.rings, .link, .out] s u) (a b : Nat) : OnlyChanges [.rings, .link, .out] s (u.reissue a
      b) :=
    State.reissue_frame _ _ _ frame (by decide) (by decide) (by decide)
  unfold retrained
  dsimp only
  split
  · split
    · exact again (again first _ _) _ _
    · exact again first _ _
  · split
    · exact again first _ _
    · exact first

/-- The state when the trained module has its width. -/
def widened (s : State) (m width : Nat) (fast : Bool) : State := s.modModule m fun l => l.trained width fast

theorem widened_module (two : s.link.length = 2) (inRange : m < 2) (k : Nat) :
    (widened s m width fast).module k = if k = m then (s.module m).trained width fast else s.module k := modModule_module (by omega) k

theorem widened_other (two : s.link.length = 2) (inRange : m < 2) : (widened s m width fast).module (1 - m) = s.module (1 - m) :=
  (widened_module two inRange _).trans (if_neg (by omega))

theorem widened_sends (two : s.link.length = 2) (inRange : m < 2) (target k : Nat) :
    sentAgain (widened s m width fast) target k = sentAgain s target k := by
  have requests : ((widened s m width fast).module k).requests = (s.module k).requests := by
    rw [widened_module two inRange]
    split
    · next same => rw [same]; rfl
    · rfl
  rw [sentAgain, requests]
  rfl

theorem retrained_of_busy (two : s.link.length = 2) (inRange : m < 2) (reached : width ≠ 0)
    (busy : (s.module (1 - m)).state ≠ 0 ∨ (s.module (1 - m)).retraining = true) :
    (retrained s m width fast).module m = (s.module m).trained width fast ∧
      (retrained s m width fast).module (1 - m) = s.module (1 - m) ∧ (retrained s m width fast).rings = s.rings ∧
      (retrained s m width fast).out = s.out ++ sentAgain s m m := by
  have state : retrained s m width fast = (widened s m width fast).reissue m m :=
    (if_pos reached).trans (if_neg fun down => busy.elim (· down.1) fun busy => by simp [down.2] at busy)
  rw [state, reissued_self, reissued_self, widened_other two inRange, widened_module two inRange, if_pos rfl, reissue_eq]
  exact ⟨rfl, rfl, carriedBy_self, congrArg _ (widened_sends two inRange m m)⟩

theorem retrained_of_down (two : s.link.length = 2) (inRange : m < 2) (reached : width ≠ 0)
    (down : (s.module (1 - m)).state = 0) (still : (s.module (1 - m)).retraining = false) :
    (retrained s m width fast).module m = { (s.module m).trained width fast with
        requests := (s.module m).requests ++ (s.module (1 - m)).requests } ∧
      (retrained s m width fast).module (1 - m) = { s.module (1 - m) with requests := [] } ∧
      (retrained s m width fast).rings = carriedBy s m (1 - m) ∧
      (retrained s m width fast).out = s.out ++ sentAgain s m m ++ sentAgain s m (1 - m) := by
  have state : retrained s m width fast = ((widened s m width fast).reissue m m).reissue (1 - m) m :=
    (if_pos reached).trans (if_pos ⟨down, still⟩)
  have length : ((widened s m width fast).reissue m m).link.length = 2 := by
    rw [reissue_eq]
    simp [reissued, widened, State.modModule, two]
  have rings : ((widened s m width fast).reissue m m).rings = s.rings := by
    rw [reissue_eq]
    exact carriedBy_self
  have out : ((widened s m width fast).reissue m m).out = s.out ++ sentAgain s m m := by
    rw [reissue_eq]
    exact congrArg _ (widened_sends two inRange m m)
  have sends : sentAgain ((widened s m width fast).reissue m m) m (1 - m) = sentAgain s m (1 - m) := by
    rw [sentAgain, writesOf, reissued_self, widened_other two inRange, rings]
    rfl
  have module := reissue_module (s := (widened s m width fast).reissue m m) (source := 1 - m) (target := m) (by omega) (by omega) (by
      omega)
  rw [state, module, module, if_pos rfl, if_neg (by omega), if_pos rfl, reissued_self, reissued_self, widened_other two inRange,
    widened_module two inRange, if_pos rfl, reissue_eq, sends, out]
  exact ⟨rfl, rfl, congrArg (List.map _) rings, rfl⟩

theorem retrained_of_moved (two : s.link.length = 2) (inRange : m < 2) (opened : (s.module (1 - m)).open = true) :
    (retrained s m 0 fast).module m = { (s.module m).trained 0 fast with requests := [] } ∧
      (retrained s m 0 fast).module (1 - m) = { s.module (1 - m) with
        requests := (s.module (1 - m)).requests ++ (s.module m).requests } ∧
      (retrained s m 0 fast).rings = carriedBy s (1 - m) m ∧ (retrained s m 0 fast).out = s.out ++ sentAgain s (1 - m) m := by
  have state : retrained s m 0 fast = (widened s m 0 fast).reissue m (1 - m) := by
    unfold retrained
    rw [if_neg (by decide), if_pos opened]
    rfl
  have length : (widened s m 0 fast).link.length = 2 := by simp [widened, State.modModule, two]
  have module := reissue_module (s := widened s m 0 fast) (source := m) (target := 1 - m) (by omega) (by omega) (by omega)
  rw [state, module, module, if_neg (by omega), if_pos rfl, if_pos rfl, widened_other two inRange, widened_module two inRange, if_pos rfl,
    reissue_eq]
  exact ⟨rfl, rfl, rfl, congrArg _ (widened_sends two inRange (1 - m) m)⟩

theorem retrained_of_waiting (two : s.link.length = 2) (inRange : m < 2) (closed : (s.module (1 - m)).open = false) :
    (retrained s m 0 fast).module m = (s.module m).trained 0 fast ∧
      (retrained s m 0 fast).module (1 - m) = s.module (1 - m) ∧ (retrained s m 0 fast).rings = s.rings := by
  have state : retrained s m 0 fast = widened s m 0 fast := by
    unfold retrained
    rw [if_neg (by decide), if_neg (Bool.eq_false_iff.mp closed)]
    rfl
  rw [state, widened_other two inRange, widened_module two inRange, if_pos rfl]
  exact ⟨rfl, rfl, rfl⟩

/-- Whatever goes out again, the trained module has its width, its speed and its counts. -/
theorem retrained_own (two : s.link.length = 2) (inRange : m < 2) :
    ∃ qs, (retrained s m width fast).module m = { (s.module m).trained width fast with requests := qs } := by
  by_cases reached : width = 0
  · subst reached
    cases opened : (s.module (1 - m)).open with
    | true => exact ⟨_, (retrained_of_moved two inRange opened).1⟩
    | false => exact ⟨_, (retrained_of_waiting two inRange opened).1⟩
  · by_cases busy : (s.module (1 - m)).state ≠ 0 ∨ (s.module (1 - m)).retraining = true
    · exact ⟨_, (retrained_of_busy two inRange reached busy).1⟩
    · obtain ⟨down, still⟩ := not_or.mp busy
      exact ⟨_, (retrained_of_down two inRange reached (not_not.mp down) (Bool.eq_false_iff.mpr still)).1⟩

end

/-- Settles O39: a failed lane changes its module and cuts its frame; a training changes its module, and what each module then
carries says which requests go out again. -/
theorem linkEvents : Obligations.LinkEvents := by
  refine ⟨fun m lane s up inRange quiet trained => ?fails, fun m lane len st r cut s up inRange quiet trained tag named short stream
    route => ?cuts, fun m width fast s up two inRange quiet => ?trains⟩
  case fails =>
    have run := exec_linkLane_of_trained (lane := lane) (cut := []) up trained
    rw [laneLost_nil] at run
    have logged := TallyWords.logEvent_last (s.modModule m (failedAt lane)) evLinkLane clsAction 0 Detected.nowhere (16 * m + lane)
    have frame : OnlyChanges [.flt, .link, .pins, .out] s
        ((s.modModule m (failedAt lane)).logEvent evLinkLane clsAction 0 Detected.nowhere (16 * m + lane)) :=
      State.logEvent_frame _ _ _ _ _ _ (State.modModule_frame _ _ _ (OnlyChanges.refl _ _) (by decide)) (by decide) (by decide) (by
          decide)
    have link : ((s.modModule m (failedAt lane)).logEvent evLinkLane clsAction 0 Detected.nowhere (16 * m + lane)).link =
        (s.modModule m (failedAt lane)).link :=
      link_eq_of_onlyChanges (State.logEvent_frame (fs := [.flt, .pins, .out]) _ _ _ _ _ _ (OnlyChanges.refl _ _) (by decide) (by decide)
        (by decide)) (by decide)
    generalize (s.modModule m (failedAt lane)).logEvent evLinkLane clsAction 0 Detected.nowhere (16 * m + lane) = u at *
    have ing : u.ing = s.ing := ing_eq_of_onlyChanges frame (by decide)
    have pumped := pump_of_quiet_frame (quiet_of_ing quiet ing)
    have module (k : Nat) : u.pump.module k = if k = m then failedAt lane (s.module m) else s.module k := by
      rw [State.module, link_eq_of_onlyChanges pumped (by decide), link]
      exact modModule_module inRange k
    refine ⟨u.pump, GaitSteps.entryOf (s.modModule m (failedAt lane)) evLinkLane clsAction 0 Detected.nowhere (16 * m + lane), run, ?_,
      (ing_eq_of_onlyChanges pumped (by decide)).trans ing, (module m).trans (if_pos rfl),
      fun k other => (module k).trans (if_neg other), ?_, rfl, rfl, rfl⟩
    · exact State.pump_frame _ (Answering.onlyChanges_mono (by decide) frame) (by decide) (by decide) (by decide)
    · rw [flt_eq_of_onlyChanges pumped (by decide)]
      exact logged.1
  case cuts =>
    have run := exec_linkLane_of_trained (lane := lane) (cut := cut) up trained
    rw [laneLost_of_short tag named short stream route] at run
    generalize event : State.logEvent _ evLinkLane clsAction 0 Detected.nowhere (16 * m + lane) = u at run
    have frame : OnlyChanges [.flt, .pins, .out] ((s.modModule m fun l => { failedAt lane l with cut := satAdd 16 l.cut 1 }).addDiscard
        st) u :=
      event ▸ State.logEvent_frame _ _ _ _ _ _ (OnlyChanges.refl _ _) (by decide) (by decide) (by decide)
    have ing : u.ing = (s.addDiscard st).ing := (ing_eq_of_onlyChanges frame (by decide)).trans rfl
    have still : Quiet u := quiet_of_ing (quiet_of_fewer_records (t := s.addDiscard st) quiet rfl rfl fun _ held => held) ing
    have pumped := pump_of_quiet_frame still
    refine ⟨u.pump, run, (ing_eq_of_onlyChanges pumped (by decide)).trans ing, ?_⟩
    rw [State.module, link_eq_of_onlyChanges pumped (by decide), link_eq_of_onlyChanges frame (by decide)]
    exact (modModule_module inRange m).trans (if_pos rfl)
  case trains =>
    intro l o writes sent moved reached
    have run := exec_linkRetrainDone_of_up (width := width) (fast := fast) up two inRange
    have frame := retrained_frame (s := s) (m := m) (width := width) (fast := fast)
    have ing : (retrained s m width fast).ing = s.ing := ing_eq_of_onlyChanges frame (by decide)
    have pumped := pump_of_quiet_frame (quiet_of_ing quiet ing)
    obtain ⟨rest, out⟩ := pump_out (quiet_of_ing quiet ing)
    have module (k : Nat) : (retrained s m width fast).pump.module k = (retrained s m width fast).module k :=
      congrArg (fun ls : List LinkModule => ls.getD k LinkModule.reset) (link_eq_of_onlyChanges pumped (by decide))
    have rings : (retrained s m width fast).pump.rings = (retrained s m width fast).rings := rings_eq_of_onlyChanges pumped (by decide)
    refine ⟨(retrained s m width fast).pump, rest, run, ?_, (ing_eq_of_onlyChanges pumped (by decide)).trans ing, ?_⟩
    · exact State.pump_frame _ (Answering.onlyChanges_mono (by decide) frame) (by decide) (by decide) (by decide)
    rw [module, module, rings, out]
    obtain ⟨qs, own⟩ := retrained_own (width := width) (fast := fast) two inRange
    have width_eq : (l.trained width fast).state = reached := by
      simp only [LinkModule.trained, Bool.and_eq_true, beq_iff_eq]
      rfl
    have lane_eq : (l.trained width fast).failedLane = if reached = 1 then 0x1F else l.failedLane := by
      rw [← width_eq]
      rfl
    have retrains_eq (again : l.retraining = true ∨ l.state ≠ 0) : (l.trained width fast).retrains = min (l.retrains + 1) 65535 :=
      if_pos (by simpa using again)
    refine ⟨by rw [own]; exact width_eq, by rw [own]; rfl, by rw [own]; rfl, by rw [own]; rfl, by rw [own]; exact lane_eq,
      fun again => by rw [own]; exact retrains_eq again, fun wide busy => ?_, fun wide down still => ?_, fun none opened => ?_,
      fun none closed => ?_⟩
    · obtain ⟨first, second, kept, sends⟩ := retrained_of_busy (fast := fast) two inRange wide busy
      rw [first, second, kept, sends]
      exact ⟨rfl, rfl, rfl, rfl⟩
    · obtain ⟨first, second, kept, sends⟩ := retrained_of_down (fast := fast) two inRange wide down still
      rw [first, second, kept, sends]
      exact ⟨rfl, rfl, rfl, rfl⟩
    · subst none
      obtain ⟨first, second, kept, sends⟩ := retrained_of_moved (fast := fast) two inRange opened
      rw [first, second, kept, sends]
      exact ⟨rfl, rfl, rfl, rfl⟩
    · subst none
      obtain ⟨first, second, kept⟩ := retrained_of_waiting (fast := fast) two inRange closed
      rw [first, second, kept]
      exact ⟨rfl, rfl, rfl⟩

end Sys2Proof.Trainings
end

section
/-! PROOFS. Recoveries (R388 to R396, R407, R409, R420): what a retry leaves of positions and groups, and the rung of an array fault. -/

-- Each theorem is checked before the next one, which bounds the threads that the compiler takes.
set_option Elab.async false

namespace Sys2Proof.Recoveries
open Sys2Proof Sys2Proof.Machine Sys2Proof.Safety Sys2Proof.Laws Sys2Proof.PartsKept Sys2Proof.GaitSteps
open Sys2Proof.ThermalThresholds (grp_eq_of_onlyChanges)
open Sys2Proof.Answering (onlyChanges_mono)
open Sys2Proof.TallyWords (logEvent_last)

/-! ## Which array serves a position, and for which groups -/

/-- Which array serves each position, which positions are OUT, and which arrays are retired. -/
def seating (a : Arrays) : List Nat × Word32 × BitVec 34 := (a.map, a.out, a.retired)

/-- The groups, and the arrays that serve their positions. -/
def duty (s : State) : List Group × List Nat × Word32 × BitVec 34 := (s.grp.groups, seating s.arr)

theorem foldl_kept {α β γ : Type} {side : β → γ} {f : β → α → β} (kept : ∀ b x, side (f b x) = side b) (xs : List α) (b : β) :
    side (xs.foldl f b) = side b := by
  induction xs generalizing b with
  | nil => rfl
  | cons x xs ih => rw [List.foldl_cons, ih, kept]

section
variable {a : Arrays} {phys bank pos : Nat} {plane : Bool}

theorem placeRows_seating {rows : List BridgeRow} : seating (a.placeRows phys bank rows) = seating a := by
  unfold Arrays.placeRows
  refine foldl_kept (side := seating) ?_ _ _
  exact fun _ _ => rfl

theorem disturb_seating {u : Upset} : seating (a.disturb u) = seating a := by
  cases u <;> rfl

theorem writeCell_seating {x : SlotWrite} {c : Nat} : seating (a.writeCell x c) = seating a := by
  unfold Arrays.writeCell
  dsimp only
  split <;> rfl

theorem writeSlot_seating {x : SlotWrite} : seating (a.writeSlot x) = seating a := by
  unfold Arrays.writeSlot
  exact foldl_kept (fun _ _ => writeCell_seating) _ _

theorem writeScales_seating {ms : List ModelDef} : seating (a.writeScales phys plane ms) = seating a := by
  unfold Arrays.writeScales
  refine foldl_kept (fun b x => ?_) _ _
  dsimp only
  split
  · rfl
  · split <;> rfl

theorem settleSlot_seating {x : Home × Content} {slot : Nat} : seating (a.settleSlot x pos plane slot phys) = seating a := by
  unfold Arrays.settleSlot
  rw [writeScales_seating, placeRows_seating, writeSlot_seating]

theorem fill_seating {img : Image} {rows : List ImageRow} {half base size : Nat} :
    seating (a.fill img rows half base size plane pos phys) = seating a := by
  unfold Arrays.fill
  dsimp only
  rw [foldl_kept (fun _ _ => writeScales_seating), foldl_kept (fun _ _ => placeRows_seating),
    foldl_kept (fun _ _ => writeSlot_seating)]
  refine foldl_kept (side := seating) ?_ _ _
  exact fun _ _ => rfl

end

section
variable {s : State} {pos phys : Nat}

theorem duty_of_parts {t : State} (grp : t.grp = s.grp) (arr : seating t.arr = seating s.arr) : duty t = duty s := by
  rw [duty, grp, arr, duty]

theorem relocate_duty {x : Home × Content} {plane : Bool} {slot : Nat} : duty (s.relocate x pos plane slot) = duty s := by
  refine duty_of_parts rfl ?_
  unfold State.relocate State.renameHandOffs
  dsimp only
  refine Eq.trans (b := seating (List.foldl _ _ _)) rfl ?_
  rw [foldl_kept (fun _ _ => settleSlot_seating)]
  exact foldl_kept (side := seating) (f := fun (b : Arrays) c => b.leave (s.physOf c) _ _ _) (fun _ _ => rfl) _ s.arr

theorem avoidOn_duty : duty (s.avoidOn pos phys) = duty s := by
  unfold State.avoidOn
  refine foldl_kept (fun t sl => ?_) _ s
  dsimp only
  split
  · rfl
  · split
    · exact foldl_kept (fun _ _ => relocate_duty) _ _
    · rfl

theorem dropPending_duty : duty s.dropPending = duty s := by
  unfold State.dropPending
  split
  · rfl
  · refine duty_of_parts rfl ?_
    dsimp only
    refine foldl_kept (side := seating) (fun b d => ?_) _ _
    refine foldl_kept (side := seating) ?_ _ _
    exact fun _ _ => rfl

theorem interruptLoad_duty : duty (s.interruptLoad pos) = duty s := by
  have broken : duty s.breakPending = duty s := by
    unfold State.breakPending
    split
    · have kept := State.retarget_frame (fs := [.gait, .out]) _
        (OnlyChanges.refl _ { s.dropPending with img := { s.dropPending.img with last := stLoadInterrupted } }) (by decide) (by decide)
      exact (duty_of_parts (grp_eq_of_onlyChanges kept (by decide)) (congrArg seating (arr_eq_of_onlyChanges kept (by decide)))).trans
        dropPending_duty
    · rfl
  have first : ∀ b : Bool, duty (if b then s.breakPending else s) = duty s := by
    intro b
    split
    · exact broken
    · rfl
  unfold State.interruptLoad
  dsimp only
  split
  · split
    · exact first _
    · exact first _
  · exact first _

theorem fillPosition_duty {gen : Group → Nat} : duty (s.fillPosition pos phys gen) = duty s := by
  unfold State.fillPosition
  refine foldl_kept (fun t g => ?_) _ s
  dsimp only
  split
  · rfl
  · refine duty_of_parts rfl ?_
    dsimp only
    rw [foldl_kept (fun _ _ => fill_seating)]
    exact foldl_kept (side := seating) (f := fun (a : Arrays) π => a.clearPlane pos phys π) (fun _ _ => rfl) _ t.arr

theorem mapOnto_duty : duty (s.mapOnto pos phys) = (s.grp.groups, s.arr.map.set pos phys, s.arr.out,
    s.arr.retired ||| BitVec.ofNat 34 (2 ^ s.arr.map.getD pos pos)) := by
  have kept : duty ((s.interruptLoad pos).avoidOn pos phys) = duty s := avoidOn_duty.trans interruptLoad_duty
  simp only [duty, seating, Prod.mk.injEq] at kept
  obtain ⟨groups, map, out, retired⟩ := kept
  unfold State.mapOnto
  dsimp only
  rw [fillPosition_duty]
  simp only [duty, seating, State.retireArray, groups, map, out, retired]

/-! ## What a retry leaves -/

theorem disturbAll_duty {ups : List Upset} : duty (s.disturbAll ups) = duty s := by
  unfold State.disturbAll
  refine foldl_kept (fun t u => ?_) _ s
  cases u with
  | tallyBit => rfl
  | headBit => rfl
  | blockBit => rfl
  | _ => exact duty_of_parts rfl disturb_seating

theorem loadBuffers_duty {g : Group} {x : FeaturePlace} {ups : List Upset} : duty (s.loadBuffers g x ups) = duty s := by
  unfold State.loadBuffers
  dsimp only
  rw [disturbAll_duty]
  refine duty_of_parts rfl ?_
  dsimp only
  refine foldl_kept (side := seating) ?_ _ _
  exact fun _ _ => rfl

theorem restoreItem_duty {i : Item} : duty (s.restoreItem pos phys i) = duty s := by
  cases i with
  | cell => rfl
  | desc => rfl
  | mask n => unfold State.restoreItem; dsimp only; split <;> rfl
  | row k r => unfold State.restoreItem; dsimp only; split <;> rfl
  | scale i =>
    refine foldl_kept (side := duty) ?_ _ s
    exact fun _ _ => rfl

theorem rewritePart_duty {d : Detected} : duty (s.rewritePart d) = duty s := by
  unfold State.rewritePart
  split
  · exact restoreItem_duty
  · split <;> rfl

theorem searchSlot_duty {a : Attempt} {p k n : Nat} {w : Word} {d : BitVec 10} {m : ModelDef} :
    duty (s.searchSlot a p k n w d m).state = duty s := by
  unfold State.searchSlot
  dsimp only
  split <;> (split <;> rfl)

theorem searchToken_duty {a : Attempt} {p k n : Nat} {m : ModelDef} : duty (s.searchToken a p k n m).state = duty s := by
  unfold State.searchToken
  split
  · exact searchSlot_duty
  · rfl

theorem searchBoth_duty {a : Attempt} {p k n : Nat} {m : ModelDef} : duty (s.searchBoth a p k n m).state = duty s := by
  unfold State.searchBoth
  dsimp only
  split
  · exact searchToken_duty.trans searchToken_duty
  · exact searchToken_duty

theorem searchAll_duty {a : Attempt} {m : ModelDef} : duty (s.searchAll a m).state = duty s := by
  unfold State.searchAll
  refine foldl_kept (side := fun r : Searched => duty r.state) (fun r n => foldl_kept (side := fun r : Searched => duty r.state)
    (fun r w => ?_) _ r) _ _
  dsimp only
  split
  · exact searchBoth_duty
  · rfl

theorem repeatPass_duty {g : Group} {j : Job} {h : Head} {m : ModelDef} {ups : List Upset} {w : PassRef} :
    duty (s.repeatPass g j h m ups w).1 = duty s := by
  unfold State.repeatPass
  extract_lets tremolo s1 a
  have loaded : duty s1 = duty s := disturbAll_duty.trans loadBuffers_duty
  split
  · exact loaded
  · exact searchAll_duty.trans loaded

theorem repeatPasses_duty {g : Group} {j : Job} {h : Head} {m : ModelDef} {ups : List Upset} {ws : List PassRef} :
    duty (s.repeatPasses g j h m ups ws).1 = duty s := by
  induction ws generalizing s ups with
  | nil => rfl
  | cons w ws ih =>
    have first := repeatPass_duty (s := s) (g := g) (j := j) (h := h) (m := m) (ups := ups) (w := w)
    unfold State.repeatPasses
    split
    · rename_i found
      rw [found] at first
      exact first
    · rename_i found
      rw [found] at first
      exact ih.trans first

theorem retry_duty {d : Detected} {ups : List Upset} : duty (s.retry d ups).1 = duty s := by
  unfold State.retry
  split
  · split
    · exact repeatPasses_duty
    · exact disturbAll_duty
  · exact disturbAll_duty

end

/-! ## One error classified (R388, R389) -/

section
variable {s : State} {ups : List Upset} {bad : List (Nat × Nat)} {tw : Bool} {d : Detected} {rest : List Detected}

/-- What the retry of an error leaves of the state, and the check that fails in it. -/
def retried (s : State) (d : Detected) (ups : List Upset) : State × Option Detected := (s.rewritePart d).retry d ups

theorem retried_duty : duty (retried s d ups).1 = duty s := retry_duty.trans rewritePart_duty

theorem retried_frame : OnlyChanges [.sel, .acc, .arr, .grp, .tally] s (retried s d ups).1 :=
  State.retry_frame _ (State.rewritePart_frame _ _ (OnlyChanges.refl _ _) (by decide)) _ _ (by decide) (by decide) (by decide) (by decide)
    (by decide)

theorem retried_flt : (retried s d ups).1.flt = s.flt := flt_eq_of_onlyChanges retried_frame (by decide)

/-- A transient error counted and logged. -/
def transient (s : State) (d : Detected) : State :=
  ({ s with flt := s.flt.addTrans d.part } : State).logEvent d.check clsTransient 0 d d.detail

/-- A lasting fault logged. -/
def lasting (s : State) (d : Detected) : State := s.logEvent d.check clsLasting 0 d d.detail

/-- The failure that the retry of an error found elsewhere, queued with the pass of the error. -/
def queueFound (s : State) (d : Detected) : Option Detected → State
  | some e => s.enqueueFault { e with work := d.work }
  | none => s

theorem exec_faultRecovery (up : s.up = true) (queue : s.flt.queue = d :: rest) (ready : s.recoveryReady d = true) :
    exec (.faultRecovery ups bad tw) s = .next ((s.classify d ups bad tw).endRecovery d) := by
  refine congrArg Host.Outcome.next ?_
  rw [queue]
  exact if_neg (by simp [up, ready])

theorem exec_faultRecovery_of_waiting
    (waits : s.flt.queue = [] ∨ (∃ d rest, s.flt.queue = d :: rest ∧ s.recoveryReady d = false)) :
    exec (.faultRecovery ups bad tw) s = .next s := by
  refine congrArg Host.Outcome.next ?_
  rcases waits with empty | ⟨d, rest, queue, waits⟩
  · rw [empty]
  · rw [queue]
    exact if_pos (.inr waits)

theorem any_same_iff {e : Option Detected} : e.any d.same = true ↔ ∃ x, e = some x ∧ x.check = d.check ∧ x.part = d.part := by
  rcases e with - | x
  · simp
  · rw [Option.any_some, Detected.same, Bool.and_eq_true, beq_iff_eq, beq_iff_eq]
    exact ⟨fun ⟨check, part⟩ => ⟨x, rfl, check.symm, part.symm⟩, fun ⟨_, found, check, part⟩ => by
      cases found
      exact ⟨check.symm, part.symm⟩⟩

theorem classify_of_transient (fresh : s.worn d.part = false) (holds : s.needsLost d = none)
    (other : (retried s d ups).2.any d.same = false) :
    s.classify d ups bad tw = queueFound (transient (retried s d ups).1 d) d (retried s d ups).2 := by
  unfold State.classify
  rw [holds]
  simp only [Option.bind_none, fresh, Bool.false_eq_true, if_false]
  refine (if_neg (ne_true_of_eq_false other)).trans ?_
  show (match (retried s d ups).2 with | some e => _ | none => _) = _
  cases (retried s d ups).2 <;> rfl

/-- A lasting fault takes its rung: before a retry where its part is worn, else after it. -/
theorem classify_of_lasting (holds : s.needsLost d = none)
    (lasts : s.worn d.part = true ∨ ∃ x, (retried s d ups).2 = some x ∧ x.check = d.check ∧ x.part = d.part) :
    ∃ u, (u = s ∨ u = (retried s d ups).1) ∧ s.classify d ups bad tw = (lasting u d).ladder bad tw d := by
  unfold State.classify
  rw [holds]
  simp only [Option.bind_none]
  by_cases worn : s.worn d.part = true
  · exact ⟨s, .inl rfl, if_pos worn⟩
  · refine ⟨_, .inr rfl, ?_⟩
    exact (if_neg worn).trans (if_pos (any_same_iff.mpr (lasts.resolve_left worn)))

/-- What stands before the rung of a lasting fault is taken. -/
theorem classified_start {u : State} (start : u = s ∨ u = (retried s d ups).1) :
    OnlyChanges [.sel, .acc, .arr, .grp, .tally] s u ∧ duty u = duty s ∧ u.flt = s.flt := by
  rcases start with rfl | rfl
  · exact ⟨OnlyChanges.refl _ _, rfl, rfl⟩
  · exact ⟨retried_frame, retried_duty, retried_flt⟩

/-! ## The log and the queue -/

/-- What of the faults an event leaves: the queue, the counts of the parts, and the lost items. -/
def keptSide (f : Faults) : List Detected × List (Detected × Nat) × List Nat := (f.queue, f.trans, f.lostItems)

theorem logEvent_keptSide {ev cls rung detail : Nat} : keptSide (s.logEvent ev cls rung d detail).flt = keptSide s.flt := by
  rw [logEvent_flt]
  unfold Faults.count Faults.append keptSide
  repeat' split
  all_goals rfl

theorem transOf_addTrans (f : Faults) (p : Detected) : (f.addTrans p).transOf p = f.transOf p + 1 := by
  have none : (f.trans.filter (fun x => x.1 != p)).find? (fun x => x.1 == p) = Option.none := by
    simp only [List.find?_eq_none, List.mem_filter, bne_iff_ne, ne_eq, beq_iff_eq, and_imp]
    exact fun x _ other => other
  simp only [Faults.addTrans, Faults.transOf, List.find?_append, none]
  simp

theorem transOf_of_keptSide {f g : Faults} (same : keptSide f = keptSide g) (p : Detected) : f.transOf p = g.transOf p := by
  have trans : f.trans = g.trans := congrArg (fun x => x.2.1) same
  rw [Faults.transOf, trans, ← Faults.transOf]

theorem endRecovery_flt : (s.endRecovery d).flt = { s.flt with queue := s.flt.queue.tail } := by
  unfold State.endRecovery
  dsimp only
  split <;> rfl

theorem endRecovery_arr : (s.endRecovery d).arr = s.arr := by
  unfold State.endRecovery
  dsimp only
  split <;> rfl

/-- A group takes records again when no other recovery of it is queued (R394). -/
theorem endRecovery_groups {g : Group} (listed : g ∈ (s.endRecovery d).grp.groups) :
    ((∀ x ∈ s.flt.queue.tail, x.grp ≠ d.grp) → g.gid = d.grp → g.paused = false) ∧
    ((∃ x ∈ s.flt.queue.tail, x.grp = g.gid) → g ∈ s.grp.groups) := by
  unfold State.endRecovery at listed
  dsimp only at listed
  split at listed
  · rename_i others
    obtain ⟨x, queued, own⟩ := List.any_eq_true.mp others
    exact ⟨fun none _ => absurd (eq_of_beq own) (none x queued), fun _ => listed⟩
  · rename_i none
    obtain ⟨y, old, rfl⟩ := List.mem_map.mp listed
    by_cases own : y.gid = d.grp
    · rw [if_pos own]
      refine ⟨fun _ _ => rfl, fun ⟨x, queued, same⟩ => absurd (List.any_eq_true.mpr ⟨x, queued, ?_⟩) none⟩
      simpa [own] using same
    · rw [if_neg own]
      exact ⟨fun _ same => absurd same own, fun _ => old⟩

/-! ## Retiring an array (R409, R420) -/

theorem bitOf_or_self {n i : Nat} {v : BitVec n} (inRange : i < n) : bitOf (v ||| BitVec.ofNat n (2 ^ i)).toNat i = true := by
  rw [bitOf, BitVec.toNat_or, BitVec.toNat_ofNat, Nat.mod_eq_of_lt (Nat.pow_lt_pow_right (by decide) inRange), Nat.testBit_or,
    Nat.testBit_two_pow_self, Bool.or_true]

theorem ladder_of_unused (unused : s.groupsAt (s.primaryOf d.pos) = []) : s.ladder bad tw d = (s.retireArray d.phys).putOut d.pos := by
  unfold State.ladder
  rw [unused]
  rfl

theorem groupsAt_of_duty {t : State} (same : duty t = duty s) (pos : Nat) : t.groupsAt pos = s.groupsAt pos := by
  rw [State.groupsAt, show t.grp.groups = s.grp.groups from congrArg Prod.fst same, State.groupsAt]

theorem primaryOf_of_duty {t : State} (same : duty t = duty s) (pos : Nat) : t.primaryOf pos = s.primaryOf pos := by
  rw [State.primaryOf, groupsAt_of_duty same, State.primaryOf]

theorem lasting_frame : OnlyChanges [.flt, .pins, .out] s (lasting s d) :=
  State.logEvent_frame _ _ _ _ _ _ (OnlyChanges.refl _ s) (by decide) (by decide) (by decide)

theorem lasting_duty : duty (lasting s d) = duty s := by
  exact duty_of_parts (grp_eq_of_onlyChanges lasting_frame (by decide))
    (congrArg seating (arr_eq_of_onlyChanges lasting_frame (by decide)))

/-- A lasting fault of an array whose position no group uses only retires it (R420). -/
theorem retired_of_unused (array : d.phys < 34) (position : d.pos < 32) :
    bitOf ((s.retireArray d.phys).putOut d.pos).arr.retired.toNat d.phys = true ∧
      ((s.retireArray d.phys).putOut d.pos).inService d.pos = false :=
  ⟨bitOf_or_self array, congrArg (! ·) (bitOf_or_self position)⟩

/-! ## A Remount (R409) -/

theorem suspendModels_nil {g : Group} : s.suspendModels g [] = s := by
  have voided : s.voidSuspended g [] = s := by
    unfold State.voidSuspended
    refine foldl_kept (side := id) (fun t x => ?_) _ s
    split
    · rfl
    · rfl
  have same : (fun x : Group => if x.gid = g.gid then x else x) = id := funext fun x => ite_self x
  unfold State.suspendModels State.modGroup
  rw [voided]
  simp only [List.foldl_nil, same, List.map_id]

theorem flatMap_nothing {α β : Type} (xs : List α) : xs.flatMap (fun _ => ([] : List β)) = [] :=
  List.flatMap_eq_nil_iff.mpr fun _ _ => rfl

theorem lostModels_of_none {g : Group} {pos : Nat} (held : s.flt.lostItems = []) : s.lostModels g pos = [] := by
  have found : ∀ π t, s.slotLost pos π t = false := by
    intro π t
    unfold State.slotLost
    rw [held]
    split <;> rfl
  simp [State.lostModels, found, flatMap_nothing]

theorem ladder_of_array {p : Nat} {ps : List Nat} (used : s.groupsAt (s.primaryOf d.pos) ≠ []) (array : d.partKind = .array)
    (held : s.flt.lostItems = []) (spares : s.arr.spares = p :: ps) : s.ladder [] tw d = s.remountOnto d.pos p d := by
  have taken : s.takeSpare [] d 2 = (some p, s) := by
    rw [State.takeSpare, spares]
    rfl
  have replaced : s.replaceArray d.pos [] d = s.remountOnto d.pos p d := by
    rw [State.replaceArray, taken]
  have kept : (s.groupsAt (s.primaryOf d.pos)).foldl (fun (t : State) g => t.suspendModels g []) s = s :=
    foldl_kept (side := id) (fun _ _ => suspendModels_nil) _ s
  have onArray : s.ladderArray [] d = s.replaceArray d.pos [] d := by
    simp [State.ladderArray, lostModels_of_none held, kept, flatMap_nothing]
  rw [State.ladder, if_neg (by simpa using used), array, if_neg (by decide), State.ladderPart, array]
  exact onArray.trans replaced

theorem mapOnto_flt {pos p : Nat} : (s.mapOnto pos p).flt = s.flt :=
  flt_eq_of_onlyChanges (State.mapOnto_frame (fs := [.arr, .gait, .img, .out]) _ _ _ (OnlyChanges.refl _ _) (by decide) (by decide)
    (by decide) (by decide)) (by decide)

theorem remountOnto_seating {pos p : Nat} : seating (s.remountOnto pos p d).arr =
    (s.arr.map.set pos p, s.arr.out, s.arr.retired ||| BitVec.ofNat 34 (2 ^ s.arr.map.getD pos pos)) ∧
    (s.remountOnto pos p d).arr = (s.mapOnto pos p).arr := by
  have kept : (s.remountOnto pos p d).arr = (s.mapOnto pos p).arr :=
    arr_eq_of_onlyChanges (State.logEvent_frame (fs := [.flt, .pins, .out]) _ _ _ _ _ _ (OnlyChanges.refl _ _) (by decide) (by decide)
      (by decide)) (by decide)
  exact ⟨(congrArg seating kept).trans (congrArg Prod.snd (mapOnto_duty (s := s) (pos := pos) (phys := p))), kept⟩

theorem spares_of_seating {a b : Arrays} (same : seating a = seating b) : a.spares = b.spares := by
  simp only [seating, Prod.mk.injEq] at same
  rw [Arrays.spares, same.1, same.2.2, Arrays.spares]

end

section
variable {s : State} {ups : List Upset} {d : Detected} {rest : List Detected}

theorem recovered_queue {t : State} (kept : t.flt.queue = d :: rest) : (t.endRecovery d).flt.queue = rest := by
  rw [endRecovery_flt]
  exact congrArg List.tail kept

theorem transient_flt (u : State) : (transient u d).flt.transients = min (u.flt.transients + 1) 65535 ∧
    keptSide (transient u d).flt = keptSide (u.flt.addTrans d.part) ∧
    (transient u d).flt.log.getLast? = some (entryOf u d.check clsTransient 0 d d.detail) ∧
    (transient u d).flt.logHead = u.flt.logHead + 1 := by
  obtain ⟨last, head⟩ := logEvent_last ({ u with flt := u.flt.addTrans d.part } : State) d.check clsTransient 0 d d.detail
  refine ⟨?_, logEvent_keptSide, last, head⟩
  rw [transient, logEvent_flt]
  show satAdd 16 (Faults.append _ _).transients 1 = _
  rw [(append_counters _ _).2]
  rfl

theorem lasting_flt (u : State) : (lasting u d).flt.lasting = min (u.flt.lasting + 1) 65535 ∧
    keptSide (lasting u d).flt = keptSide u.flt ∧
    (lasting u d).flt.log.getLast? = some (entryOf u d.check clsLasting 0 d d.detail) := by
  refine ⟨?_, logEvent_keptSide, (logEvent_last u _ _ _ _ _).1⟩
  rw [lasting, logEvent_flt]
  show satAdd 16 (Faults.append _ _).lasting 1 = _
  rw [(append_counters _ _).1]
  rfl

theorem remountOnto_flt {pos p : Nat} : (s.remountOnto pos p d).flt.lasting = s.flt.lasting ∧
    keptSide (s.remountOnto pos p d).flt = keptSide s.flt ∧
    (s.remountOnto pos p d).flt.log.getLast? = some (entryOf s evRemount clsAction 3 { d with pos := pos, phys := p }
      (s.mapOnto pos p).arr.spares.length) := by
  have flt := mapOnto_flt (s := s) (pos := pos) (p := p)
  refine ⟨?_, logEvent_keptSide.trans (congrArg keptSide flt), (logEvent_last _ _ _ _ _ _).1.trans ?_⟩
  · rw [State.remountOnto, logEvent_flt, ← flt]
    exact (append_counters _ _).1
  · rw [entryOf, flt, entryOf]

theorem queueFound_side (e : Option Detected) :
    (queueFound s d e).flt = { s.flt with queue := s.flt.queue ++ (e.map (fun x => { x with work := d.work })).toList } ∧
    (queueFound s d e).arr = s.arr ∧ OnlyChanges [.grp, .flt] s (queueFound s d e) := by
  cases e with
  | none => exact ⟨by simp [queueFound], rfl, OnlyChanges.refl _ _⟩
  | some x => exact ⟨rfl, rfl, State.enqueueFault_frame _ _ (OnlyChanges.refl _ _) (by decide) (by decide)⟩

/-- A failure that is queued stops its group (R391). -/
theorem queueFound_pauses {e : Option Detected} {x : Detected} {g : Group} (found : e = some x)
    (listed : g ∈ (queueFound s d e).grp.groups) (own : g.gid = x.grp) : g.paused = true := by
  subst found
  obtain ⟨y, -, rfl⟩ := List.mem_map.mp listed
  by_cases same : y.gid = x.grp
  · rw [if_pos same]
  · rw [if_neg same] at own
    exact absurd own same

theorem transient_frame (u : State) : OnlyChanges [.flt, .pins, .out] u (transient u d) :=
  State.logEvent_frame _ _ _ _ _ _ (show OnlyChanges _ u { u with flt := u.flt.addTrans d.part } from rfl) (by decide) (by decide)
    (by decide)

end

section
variable {s : State} {ups : List Upset} {bad : List (Nat × Nat)} {tw : Bool} {d : Detected} {rest : List Detected}

/-- The retry passes, or fails another check, so the error was transient (R388, R389, R394). -/
theorem faultRecovery_of_transient (up : s.up = true) (queue : s.flt.queue = d :: rest) (ready : s.recoveryReady d = true) :
    let r := retried s d ups
    s.worn d.part = false → s.needsLost d = none → (∀ x, r.2 = some x → ¬(x.check = d.check ∧ x.part = d.part)) →
    ∃ t y, exec (.faultRecovery ups bad tw) s = .next t ∧ OnlyChanges [.sel, .acc, .arr, .grp, .tally, .flt, .pins, .out] s t ∧
      t.arr = r.1.arr ∧ t.flt.queue = rest ++ (r.2.map (fun x => { x with work := d.work })).toList ∧
      t.flt.transients = min (s.flt.transients + 1) 65535 ∧ t.flt.transOf d.part = s.flt.transOf d.part + 1 ∧
      t.flt.logHead = s.flt.logHead + 1 ∧ t.flt.log.getLast? = some y ∧ y.index = s.flt.logHead ∧ y.event = d.check ∧ y.cls = 1 ∧
      y.rung = 0 ∧ y.detail = d.detail ∧
      (∀ g ∈ t.grp.groups, (∃ x, r.2 = some x ∧ g.gid = x.grp) → g.paused = true) ∧
      (∀ g ∈ t.grp.groups, g.gid = d.grp → (∀ x ∈ t.flt.queue, x.grp ≠ d.grp) → g.paused = false) := by
  intro r fresh holds other
  have run := exec_faultRecovery (ups := ups) (bad := bad) (tw := tw) up queue ready
  obtain ⟨count, kept, last, head⟩ := transient_flt (d := d) r.1
  have again : r.2.any d.same = false := by
    rw [← Bool.not_eq_true, any_same_iff]
    exact fun ⟨x, found, same⟩ => other x found same
  have classified : s.classify d ups bad tw = queueFound (transient r.1 d) d r.2 := classify_of_transient fresh holds again
  rw [classified] at run
  have flt : r.1.flt = s.flt := retried_flt
  rw [flt] at count kept head
  obtain ⟨queued, arr, frame⟩ := queueFound_side (s := transient r.1 d) (d := d) r.2
  have before : (transient r.1 d).flt.queue = d :: rest := (congrArg Prod.fst kept).trans queue
  have after : ((queueFound (transient r.1 d) d r.2).endRecovery d).flt.queue =
      rest ++ (r.2.map (fun x => { x with work := d.work })).toList := by
    refine recovered_queue ?_
    rw [queued, before]
    rfl
  have flt' : ((queueFound (transient r.1 d) d r.2).endRecovery d).flt = { (transient r.1 d).flt with
      queue := rest ++ (r.2.map (fun x => { x with work := d.work })).toList } := by
    rw [endRecovery_flt, queued, before]
    rfl
  refine ⟨_, entryOf r.1 d.check clsTransient 0 d d.detail, run, ?_, endRecovery_arr.trans (arr.trans ?_), after, ?_, ?_, ?_, ?_,
    congrArg Faults.logHead flt, rfl, rfl, rfl, rfl, ?_, ?_⟩
  · refine State.endRecovery_frame _ _ ?_ (by decide) (by decide)
    refine OnlyChanges.trans (onlyChanges_mono (by decide) (retried_frame (d := d) (ups := ups))) ?_
    exact OnlyChanges.trans (onlyChanges_mono (by decide) (transient_frame _)) (onlyChanges_mono (by decide) frame)
  · exact arr_eq_of_onlyChanges (transient_frame _) (by decide)
  · rw [flt']
    exact count
  · rw [flt']
    show (transient r.1 d).flt.transOf d.part = _
    rw [transOf_of_keptSide kept, transOf_addTrans]
  · rw [flt']
    exact head
  · rw [flt']
    exact last
  · intro g listed ⟨x, found, own⟩
    refine queueFound_pauses found ((endRecovery_groups listed).2 ⟨{ x with work := d.work }, ?_, own.symm⟩) own
    rw [queued, before, found]
    exact List.mem_append_right _ List.mem_cons_self
  · intro g listed own none
    refine (endRecovery_groups listed).1 (fun x queuedThere => none x ?_) own
    rwa [endRecovery_flt]

/-- A lasting fault of a position that no group uses (R420). -/
theorem faultRecovery_of_unused (up : s.up = true) (queue : s.flt.queue = d :: rest) (ready : s.recoveryReady d = true)
    (lasts : s.worn d.part = true ∨ ∃ x, (retried s d ups).2 = some x ∧ x.check = d.check ∧ x.part = d.part)
    (holds : s.needsLost d = none) (unused : s.groupsAt (s.primaryOf d.pos) = []) (array : d.phys < 34) (position : d.pos < 32) :
    ∃ t e, exec (.faultRecovery ups bad tw) s = .next t ∧ OnlyChanges [.sel, .acc, .arr, .grp, .tally, .flt, .pins, .out] s t ∧
      t.flt.queue = rest ∧ t.flt.lasting = min (s.flt.lasting + 1) 65535 ∧ t.flt.log.getLast? = some e ∧ e.event = d.check ∧ e.cls = 2 ∧
      bitOf t.arr.retired.toNat d.phys = true ∧ t.inService d.pos = false := by
  have run := exec_faultRecovery (ups := ups) (bad := bad) (tw := tw) up queue ready
  obtain ⟨u, start, classified⟩ := classify_of_lasting (bad := bad) (tw := tw) holds lasts
  obtain ⟨frame, same, flt⟩ := classified_start start
  have duties : duty (lasting u d) = duty s := lasting_duty.trans same
  have free : (lasting u d).groupsAt ((lasting u d).primaryOf d.pos) = [] := by
    rwa [groupsAt_of_duty duties, primaryOf_of_duty duties]
  rw [classified, ladder_of_unused free] at run
  obtain ⟨count, kept, last⟩ := lasting_flt (d := d) u
  have before : (lasting u d).flt.queue = d :: rest := (congrArg Prod.fst kept).trans (flt ▸ queue)
  obtain ⟨retired, out⟩ := retired_of_unused (s := lasting u d) array position
  refine ⟨_, entryOf u d.check clsLasting 0 d d.detail, run, ?_, recovered_queue before, ?_, ?_, rfl, rfl, ?_, ?_⟩
  · refine State.endRecovery_frame _ _ ?_ (by decide) (by decide)
    refine OnlyChanges.trans (onlyChanges_mono (by decide) frame) ?_
    refine State.putOut_frame _ _ (State.retireArray_frame _ _ ?_ (by decide)) (by decide)
    exact onlyChanges_mono (by decide) lasting_frame
  · rw [endRecovery_flt]
    exact flt ▸ count
  · rw [endRecovery_flt]
    exact last
  · rw [endRecovery_arr]
    exact retired
  · rw [State.inService, endRecovery_arr]
    exact out

/-- A lasting array fault takes the lowest spare array (R409). -/
theorem faultRecovery_of_array {p : Nat} {ps : List Nat} (up : s.up = true) (queue : s.flt.queue = d :: rest)
    (ready : s.recoveryReady d = true)
    (lasts : s.worn d.part = true ∨ ∃ x, (retried s d ups).2 = some x ∧ x.check = d.check ∧ x.part = d.part)
    (array : d.partKind = .array) (used : s.groupsAt (s.primaryOf d.pos) ≠ []) (held : s.flt.lostItems = [])
    (spares : s.arr.spares = p :: ps) (position : d.pos < 32) (length : s.arr.map.length = 32) (serves : s.physOf d.pos < 34) :
    ∃ t e, exec (.faultRecovery ups [] tw) s = .next t ∧
      OnlyChanges [.sel, .img, .acc, .arr, .grp, .tally, .gait, .flt, .pins, .out] s t ∧ t.flt.queue = rest ∧
      t.flt.lasting = min (s.flt.lasting + 1) 65535 ∧ t.flt.log.getLast? = some e ∧ e.event = 0x12 ∧ e.cls = 3 ∧ e.rung = 3 ∧
      e.array = d.pos ∧ e.phys = p ∧ e.detail = t.arr.spares.length ∧
      t.physOf d.pos = p ∧ bitOf t.arr.retired.toNat (s.physOf d.pos) = true ∧
      ∀ q, q < 32 → q ≠ d.pos → t.physOf q = s.physOf q := by
  have run := exec_faultRecovery (ups := ups) (bad := []) (tw := tw) up queue ready
  have holds : s.needsLost d = none := by
    rw [State.needsLost, show d.item = none by rw [Detected.item, array]]
  obtain ⟨u, start, classified⟩ := classify_of_lasting (bad := []) (tw := tw) holds lasts
  obtain ⟨frame, same, flt⟩ := classified_start start
  have duties : duty (lasting u d) = duty s := lasting_duty.trans same
  obtain ⟨count, kept, -⟩ := lasting_flt (d := d) u
  rw [flt] at count kept
  have rung : (lasting u d).ladder [] tw d = (lasting u d).remountOnto d.pos p d := by
    refine ladder_of_array ?_ array ((congrArg (fun x => x.2.2) kept).trans held)
      ((spares_of_seating (congrArg Prod.snd duties)).trans spares)
    rwa [groupsAt_of_duty duties, primaryOf_of_duty duties]
  rw [classified, rung] at run
  obtain ⟨counted, keeps, last⟩ := remountOnto_flt (s := lasting u d) (d := d) (pos := d.pos) (p := p)
  obtain ⟨seats, arr⟩ := remountOnto_seating (s := lasting u d) (d := d) (pos := d.pos) (p := p)
  obtain ⟨map, -, retired⟩ : (lasting u d).arr.map = s.arr.map ∧ (lasting u d).arr.out = s.arr.out ∧
      (lasting u d).arr.retired = s.arr.retired := by
    simpa only [duty, seating, Prod.mk.injEq] using (congrArg Prod.snd duties)
  rw [map, retired] at seats
  simp only [seating, Prod.mk.injEq] at seats
  obtain ⟨newMap, -, newRetired⟩ := seats
  have before : ((lasting u d).remountOnto d.pos p d).flt.queue = d :: rest :=
    (congrArg Prod.fst (keeps.trans kept)).trans queue
  refine ⟨_, entryOf (lasting u d) evRemount clsAction 3 { d with pos := d.pos, phys := p }
    ((lasting u d).mapOnto d.pos p).arr.spares.length, run, ?_, recovered_queue before, ?_, ?_,
    rfl, rfl, rfl, rfl, rfl, ?_, ?_, ?_, ?_⟩
  · refine State.endRecovery_frame _ _ ?_ (by decide) (by decide)
    refine State.remountOnto_frame _ _ _ _ ?_ (by decide) (by decide) (by decide) (by decide) (by decide) (by decide)
    refine OnlyChanges.trans (onlyChanges_mono (by decide) frame) ?_
    exact onlyChanges_mono (by decide) lasting_frame
  · rw [endRecovery_flt]
    exact counted.trans count
  · rw [endRecovery_flt]
    exact last
  · rw [endRecovery_arr, arr]
    rfl
  · rw [State.physOf, endRecovery_arr, newMap]
    simp [List.getD_eq_getElem?_getD, length, position]
  · rw [endRecovery_arr, newRetired]
    exact bitOf_or_self serves
  · intro q inRange other
    rw [State.physOf, endRecovery_arr, newMap, State.physOf]
    simp [List.getD_eq_getElem?_getD, List.getElem?_set_ne (Ne.symm other)]

end

/-- Settles O55: an error is transient or lasting by its retry, and a lasting one takes the rung of its part. -/
theorem faultRecovery : Obligations.FaultRecovery := by
  refine ⟨fun ups bad tw s => exec_faultRecovery_of_waiting, ?classified, ?item⟩
  case item =>
    intro d i s item
    have written : s.rewritePart d = s.restoreItem d.pos d.phys i := by rw [State.rewritePart, item]
    refine ⟨written, fun idle => ?_⟩
    rw [written, State.retry, idle, item]
    show Option.map _ (Option.filter (fun i => !(s.restoreItem d.pos d.phys i).itemOk d.pos d.phys i) (some i)) = _
    by_cases ok : (s.restoreItem d.pos d.phys i).itemOk d.pos d.phys i = true <;> simp [ok]
  case classified =>
    intro ups bad tw d rest s up queue ready r
    refine ⟨fun e fresh holds answer other => ?_, faultRecovery_of_unused up queue ready,
      fun p ps lasts clean array used held spares position length serves => ?_⟩
    · subst answer
      exact faultRecovery_of_transient up queue ready fresh holds other
    · subst clean
      exact faultRecovery_of_array up queue ready lasts array used held spares position length serves

end Sys2Proof.Recoveries
end

section
/-! PROOFS. Sags, warm requests and starts (R436 to R445, R447, R459): what begins a save, and what a start restores. -/

-- Each theorem is checked before the next one, which bounds the threads that the compiler takes.
set_option Elab.async false

namespace Sys2Proof.Startup
open Sys2Proof Sys2Proof.Machine Sys2Proof.Safety Sys2Proof.Laws Sys2Proof.SaveEnd Sys2Proof.Resting
open Sys2Proof.Answering (exec_answers onlyChanges_mono)

section
variable {s : State} {source : SagSource} {mv : Nat}

/-! ## A save begins -/

/-- In a sag save, and in reset, SFD_FAULT_N is released, unless EXTEST drives it (R438). -/
theorem refreshFault_released (released : s.pwr.released = true) (own : s.tap.selected ≠ tapExtest) : s.refreshFault.pins.faultN = true
    := by
  rw [State.refreshFault, if_neg own]
  show (s.pwr.released || _) = true
  rw [released, Bool.true_or]

theorem refreshFault_sagN (s : State) : s.refreshFault.pins.sagN = s.pins.sagN := by
  unfold State.refreshFault
  split <;> rfl

theorem beginSave_frame (s : State) (code : Nat) (warm : Bool) : OnlyChanges [.pwr, .bag, .pins] s (s.beginSave code warm) :=
  State.refreshFault_frame _ rfl (by decide)

theorem beginSave_bag (s : State) (code : Nat) (warm : Bool) :
    (s.beginSave code warm).bag = { s.bag with save := none, sealed := false, begun := true } := by
  unfold State.beginSave State.refreshFault
  split <;> rfl

theorem sagged_frame : OnlyChanges [.pwr, .pins] s (sagged s source mv) := by
  cases source <;> rfl

/-- What a sag leaves of the supplies. -/
theorem sagged_pwr : (sagged s source mv).pwr = { s.pwr with
    vddMv := (sagged s source mv).pwr.vddMv
    vddmMv := (sagged s source mv).pwr.vddmMv
    vppMv := (sagged s source mv).pwr.vppMv
    vddmKept := (sagged s source mv).pwr.vddmKept } := by
  cases source <;> rfl

theorem sagged_sagN : (sagged s source mv).pins.sagN = (s.pins.sagN && source != .sagN) := by
  cases source <;> rfl

/-- A sag during a save: a warm save goes on as a sag save (R447). -/
def sagInSave (s : State) (source : SagSource) (mv : Nat) : State :=
  if s.pwr.warm then
    ({ sagged s source mv with pwr := { (sagged s source mv).pwr with sagSrc := sagCode source, warm := false } } : State).refreshFault
  else sagged s source mv

theorem exec_sag_of_saving (trips : s.sagTrips source mv = true) (saving : s.pwr.phase = .saving) :
    exec (.sag source mv) s = .next (sagInSave s source mv) := by
  refine congrArg Host.Outcome.next ((if_neg (by simp [trips])).trans ?_)
  rw [saving]
  rfl

theorem exec_sag_of_reset (trips : s.sagTrips source mv = true) (reset : s.pwr.phase = .inReset) :
    exec (.sag source mv) s = .next (sagged s source mv) := by
  refine congrArg Host.Outcome.next ((if_neg (by simp [trips])).trans ?_)
  rw [reset]
  rfl

theorem sagInSave_frame : OnlyChanges [.pwr, .pins] s (sagInSave s source mv) := by
  unfold sagInSave
  split
  · refine State.refreshFault_frame _ ?_ (by decide)
    exact OnlyChanges.trans sagged_frame rfl
  · exact sagged_frame

theorem sagInSave_pwr (saving : s.pwr.phase = .saving) : (sagInSave s source mv).pwr.phase = .saving ∧
    (sagInSave s source mv).pwr.warm = false ∧
    (sagInSave s source mv).pwr.sagSrc = (if s.pwr.warm then sagCode source else s.pwr.sagSrc) := by
  have levels := sagged_pwr (s := s) (source := source) (mv := mv)
  have phase : (sagged s source mv).pwr.phase = .saving := by rw [levels]; exact saving
  unfold sagInSave
  by_cases warm : s.pwr.warm = true
  · rw [if_pos warm, if_pos warm, refreshFault_pwr]
    exact ⟨phase, rfl, rfl⟩
  · rw [if_neg warm, if_neg warm]
    refine ⟨phase, ?_, ?_⟩
    · rw [levels]
      exact Bool.eq_false_iff.mpr warm
    · rw [levels]

/-! ## VHOLD (R439) -/

theorem refreshHeld_of_low (low : s.pwr.vholdMv < 3200) : s.refreshHeld.pwr.accHeld = true := by
  have held : s.vholdOk = false := by simpa [State.vholdOk] using low
  unfold State.refreshHeld
  simp only [held, Bool.not_false, Bool.true_or, Bool.true_and]
  split
  · rw [notifyIf_pwr]
  · rfl

theorem refreshHeld_of_good (good : 3200 ≤ s.pwr.vholdMv) (empty : s.ing.window = []) :
    s.refreshHeld = { s with pwr := { s.pwr with accHeld := false } } := by
  have held : s.vholdOk = true := by simpa [State.vholdOk] using good
  unfold State.refreshHeld
  simp [held, empty]

theorem refreshHeld_frame (s : State) : OnlyChanges [.pwr, .out] s s.refreshHeld :=
  State.refreshHeld_frame _ (OnlyChanges.refl _ s) (by decide) (by decide)

theorem exec_vholdLow (s : State) (mv : Nat) : exec (.vholdLow mv) s =
    .next (if s.up then ({ s with pwr := { s.pwr with vholdMv := mv } } : State).refreshHeld else { s with pwr := { s.pwr with vholdMv :=
        mv } }) := rfl

/-! ## The start (R444) -/

/-- A start announces itself with the pins as R438 has them. -/
theorem announceStart_eq (good : 3200 ≤ s.pwr.vholdMv) (empty : s.ing.window = []) (running : s.pwr.phase = .running)
    (own : s.tap.selected ≠ tapExtest) : s.announceStart = { s with
      pins := { s.pins with faultN := !s.faultAsserted }
      pwr := { s.pwr with accHeld := false }
      out := s.out ++ [.ready, .notify 68] } := by
  have released : s.pwr.released = false := by rw [Power.released, running]; rfl
  have pins : s.refreshFault = { s with pins := { s.pins with faultN := !s.faultAsserted } } := by
    rw [State.refreshFault, if_neg own, released, Bool.false_or]
  rw [State.announceStart, pins, refreshHeld_of_good (s := { s with pins := { s.pins with faultN := !s.faultAsserted } }) good empty]
  simp only [State.send, List.append_assoc, List.singleton_append]

variable {vdd vddm vpp v : Nat} {ok : Bool}

theorem started_eq : started vdd vddm vpp v ok s = { startedFrom s ok with
    tele := if (startedFrom s ok).pwr.cause = 2 then (startedFrom s ok).tele else (startedFrom s ok).tele.lost
    bag := { (startedFrom s ok).bag with begun := false }
    pwr := (startedFrom s ok).pwr.rails vdd vddm vpp v } := by
  unfold started
  dsimp only
  split <;> rfl

/-- What every start has, whether or not it restores a save. -/
structure Begun (s u : State) : Prop where
  window : u.ing.window = []
  phase : u.pwr.phase = .running
  tap : u.tap.selected ≠ tapExtest
  bag : u.bag = { s.bag with consumed := true }
  out : u.out = s.out
  rings : u.live.rings = Staged.reset.rings
  mem : u.mem = []
  map : u.arr.map = s.arr.map
  retired : u.arr.retired = s.arr.retired
  marks : u.arr.out = s.arr.out
  log : u.flt.log = s.flt.log
  grp : u.grp = Groups.reset
  gait : u.gait = GaitState.reset
  pins : u.pins = { s.pins.idle with sagN := true }

theorem cold_tap (s : State) : s.cold.tap.selected ≠ tapExtest := by
  show (if s.tap.selected = tapExtest then s.tap.bypassed else s.tap).selected ≠ tapExtest
  split
  · exact (by decide : (0 : Nat) ≠ tapExtest)
  · assumption

theorem startedFrom_begun : Begun s (startedFrom s ok) := by
  unfold startedFrom
  split
  · exact ⟨rfl, rfl, cold_tap s, rfl, rfl, rfl, rfl, rfl, rfl, rfl, rfl, rfl, rfl, rfl⟩
  · exact ⟨rfl, rfl, cold_tap s, rfl, rfl, rfl, rfl, rfl, rfl, rfl, rfl, rfl, rfl, rfl⟩

/-- The state that a start on good rails leaves. -/
theorem exec_powerOn_eq (reset : s.pwr.phase = .inReset) (h1 : 500 ≤ vdd) (h2 : 770 ≤ vddm) (h3 : 1710 ≤ vpp) (h4 : 3200 ≤ v) :
    exec (.powerOn vdd vddm vpp v ok) s = .next { started vdd vddm vpp v ok s with
      pins := { (started vdd vddm vpp v ok s).pins with faultN := !(started vdd vddm vpp v ok s).faultAsserted }
      pwr := { (started vdd vddm vpp v ok s).pwr with accHeld := false }
      out := (started vdd vddm vpp v ok s).out ++ [.ready, .notify 68] } := by
  obtain ⟨window, phase, tap, -⟩ := startedFrom_begun (s := s) (ok := ok)
  have stands : 3200 ≤ (started vdd vddm vpp v ok s).pwr.vholdMv ∧ (started vdd vddm vpp v ok s).ing.window = [] ∧
      (started vdd vddm vpp v ok s).pwr.phase = .running ∧ (started vdd vddm vpp v ok s).tap.selected ≠ tapExtest := by
    rw [started_eq]
    exact ⟨h4, window, phase, tap⟩
  obtain ⟨good, empty, running, own⟩ := stands
  rw [exec_powerOn_of_good ok reset (railsGood_iff.mpr ⟨h1, h2, h3, h4⟩), announceStart_eq good empty running own]

theorem ring_off {u : Staged} (rings : u.rings = Staged.reset.rings) (r : Nat) : (u.ring r).en = false := by
  have off : ∀ x ∈ Staged.reset.rings, x.en = false := by decide
  rw [Staged.ring, rings, List.getD_eq_getElem?_getD]
  rcases found : Staged.reset.rings[r]? with - | x
  · rfl
  · exact off x (List.mem_of_getElem? found)

theorem valid_of_save {b : Saddlebag} {sv : Save} (save : b.save = some sv) (sealed : b.sealed = true) (fresh : b.consumed = false) :
    b.valid true = some sv := by
  simp [Saddlebag.valid, save, sealed, fresh]

theorem valid_of_none {b : Saddlebag} (none : b.save = none ∨ b.sealed = false ∨ b.consumed = true ∨ ok = false) :
    b.valid ok = Option.none := by
  rcases none with save | unsealed | consumed | wrong
  · simp [Saddlebag.valid, save]
  · simp [Saddlebag.valid, unsealed]
  · simp [Saddlebag.valid, consumed]
  · simp [Saddlebag.valid, wrong]

theorem restore_heads_length {sv : Save} {kept : Bool} : (s.restore sv kept).acc.heads.length = sv.heads.length := by
  cases kept
  · exact List.length_map _
  · rfl

theorem restored_tiles {sv : Save} (t : Tally) : (t.restored sv true).tiles = sv.tiles.filter (fun x => x.2 != Tile.reset) := by
  simp [Tally.restored]

theorem restored_unkept {sv : Save} {n : Nat} (t : Tally) (inRange : n < 1024) (lost : n ∉ sv.durable) :
    n ∈ (t.restored sv false).unkept := by
  simp [Tally.restored, inRange, lost]

end

/-- Settles O59, command by command: a start restores the save that is valid, or none. -/
theorem starts : Obligations.Starts := by
  refine ⟨fun source mv s trips => ⟨fun running => ?sag, fun saving => ?again, fun reset => ?idle⟩, fun s running => ?warm,
    fun kept s reset => ?package, fun mv s => ?vhold, fun vdd vddm vpp v ok s reset h1 h2 h3 h4 => ?powerOn⟩
  case sag =>
    refine ⟨_, exec_sag_of_running trips running, ?_, by rw [beginSave_pwr], by rw [beginSave_pwr], by rw [beginSave_pwr], ?_, fun own =>
        ?_, ?_⟩
    · exact OnlyChanges.trans (onlyChanges_mono (by decide) sagged_frame) (beginSave_frame _ _ _)
    · rw [beginSave_bag]
      cases source <;> rfl
    · exact refreshFault_released rfl (by cases source <;> exact own)
    · exact (refreshFault_sagN _).trans sagged_sagN
  case again => exact ⟨_, exec_sag_of_saving trips saving, sagInSave_frame, sagInSave_pwr saving⟩
  case idle => exact ⟨_, exec_sag_of_reset trips reset, sagged_frame, sagged_pwr⟩
  case warm =>
    have up : s.up = true := by rw [State.up, running]; rfl
    exact ⟨_, congrArg Host.Outcome.next (if_pos up), beginSave_frame _ _ _, by rw [beginSave_pwr], by rw [beginSave_pwr],
      beginSave_bag _ _ _⟩
  case package =>
    refine congrArg Host.Outcome.next ?_
    cases kept
    · exact (if_pos ⟨reset, rfl⟩).trans (by rw [Bool.and_false])
    · exact (if_neg (by simp)).trans (by rw [Bool.and_true])
  case vhold =>
    rw [exec_vholdLow]
    by_cases up : s.up = true
    · rw [if_pos up]
      refine ⟨_, rfl, OnlyChanges.trans rfl (refreshHeld_frame _), refreshHeld_pwr _, fun _ low => refreshHeld_of_low low,
        fun _ good empty => ?_⟩
      exact congrArg (fun u : State => u.pwr.accHeld) (refreshHeld_of_good (s := { s with pwr := { s.pwr with vholdMv := mv } }) good
          empty)
    · rw [if_neg up]
      exact ⟨_, rfl, rfl, rfl, fun running => absurd running up, fun running => absurd running up⟩
  case powerOn =>
    have run := exec_powerOn_eq (ok := ok) reset h1 h2 h3 h4
    obtain ⟨-, phase, tap, bag, out, rings, mem, map, retired, marks, log, grp, gait, pins⟩ := startedFrom_begun (s := s) (ok := ok)
    rw [started_eq] at run
    refine ⟨_, run, ?_, phase, rfl, rfl, rfl, rfl, ?_, ?_, ring_off rings, mem, map, retired, marks, log, grp, gait, tap, ?_, ?_, ?_⟩
    · obtain ⟨u, answer, frame⟩ := exec_answers (.powerOn vdd vddm vpp v ok) s
      rw [run] at answer
      exact Host.Outcome.next.inj answer ▸ frame
    · show { (startedFrom s ok).bag with begun := false } = _
      rw [bag]
    · exact congrArg (· ++ _) out
    · exact congrArg (fun p : Pins => { p with faultN := !(startedFrom s ok).faultAsserted }) pins
    · intro sv save sealed fresh good kept
      subst good
      have from_ : startedFrom s true = s.restore sv kept := by
        rw [startedFrom, valid_of_save save sealed fresh]
      simp only [from_]
      clear_value kept
      refine ⟨rfl, rfl, restore_heads_length (s := s), rfl, rfl, rfl, restore_heads_length (s := s), rfl, rfl, rfl, rfl, rfl, rfl, fun
          whole => ?_, fun lost => ?_⟩
      · subst whole
        exact ⟨rfl, rfl, restored_tiles s.tally⟩
      · subst lost
        exact ⟨rfl, fun n => restored_unkept s.tally⟩
    · intro none
      have from_ := startedFrom.eq_def s ok
      rw [valid_of_none none] at from_
      simp only [from_]
      exact ⟨rfl, rfl, rfl, rfl, rfl, rfl, rfl⟩

end Sys2Proof.Startup
end

section
/-! PROOFS. The invalidate step of an entity job (O42) fails as stated: a key that is placed behind a full bucket can come to stand
before a copy of itself which no lookup reached until then. -/

-- Each theorem is checked before the next one, which bounds the threads that the compiler takes.
set_option Elab.async false

namespace Sys2Proof.Placing
open Sys2Proof Sys2Proof.Machine Sys2Proof.Safety Sys2Proof.Laws Sys2Proof.PartsKept
open Sys2Proof.Keeping (pointed applyUpdate_of_new)

/-! ## The write step and the row cache -/

section
variable {s : State}

theorem entWrite_ent {a : Nat} {bs : List Byte} : (s.entWrite a bs).ent = s.ent := by
  unfold State.entWrite
  dsimp only
  rw [ent_eq_of_onlyChanges (State.shelterWrite_frame (fs := [.mem]) _ _ _ _ _ (OnlyChanges.refl _ _) (by decide)) (by decide)]

/-- The parts of the entity table that stand on the die alone: the row cache and the stranded keys. -/
def onDie (e : Entities) : List CachedRow × List EntityEntry := (e.cache, e.stranded)

theorem writeMirror_onDie {i : Nat} : onDie (s.writeMirror i).ent = onDie s.ent := by
  simp only [State.writeMirror, entWrite_ent]

theorem writeBucket_onDie {j : Nat} : onDie (s.writeBucket j).ent = onDie s.ent := by
  rw [State.writeBucket, entWrite_ent]
  rfl

theorem writeMirrors_onDie (xs : List Nat) : onDie (xs.foldl (fun (t : State) i => t.writeMirror i) s).ent = onDie s.ent := by
  induction xs generalizing s with
  | nil => rfl
  | cons x xs ih => rw [List.foldl_cons, ih, writeMirror_onDie]

theorem writeBuckets_onDie (xs : List Nat) : onDie (xs.foldl (fun (t : State) j => t.writeBucket j) s).ent = onDie s.ent := by
  induction xs generalizing s with
  | nil => rfl
  | cons x xs ih => rw [List.foldl_cons, ih, writeBucket_onDie]

/-- The places of a key are written through entry by entry, and then bucket by bucket. -/
theorem writeKey_eq (before : Entities) (k : Word) : ∃ xs ys : List Nat,
    s.writeKey before k = ys.foldl (fun (t : State) j => t.writeBucket j) (xs.foldl (fun (t : State) i => t.writeMirror i) s) ∧
    (∀ i ∈ xs, ∃ e x, (e = before ∨ e = s.ent) ∧ e.lookup s.live.ovfBits k = .found (.index i) x) ∧
    ∀ j ∈ ys, s.live.ovfBits ≠ 0 ∧ j ∈ probe k s.live.ovfBits := by
  unfold State.writeKey
  extract_lets b places s1
  have place : ∀ e i, i ∈ places e → ∃ x, e.lookup b k = .found (.index i) x := by
    intro e i listed
    dsimp only [places] at listed
    split at listed
    · next found =>
      obtain rfl := List.mem_singleton.mp listed
      exact ⟨_, found⟩
    · cases listed
  have all : ∀ i ∈ places before ++ places s.ent, ∃ e x, (e = before ∨ e = s.ent) ∧ e.lookup b k = .found (.index i) x := by
    intro i listed
    rcases List.mem_append.mp listed with here | here
    · exact ⟨before, (place _ _ here).choose, .inl rfl, (place _ _ here).choose_spec⟩
    · exact ⟨s.ent, (place _ _ here).choose, .inr rfl, (place _ _ here).choose_spec⟩
  split
  · exact ⟨_, [], rfl, all, fun j listed => absurd listed List.not_mem_nil⟩
  · next some_ => exact ⟨_, _, rfl, all, fun j listed => ⟨some_, List.mem_of_mem_filter listed⟩⟩

theorem writeKey_onDie {before : Entities} {k : Word} : onDie (s.writeKey before k).ent = onDie s.ent := by
  obtain ⟨xs, ys, written, -⟩ := writeKey_eq (s := s) before k
  rw [written, writeBuckets_onDie, writeMirrors_onDie]

theorem writeFreeBit_onDie {r : Nat} {used : Bool} : onDie (s.writeFreeBit r used).ent = onDie s.ent := by
  rw [State.writeFreeBit, entWrite_ent]

theorem forgetLost_onDie {e : Entities} {u : UpdateEntry} : onDie (e.forgetLost u) = onDie e := by
  unfold Entities.forgetLost
  split <;> rfl

theorem dropCached_onDie {k : Word} : onDie (s.dropCached k).ent = ((onDie s.ent).1.filter (fun c => c.key != k), (onDie s.ent).2) := rfl

/-- A key that the table marks LOST has no cached row (R226). -/
theorem pointed_of_lost {e : Entities} {u : UpdateEntry} {r : Nat} {p : KeyPlace} {x : EntityEntry}
    (found : e.lookup s.live.ovfBits u.key = .found p x) (lost : x.lost = true) :
    onDie (pointed s e u r).ent = (e.cache.filter (fun c => c.key != u.key), e.stranded) := by
  have dropped : pointed s e u r =
      ((({ s with ent := e.forgetLost u } : State).writeKey s.ent u.key).writeFreeBit r true).dropCached u.key := by
    unfold pointed
    simp only [found, lost, if_true]
  rw [dropped, dropCached_onDie, writeFreeBit_onDie, writeKey_onDie, forgetLost_onDie, onDie]

theorem unstrand_of_none (none : s.ent.stranded = []) : s.unstrand = s := by
  unfold State.unstrand
  rw [none]
  rfl

/-- An update of one entry leaves the row cache as its write step does. -/
theorem finishUpdate_cache {id r : Nat} {u : UpdateEntry} (none : (s.applyUpdate u r).ent.stranded = []) :
    (s.finishUpdate ⟨id, false, [u], [r], 1⟩).ent.cache = (s.applyUpdate u r).ent.cache := by
  have finished : ∀ t : State, (t.finishJob id stJobOk 1 0).refreshHeld.ent = t.ent := by
    intro t
    refine ent_eq_of_onlyChanges (fs := [.gait, .jobs, .led, .mem, .out, .rings, .pwr]) ?_ (by decide)
    apply State.refreshHeld_frame
    apply State.finishJob_frame
    exact OnlyChanges.refl _ _
    all_goals decide
  unfold State.finishUpdate
  simp only [List.zip_cons_cons, List.zip_nil_right, List.foldl_cons, List.foldl_nil, List.length_cons, List.length_nil, Nat.zero_add,
      finished]
  rw [unstrand_of_none none]

end

/-! ## A key behind a full bucket -/

/-- An update of key 1 to the overflow table. -/
def update : UpdateEntry where
  key := 1
  place := 1
  masked := false
  reserved := false
  fmask := 0
  fmaskX := 0
  row := EntityRow.missing

/-- The update's job. -/
def job : Job where
  id := 0
  ring := 0
  op := opEntUpdate
  tag := 0
  desc := 0#512
  slot := 0
  n := 0
  model := none
  groups := []
  tile := 0
  tiles := 0
  stride := 0
  add := false
  k := 0
  stream := 0
  first := 0
  next := 0
  committed := 0
  voided := 0
  costRec := 0
  costLeft := 0
  voidGroups := []
  routeGone := none
  special := []
  owed := []
  begun := true
  acked := 0
  owns := false
  written := false
  ended := false
  status := 0
  done := 0
  detail := 0

/-- An overflow table of two buckets. The home bucket of key 1 is full and has passed no key on, so that no lookup of key 1 goes
beyond it; the other bucket holds key 1 with its LOST mark. -/
def table : Entities :=
  { Entities.reset with
    overflow :=
      [(0, ⟨0, [(0, ⟨1, 0, true, false⟩)], false⟩),
        (1, ⟨0, (List.range 10).map (fun i => (i, ⟨BitVec.ofNat 64 (i + 2), 0, false, false⟩)), false⟩)]
    job := some ⟨0, false, [update], [0], 1⟩ }

/-- A running engine with a module up, at the write step of the update. -/
def due : State :=
  { State.reset with
    pwr := { Power.reset with phase := .running }
    link := [{ LinkModule.reset with state := 2 }, LinkModule.reset]
    live := { Staged.reset with entCfg := 0x800000 }
    jobs := { Jobs.reset with jobs := [job], nextId := 1 }
    ent := table }

/-- The table with key 1 placed behind its full bucket (R204). -/
def placed : Entities := (table.place 1 1 ⟨1, 0, false, false⟩).getD table

theorem table_lookup : table.lookup 1 1 = .absent := by decide

theorem placed_lookup : placed.lookup 1 1 = .found (.overflow 0 0) ⟨1, 0, true, false⟩ := by decide

theorem due_ok : StoresOk due := by
  refine ⟨rfl, rfl, rfl, rfl, List.Pairwise.nil, ?_, ?_, List.Pairwise.nil, ?_⟩
  · intro x listed
    cases listed
  · have rows : ∀ r ∈ due.ent.usedRows, r < 256 := by decide
    exact fun r used => Nat.lt_of_lt_of_le (rows r used) (Nat.le_add_left _ _)
  · intro sv saved
    cases saved

theorem due_job : due.job 0 = some job := rfl

theorem due_boundaryReached : due.boundaryReached job = true := by
  have unbound : descBound job.desc = false := by
    show Nat.testBit (0#512).toNat 137 = false
    rw [BitVec.toNat_zero, Nat.zero_testBit]
  rw [State.boundaryReached, unbound]
  rfl

theorem due_lookup : due.ent.lookup due.live.ovfBits update.key = .absent := by decide

theorem due_new (p : KeyPlace) (x : EntityEntry) : due.ent.lookup due.live.ovfBits update.key ≠ .found p x := by
  rw [due_lookup]
  exact Lookup.noConfusion

theorem due_room : due.ent.cache.length < 7680 := Nat.zero_lt_succ 7679

theorem due_checkKeys : due.checkKeys [update] false = due := by
  simp only [State.checkKeys, List.foldl_cons, List.foldl_nil, State.checkParity, due_lookup]

theorem exec_entityInvalidate_due : exec (.entityInvalidate 0 false) due = .next (due.finishUpdate ⟨0, false, [update], [0], 1⟩) := by
  have up : due.memUp = true := by decide
  show execEntityInvalidate 0 false due = _
  unfold execEntityInvalidate
  rw [due_job, show due.ent.job = some ⟨0, false, [update], [0], 1⟩ from rfl]
  simp [up, due_boundaryReached, due_checkKeys]

theorem due_place : (due.ent.place due.live.ovfBits update.place ⟨update.key, 0, false, false⟩).getD due.ent = placed := by
  have bits : due.live.ovfBits = 1 := by decide
  rw [bits]
  rfl

/-- The write step leaves no copy of the new row: key 1 is found where it stood before, with its LOST mark. -/
theorem applyUpdate_due : onDie (due.applyUpdate update 0).ent = ([], []) := by
  rw [applyUpdate_of_new due_new, due_place, pointed_of_lost (x := ⟨1, 0, true, false⟩) placed_lookup rfl]
  rfl

theorem due_cached : (due.applyUpdate update 0).ent.cache = [] := (Prod.mk.inj applyUpdate_due).1

theorem due_stranded : (due.applyUpdate update 0).ent.stranded = [] := (Prod.mk.inj applyUpdate_due).2

/-- Refutes O42: the new row of key 1 is not cached, for its lookup finds the copy that is marked LOST. -/
theorem not_entityInvalidate : ¬ Obligations.EntityInvalidate := by
  unfold Obligations.EntityInvalidate
  intro h
  obtain ⟨_, _, updates, _⟩ := h
  obtain ⟨_, _, _, cached⟩ := updates 0 0 false update job due _ (by decide) due_ok rfl due_job due_boundaryReached rfl
    (fun i x found => absurd found (due_new _ x)) exec_entityInvalidate_due
  have row := cached due_room (fun p x found => absurd found (due_new p x))
  rw [finishUpdate_cache due_stranded, due_cached] at row
  cases row

end Sys2Proof.Placing
end

section
/-! PROOFS. Writes into the entity region (R200 to R202, R221, R225): where its entries, buckets and rows stand, and that no other byte
of memory changes. -/

-- Each theorem is checked before the next one, which bounds the threads that the compiler takes.
set_option Elab.async false

namespace Sys2Proof.EntityRegion
open Sys2Proof Sys2Proof.Machine Sys2Proof.Safety Sys2Proof.Laws Sys2Proof.PartsKept Sys2Proof.KeptStores
open Sys2Proof.JobEntries (live_eq_of_onlyChanges leBytes_length)
open Sys2Proof.InOrder (mem_eq_of_onlyChanges)
open Sys2Proof.Placing (entWrite_ent writeKey_eq)

/-! ## The writes of the entity region -/

theorem pageHome_of_pages {s t : State} (live : t.live = s.live) (pages : t.flt.pages = s.flt.pages) (base size page : Nat) :
    t.pageHome base size page = s.pageHome base size page := by
  simp only [State.pageHome, live, pages]

/-- A state after writes of the entity region: no byte has changed outside of it, its spare pages and their check bytes. -/
structure EntityWrites (s0 s : State) : Prop where
  live : s.live = s0.live
  pages : s.flt.pages = s0.flt.pages
  wf : Memory.wf s.mem = true
  ent : EntOk (s0.live.entRows + 256) s.ent
  kept : ∀ c, OffEntities s0 c → memByte s.mem c = memByte s0.mem c

theorem EntityWrites.refl {s : State} (wf : Memory.wf s.mem = true) (ok : StoresOk s) : EntityWrites s s :=
  ⟨rfl, rfl, wf, ((storesOk_iff s).mp ok).2.1, fun _ _ => rfl⟩

section
variable {s0 s t : State} {a : Nat} {bs : List Byte} {k : Word}

/-- A step that writes no memory. -/
theorem EntityWrites.moves (h : EntityWrites s0 s) (live : t.live = s.live) (pages : t.flt.pages = s.flt.pages) (mem : t.mem = s.mem)
    (ent : EntOk (s0.live.entRows + 256) s.ent → EntOk (s0.live.entRows + 256) t.ent) : EntityWrites s0 t :=
  ⟨live.trans h.live, pages.trans h.pages, mem ▸ h.wf, ent h.ent, mem ▸ h.kept⟩

/-- A step of the entity table alone. -/
theorem EntityWrites.table {e : Entities} (h : EntityWrites s0 s)
    (ent : EntOk (s0.live.entRows + 256) s.ent → EntOk (s0.live.entRows + 256) e) : EntityWrites s0 { s with ent := e } :=
  h.moves rfl rfl rfl ent

theorem EntityWrites.foldl {α : Type} {f : State → α → State} (xs : List α) (h : EntityWrites s0 s)
    (step : ∀ t, ∀ x ∈ xs, EntityWrites s0 t → EntityWrites s0 (f t x)) : EntityWrites s0 (xs.foldl f s) :=
  List.foldlRecOn (motive := EntityWrites s0) xs f h fun t kept x listed => step t x listed kept

theorem entWrite_flt_pages : (s.entWrite a bs).flt.pages = s.flt.pages := by
  unfold State.entWrite
  dsimp only
  rw [flt_eq_of_onlyChanges (State.shelterWrite_frame (fs := [.mem]) _ _ _ _ _ (OnlyChanges.refl _ _) (by decide)) (by decide)]

theorem entWrite_live : (s.entWrite a bs).live = s.live := by
  unfold State.entWrite
  dsimp only
  rw [live_eq_of_onlyChanges (State.shelterWrite_frame (fs := [.mem]) _ _ _ _ _ (OnlyChanges.refl _ _) (by decide)) (by decide)]

/-- A write that lies in the entity region. -/
theorem EntityWrites.write (h : EntityWrites s0 s) (some_ : 0 < bs.length) (from_ : s0.live.entAddr ≤ a)
    (below : a + bs.length ≤ s0.live.entAddr + s0.live.entSize) : EntityWrites s0 (s.entWrite a bs) := by
  refine ⟨entWrite_live.trans h.live, entWrite_flt_pages.trans h.pages, ?_, by rw [entWrite_ent]; exact h.ent, fun c off => ?_⟩
  · unfold State.entWrite
    exact shelterWrite_wf _ _ _ _ h.wf
  · unfold State.entWrite
    dsimp only
    rw [shelterWrite_other _ _ _ _ _ (by exact h.wf) some_]
    · exact h.kept c off
    · intro b low high
      have here := off b (by omega) (by omega)
      simpa only [State.pageHome, h.live, h.pages] using here

/-! ## Entries, buckets and rows in the region -/

theorem entryBytes_length (x : Option EntityEntry) : (entryBytes x).length = 12 := by
  unfold entryBytes
  split
  · exact List.length_replicate
  · exact leBytes_length _ _

theorem length_flatMap_of_const {α β : Type} {f : α → List β} {n : Nat} (each : ∀ x, (f x).length = n) (xs : List α) :
    (xs.flatMap f).length = xs.length * n := by
  simp [List.length_flatMap, each]

theorem rowBytes_length (r : Nat) (k : Word) (row : EntityRow) : (rowBytes r k row).length = 640 := by
  simp only [rowBytes, List.length_append, List.length_replicate, leBytes_length]
  rw [length_flatMap_of_const (n := 2) (fun _ => leBytes_length _ _), length_flatMap_of_const (n := 4) (fun _ => leBytes_length _ _)]
  simp

theorem EntityWrites.writeMirror (h : EntityWrites s0 s) {i : Nat} (place : i < 131072) : EntityWrites s0 (s.writeMirror i) := by
  unfold State.writeMirror
  refine h.write ?_ ?_ ?_
  all_goals simp only [List.length_append, entryBytes_length, List.length_replicate, h.live, Staged.entSize]
  all_goals omega

theorem probe_lt {b j : Nat} (listed : j ∈ probe k b) : j < 2 ^ b := by
  obtain ⟨i, -, rfl⟩ := List.mem_map.mp listed
  exact Nat.mod_lt _ (Nat.two_pow_pos b)

theorem EntityWrites.writeBucket (h : EntityWrites s0 s) {j : Nat} (table : s0.live.ovfBits ≠ 0) (place : j < 2 ^ s0.live.ovfBits) :
    EntityWrites s0 (s.writeBucket j) := by
  unfold State.writeBucket
  have given : EntityWrites s0 { s with ent := { s.ent with buckets := s.ent.buckets.filter (· != j) } } :=
    h.table fun ok => { ok with }
  have size : ovfSize s0.live.ovfBits = 2 ^ s0.live.ovfBits * 128 := if_neg table
  refine given.write ?_ ?_ ?_
  all_goals
    simp only [List.length_append, leBytes_length, h.live, Staged.entSize, Staged.bucketAddr, size]
    try rw [length_flatMap_of_const (n := 12) (fun _ => entryBytes_length _)]
    try simp only [List.length_range]
  all_goals omega

theorem EntityWrites.writeKey (h : EntityWrites s0 s) {before : Entities} (ok : EntOk (s0.live.entRows + 256) before) :
    EntityWrites s0 (s.writeKey before k) := by
  obtain ⟨xs, ys, written, places, buckets⟩ := writeKey_eq (s := s) before k
  rw [written]
  refine EntityWrites.foldl _ (EntityWrites.foldl _ h fun t i listed kept => ?_) fun t j listed kept => ?_
  · obtain ⟨e, x, which, found⟩ := places i listed
    refine kept.writeMirror ?_
    rcases which with rfl | rfl
    · exact ok.places _ (lookup_index_mem found)
    · exact h.ent.places _ (lookup_index_mem found)
  · obtain ⟨table, probed⟩ := buckets j listed
    rw [h.live] at table probed
    exact kept.writeBucket table (probe_lt probed)

theorem EntityWrites.writeFreeBit (h : EntityWrites s0 s) {r : Nat} {used : Bool} (place : r < s0.live.entRows + 256) :
    EntityWrites s0 (s.writeFreeBit r used) := by
  have rows : s0.live.entRows < 2 ^ 23 := Nat.mod_lt _ (by decide)
  unfold State.writeFreeBit
  refine h.write ?_ ?_ ?_
  all_goals simp only [List.length_singleton, h.live, Staged.entSize]
  all_goals omega

theorem EntityWrites.writeRow (h : EntityWrites s0 s) {r : Nat} {row : EntityRow} (place : r < s0.live.entRows + 256) :
    EntityWrites s0 (s.entWrite (s.live.rowAddr r) (rowBytes r k row)) := by
  refine h.write ?_ ?_ ?_
  all_goals simp only [rowBytes_length, h.live, Staged.entSize, Staged.rowAddr]
  all_goals omega

/-! ## Parity checks, placements and removals -/

theorem EntityWrites.logEvent (h : EntityWrites s0 s) {ev cls rung detail : Nat} {d : Detected} :
    EntityWrites s0 (s.logEvent ev cls rung d detail) := by
  have frame := State.logEvent_frame (fs := [.flt, .pins, .out]) ev cls rung d detail s (OnlyChanges.refl _ _) (by decide) (by decide)
    (by decide)
  refine h.moves (live_eq_of_onlyChanges frame (by decide)) ?_ (mem_eq_of_onlyChanges frame (by decide)) ?_
  · have side := congrArg Faults.pages (LineReturns.logEvent_portSide s ev cls rung d detail)
    exact side
  · rw [ent_eq_of_onlyChanges frame (by decide)]
    exact id

theorem EntityWrites.moveKey (h : EntityWrites s0 s) {i : Nat} {x : EntityEntry} (listed : (i, x) ∈ s.ent.index) :
    EntityWrites s0 (s.moveKey i x) := by
  unfold State.moveKey
  dsimp only
  have place := h.ent.places _ listed
  have row : x.row < s0.live.entRows + 256 := h.ent.indexRows _ listed
  refine EntityWrites.writeKey (EntityWrites.writeMirror (h.table fun ok => ?_) place) h.ent
  have dropped : EntOk (s0.live.entRows + 256) { s.ent with
      index := sdel s.ent.index i
      retired := insertNat s.ent.retired i
      retirements := satAdd 16 s.ent.retirements 1 } := { ok.dropIndex i with }
  split
  · next put => exact dropped.place (x := { x with bad := false }) row put
  · refine { dropped with strandedRows := fun y hy => ?_ }
    rcases List.mem_append.mp hy with old | new
    · exact dropped.strandedRows y old
    · obtain rfl := List.mem_singleton.mp new
      split <;> exact row

theorem EntityWrites.checkParity (h : EntityWrites s0 s) {again : Bool} : EntityWrites s0 (s.checkParity k again) := by
  unfold State.checkParity
  split
  · next i x found =>
    have listed := lookup_index_mem found
    split
    · unfold State.indexParity
      dsimp only
      split
      · have passed : EntityWrites s0 { s with
            ent := { s.ent with index := sput s.ent.index i { x with bad := false } }
            flt := s.flt.addTrans (indexPart i) } :=
          h.moves rfl rfl rfl fun ok => ok.putIndex (ok.places _ listed) (ok.indexRows _ listed)
        exact passed.logEvent
      · exact (h.moveKey listed).logEvent
    · exact h
  · exact h

theorem EntityWrites.checkKeys (h : EntityWrites s0 s) {es : List UpdateEntry} {again : Bool} : EntityWrites s0 (s.checkKeys es again) :=
  h.foldl _ fun _ _ _ kept => kept.checkParity

end

end Sys2Proof.EntityRegion
end

section
/-! PROOFS. The start of an entity job (R219, R221): it is refused whole, or waits for its write step with its new rows in free places. -/

-- Each theorem is checked before the next one, which bounds the threads that the compiler takes.
set_option Elab.async false

namespace Sys2Proof.EntityStart
open Sys2Proof Sys2Proof.Machine Sys2Proof.Safety Sys2Proof.Laws Sys2Proof.PartsKept Sys2Proof.KeptStores
open Sys2Proof.JobEntries (live_eq_of_onlyChanges jobs_eq_of_onlyChanges finishJob_jobEnds finishJob_onlySlots job_id
    up_eq_of_onlyChanges)
open Sys2Proof.InOrder (mem_eq_of_onlyChanges)
open Sys2Proof.Answering (onlyChanges_mono)
open Sys2Proof.Placing (entWrite_ent)
open Sys2Proof.EntityRegion

/-! ## Row places in use -/

section
variable {n b r : Nat} {e : Entities} {k : Word} {x : EntityEntry} {p : KeyPlace} {used : List Nat}

theorem exists_lowestFree (room : used.length < n) : ∃ r, lowestFree n used = some r := by
  rcases free : lowestFree n used with - | r
  · have all : List.range n ⊆ used := fun i listed => by
      simpa using List.find?_eq_none.mp free i listed
    have short := ((List.nodup_range (n := n)).subperm all).length_le
    rw [List.length_range] at short
    omega
  · exact ⟨r, rfl⟩

theorem lowestFree_not_mem (free : lowestFree n used = some r) : r ∉ used := by
  simpa using List.find?_some free

theorem probeLookup_used {js : List Nat} (found : e.probeLookup k js = .found p x) : x.row ∈ e.usedRows := by
  induction js with
  | nil => cases found
  | cons j js ih =>
    simp only [Entities.probeLookup] at found
    split at found
    · cases found
    · split at found
      · next inBucket =>
        cases found
        have held := List.mem_of_find?_eq_some inBucket
        have listed : sget Bucket.empty e.overflow j ≠ Bucket.empty := fun empty => by
          rw [empty] at held
          exact absurd held List.not_mem_nil
        refine List.mem_append_left _ (List.mem_append_left _ (List.mem_append_right _ ?_))
        exact List.mem_flatMap.mpr ⟨_, mem_of_sget_ne listed, List.mem_map.mpr ⟨_, held, rfl⟩⟩
      · split at found
        · cases found
        · exact ih found

/-- The row place of a key that a lookup finds is in use. -/
theorem lookup_used (found : e.lookup b k = .found p x) : x.row ∈ e.usedRows := by
  unfold Entities.lookup at found
  split at found
  · next inIndex =>
    cases found
    exact List.mem_append_left _ (List.mem_append_left _ (List.mem_append_left _ (List.mem_map.mpr ⟨_, mem_of_index_find? inIndex, rfl⟩)))
  · split at found
    · next inStore =>
      cases found
      exact List.mem_append_left _ (List.mem_append_right _ (List.mem_map.mpr ⟨_, List.mem_of_find?_eq_some inStore, rfl⟩))
    · split at found
      · cases found
      · exact probeLookup_used found

end

/-! ## The new rows of an update (R221) -/

/-- The entity table with a new row of the job in progress. -/
def withRow (e : Entities) (r : Nat) (row : EntityRow) : Entities :=
  { e with
    rows := sset EntityRow.missing e.rows r row
    job := e.job.map (fun (j : EntityJob) => { j with newRows := j.newRows ++ [r] }) }

section
variable {s : State} {u : UpdateEntry} {us : List UpdateEntry} {r : Nat} {row : EntityRow} {j : EntityJob}

theorem usedRows_withRow (running : s.ent.job = some j) : (withRow s.ent r row).usedRows = s.ent.usedRows ++ [r] := by
  simp only [withRow, Entities.usedRows, running, Option.map_some, List.append_assoc]

/-- A state with the new row r of an entry written. -/
def rowWritten (s : State) (u : UpdateEntry) (r : Nat) : State :=
  ({ s with ent := withRow s.ent r (mergeRow u (s.oldRow u.key)) } : State).entWrite (s.live.rowAddr r)
    (rowBytes r u.key (mergeRow u (s.oldRow u.key)))

theorem writeRows_cons (free : lowestFree (s.live.entRows + 256) s.ent.usedRows = some r) :
    s.writeRows (u :: us) = (rowWritten s u r).writeRows us := by
  rw [State.writeRows, free]
  rfl

theorem rowWritten_ent : (rowWritten s u r).ent = withRow s.ent r (mergeRow u (s.oldRow u.key)) := by
  rw [rowWritten, entWrite_ent]

theorem rowWritten_live : (rowWritten s u r).live = s.live := by
  rw [rowWritten, entWrite_live]

/-- A row in a free place leaves every old row as it was. -/
theorem oldRow_of_withRow {t : State} (ok : sparseOk EntityRow.missing s.ent.rows = true) (free : r ∉ s.ent.usedRows)
    (live : t.live = s.live) (ent : t.ent = withRow s.ent r row) (k : Word) : t.oldRow k = s.oldRow k := by
  unfold State.oldRow
  rw [ent, live]
  have same : (withRow s.ent r row).lookup s.live.ovfBits k = s.ent.lookup s.live.ovfBits k := rfl
  rw [same]
  rcases found : s.ent.lookup s.live.ovfBits k with - | ⟨p, x⟩ | -
  · rfl
  · have used := lookup_used found
    exact (sget_sset ok).trans (if_neg fun (own : x.row = r) => free (own ▸ used))
  · rfl

/-- The new rows of a job lie in free places, each with its merged content, and no other row changes. -/
structure RowsWritten (s : State) (us : List UpdateEntry) (t : Entities) (rows : List Nat) (j : EntityJob) : Prop where
  length : rows.length = us.length
  apart : rows.Nodup
  free : ∀ r ∈ rows, r ∉ s.ent.usedRows ∧ r < s.live.entRows + 256
  table : t = { s.ent with job := some { j with newRows := j.newRows ++ rows }, rows := t.rows }
  merged : ∀ (i : Nat) (u : UpdateEntry) (r : Nat), us[i]? = some u → rows[i]? = some r →
    sget EntityRow.missing t.rows r = mergeRow u (s.oldRow u.key)
  others : ∀ r, r ∉ rows → sget EntityRow.missing t.rows r = sget EntityRow.missing s.ent.rows r

theorem writeRows_written (ok : sparseOk EntityRow.missing s.ent.rows = true) (running : s.ent.job = some j)
    (room : s.ent.usedRows.length + us.length ≤ s.live.entRows + 256) :
    ∃ rows, RowsWritten s us (s.writeRows us).ent rows j := by
  induction us generalizing s j with
  | nil =>
    refine ⟨[], rfl, List.nodup_nil, fun _ listed => absurd listed List.not_mem_nil, ?_,
      fun i u r listed => by simp at listed, fun _ _ => rfl⟩
    rw [State.writeRows, List.append_nil, ← running]
  | cons u us ih =>
    obtain ⟨r, free⟩ := exists_lowestFree (n := s.live.entRows + 256) (used := s.ent.usedRows) (by simp at room; omega)
    have unused := lowestFree_not_mem free
    have used : (rowWritten s u r).ent.usedRows = s.ent.usedRows ++ [r] := by rw [rowWritten_ent, usedRows_withRow running]
    have next : (rowWritten s u r).ent.job = some { j with newRows := j.newRows ++ [r] } := by
      rw [rowWritten_ent, withRow, running]
      rfl
    obtain ⟨rows, length, apart, free', table, merged, others⟩ := ih (s := rowWritten s u r)
      (by rw [rowWritten_ent]; exact sparseOk_sset ok) next
      (by rw [used, rowWritten_live, List.length_append]; simp only [List.length_cons, List.length_nil] at room ⊢; omega)
    rw [rowWritten_live, used] at free'
    rw [← writeRows_cons free] at table merged others
    have away : r ∉ rows := fun listed => (free' r listed).1 (List.mem_append_right _ List.mem_cons_self)
    refine ⟨r :: rows, by simp [length], List.nodup_cons.mpr ⟨away, apart⟩, ?_, ?_, ?_, ?_⟩
    · intro q listed
      rcases List.mem_cons.mp listed with rfl | listed
      · exact ⟨unused, lowestFree_lt free⟩
      · exact ⟨fun held => (free' q listed).1 (List.mem_append_left _ held), (free' q listed).2⟩
    · rw [table, rowWritten_ent]
      simp only [withRow, List.append_assoc, List.singleton_append]
    · intro i v q entry place
      cases i with
      | zero =>
        simp only [List.getElem?_cons_zero, Option.some.injEq] at entry place
        subst entry place
        rw [others _ away, rowWritten_ent]
        exact (sget_sset ok).trans (if_pos rfl)
      | succ i =>
        rw [merged i v q (by simpa using entry) (by simpa using place), oldRow_of_withRow ok unused rowWritten_live rowWritten_ent]
    · intro q unlisted
      obtain ⟨other, unlisted⟩ := not_or.mp (List.mem_cons.not.mp unlisted)
      rw [others q unlisted, rowWritten_ent]
      exact (sget_sset ok).trans (if_neg other)

theorem writeRows_writes {s0 : State} (h : EntityWrites s0 s) : EntityWrites s0 (s.writeRows us) := by
  induction us generalizing s with
  | nil => exact h
  | cons u us ih =>
    rcases free : lowestFree (s.live.entRows + 256) s.ent.usedRows with - | r
    · rw [State.writeRows, free]
      exact h
    · rw [writeRows_cons free]
      have place : r < s0.live.entRows + 256 := h.live ▸ lowestFree_lt free
      refine ih (EntityWrites.writeRow (s := { s with ent := withRow s.ent r (mergeRow u (s.oldRow u.key)) }) (h.table fun ok => ?_)
          place)
      refine { ok.setRow r _ with newRows := fun x listed => ?_ }
      obtain ⟨y, old, rfl⟩ := Option.map_eq_some_iff.mp listed
      intro q held
      rcases List.mem_append.mp held with held | held
      · exact ok.newRows y old q held
      · obtain rfl := List.mem_singleton.mp held
        exact place

end

/-! ## The start of an entity job (R219) -/

section
variable {s : State} {c : Instr} {id op : Nat} {again : Bool} {j : Job}

/-- A job of an opcode, begun. -/
def begunJob (s : State) (j : Job) (again : Bool) : State :=
  (s.checkKeys (s.entityEntries j) again).modJob j.id (fun x => { x with begun := true })

theorem waitingJob_some (waits : s.waitingJob id op = some j) : s.job id = some j ∧ j.op = op := by
  unfold State.waitingJob at waits
  split at waits
  · cases waits
  · next found =>
    split at waits
    · next due =>
      cases waits
      exact ⟨found, due.1⟩
    · cases waits

theorem exec_of_waiting (command : (c, op) ∈ [(.entityUpdate id again, 3), (.entityEvict id again, 4)]) (up : s.memUp = true)
    (waits : s.waitingJob id op = some j) : exec c s = .next (s.startEntity j again) := by
  have runs (c' : Instr) (op' : Nat) (waits : s.waitingJob id op' = some j)
      (given : exec c' s = .next (if s.memUp = false then s else match s.waitingJob id op' with
        | none => s
        | some j => s.startEntity j again)) : exec c' s = .next (s.startEntity j again) := by
    rw [given, if_neg (by simp [up]), waits]
  rcases List.mem_cons.mp command with first | second
  · cases first
    exact runs _ _ waits rfl
  · cases List.mem_singleton.mp second
    exact runs _ _ waits rfl

theorem startEntity_of_refused {r : Nat × Nat × Bool} (refused : (begunJob s j again).entityRefusal j (s.entityEntries j) = some r) :
    s.startEntity j again = (begunJob s j again).refuseEntity j r := by
  unfold State.startEntity
  rw [begunJob] at refused ⊢
  simp only [refused]

theorem startEntity_of_passed (passed : (begunJob s j again).entityRefusal j (s.entityEntries j) = none) :
    s.startEntity j again =
      let s1 := { begunJob s j again with
        ent := { (begunJob s j again).ent with job := some ⟨j.id, j.op == opEntEvict, s.entityEntries j, [], 1⟩ } }
      if j.op = opEntEvict then s1 else s1.writeRows (s.entityEntries j) := by
  unfold State.startEntity
  rw [begunJob] at passed ⊢
  simp only [passed]

theorem checkKeys_frame (es : List UpdateEntry) : OnlyChanges [.ent, .flt, .pins, .mem, .out] s (s.checkKeys es again) :=
  State.checkKeys_frame _ _ _ (OnlyChanges.refl _ s) (by decide) (by decide) (by decide) (by decide) (by decide)

theorem checkKeys_of_good {es : List UpdateEntry}
    (good : ∀ e ∈ es, ∀ i x, s.ent.lookup s.live.ovfBits e.key = .found (.index i) x → x.bad = false) : s.checkKeys es again = s := by
  induction es with
  | nil => rfl
  | cons e es ih =>
    have first : s.checkParity e.key again = s := by
      unfold State.checkParity
      split
      · next i x found => rw [good e List.mem_cons_self i x found]; rfl
      · rfl
    have rest := ih fun e' listed => good e' (List.mem_cons_of_mem _ listed)
    rw [State.checkKeys, List.foldl_cons, first]
    exact rest

end

/-- Settles O41: the checks of R219 decide between the job's refusal, its wait, and the write of its rows. -/
theorem entityJobStart : Obligations.EntityJobStart := by
  intro id again c op j s command
  refine ⟨fun down => ?_, fun up wf stores waits => ?_⟩
  · rcases List.mem_cons.mp command with first | second
    · cases first
      exact congrArg Host.Outcome.next (if_pos down)
    · cases List.mem_singleton.mp second
      exact congrArg Host.Outcome.next (if_pos down)
  · obtain ⟨found, own⟩ := waitingJob_some waits
    have run := exec_of_waiting command up waits
    intro es u
    have frame : OnlyChanges [.ent, .flt, .pins, .mem, .out] s u := checkKeys_frame es
    have writes : EntityWrites s u := (EntityWrites.refl wf stores).checkKeys
    have live : u.live = s.live := live_eq_of_onlyChanges frame (by decide)
    have job : u.job j.id = some j := by
      rw [State.job, jobs_eq_of_onlyChanges frame (by decide), job_id found]
      exact found
    have same : (begunJob s j again).entityRefusal j es = u.entityRefusal j es := rfl
    refine ⟨frame, checkKeys_of_good, fun r refused => ?refused, fun passed evict => ?evict, fun passed update room => ?update⟩
    case refused =>
      rw [startEntity_of_refused (same.trans refused)] at run
      have begun : (begunJob s j again).job j.id = some { j with begun := true } := by
        exact Offering.job_modJob (f := fun x => { x with begun := true }) (fun _ => rfl) job
      have ends := finishJob_jobEnds (s := { begunJob s j again with ent := { (begunJob s j again).ent with
          job := none, ovfRefused := if r.2.2 then satAdd 16 u.ent.ovfRefused 1 else u.ent.ovfRefused } })
        (status := r.1) (done := 0) (detail := r.2.1) writes.wf begun
      have slots := finishJob_onlySlots (s := { begunJob s j again with ent := { (begunJob s j again).ent with
          job := none, ovfRefused := if r.2.2 then satAdd 16 u.ent.ovfRefused 1 else u.ent.ovfRefused } })
        (status := r.1) (done := 0) (detail := r.2.1) writes.wf begun
      refine ⟨_, run, ends, ?_, ?_⟩
      · rw [← live]
        exact slots
      · exact ent_eq_of_onlyChanges (JobEntries.finishJob_frame _ _ _ _ _) (by decide)
    case evict =>
      rw [startEntity_of_passed (same.trans passed), if_pos (own.trans evict)] at run
      refine ⟨_, run, rfl, ?_⟩
      rw [own, evict, job_id found]
      rfl
    case update =>
      rw [startEntity_of_passed (same.trans passed), if_neg (by rw [own, update]; decide)] at run
      have ready : EntityWrites s { begunJob s j again with
          ent := { (begunJob s j again).ent with job := some ⟨j.id, j.op == opEntEvict, es, [], 1⟩ } } :=
        writes.moves rfl rfl rfl fun ok => { ok with newRows := fun x listed q held => by cases listed; cases held }
      obtain ⟨rows, length, apart, free, table, merged, others⟩ := writeRows_written ready.ent.rows rfl
        (by rw [ready.live]; exact room)
      refine ⟨_, rows, run, ?_, length, apart, fun r listed => ?_, merged, others, (writeRows_writes ready).kept⟩
      · have evicts : (j.op == opEntEvict) = false := by rw [own, update]; rfl
        refine table.trans ?_
        rw [evicts, job_id found]
        rfl
      · rw [← ready.live]
        exact free r listed

end Sys2Proof.EntityStart
end

section
/-! PROOFS. Patch boundaries (R114, R117, R119, R424): what the visible step of an entry writes, and what a boundary leaves. -/

-- Each theorem is checked before the next one, which bounds the threads that the compiler takes.
set_option Elab.async false

namespace Sys2Proof.Boundaries
open Sys2Proof Sys2Proof.Machine Sys2Proof.Safety Sys2Proof.Laws Sys2Proof.PartsKept Sys2Proof.KeptStores
open Sys2Proof.JobEntries (live_eq_of_onlyChanges jobs_eq_of_onlyChanges finishJob_jobEnds finishJob_onlySlots finishJob_frame job_id
  openJob_eq_some_iff jobEnds_of_live leBytes_length)
open Sys2Proof.InOrder (mem_eq_of_onlyChanges)
open Sys2Proof.ThermalThresholds (grp_eq_of_onlyChanges)
open Sys2Proof.Answering (onlyChanges_mono)
open Sys2Proof.TallyWords (sget_of_mem)

/-! ## Rows of a bank -/

section
variable {α : Type} {d x : α} {m : Sparse α} {k j : Nat}

theorem sget_of_unlisted (unlisted : ∀ y ∈ m, y.1 ≠ k) : sget d m k = d := by
  by_contra other
  exact unlisted _ (mem_of_sget_ne other) rfl

theorem sget_sdel_of_rising (rising : Rising m) : sget d (sdel m k) j = if j = k then d else sget d m j := by
  induction m with
  | nil => simp [sdel, sget]
  | cons z m ih =>
    obtain ⟨i, y⟩ := z
    obtain ⟨above, rest⟩ := rising_cons.mp rising
    simp only [sdel]
    split
    · next below =>
      simp only [sget, ih rest]
      by_cases here : i = j
      · simp [here, show j ≠ k by omega]
      · simp [here]
    · split
      · next own =>
        subst own
        by_cases here : j = i
        · subst here
          rw [if_pos rfl]
          exact sget_of_unlisted fun y listed => Nat.ne_of_gt (above y listed)
        · rw [if_neg here]
          exact (if_neg (Ne.symm here)).symm
      · next own =>
        by_cases here : j = k
        · subst here
          rw [if_pos rfl]
          exact sget_of_unlisted fun y listed => by
            rcases List.mem_cons.mp listed with rfl | later
            · exact own
            · have := above y later
              simp only at this
              omega
        · rw [if_neg here]

theorem sget_sset_of_rising [DecidableEq α] (rising : Rising m) : sget d (sset d m k x) j = if j = k then x else sget d m j := by
  unfold sset
  split
  · next default =>
    subst default
    exact sget_sdel_of_rising rising
  · exact sget_sput m

end

section
variable {a : Arrays} {phys bank r q phys' bank' : Nat} {x : BridgeRow} {k : RowSpot} {n : Nat}

theorem row_putRow (rising : Rising a.rows) : (a.putRow phys bank r x).row phys' bank' q =
    if rowAt phys' bank' q = rowAt phys bank r then x else a.row phys' bank' q :=
  sget_sset_of_rising rising

theorem rising_putRow (rising : Rising a.rows) : Rising (a.putRow phys bank r x).rows := rising.sset

/-- The row that a spot finds is valid. -/
theorem valid_of_rowIn {o : Nat} (rising : Rising a.rows) (found : (a.rowIn k n).map Prod.fst = some o) :
    (a.row k.phys k.bank o).valid = true := by
  obtain ⟨⟨o', y⟩, first, rfl⟩ := Option.map_eq_some_iff.mp found
  obtain ⟨⟨i, z⟩, listed, same⟩ := List.mem_map.mp (List.mem_of_find?_eq_some first)
  obtain ⟨within, shown⟩ := List.mem_filter.mp listed
  obtain ⟨held, range⟩ := List.mem_filter.mp within
  cases same
  simp only [Bool.and_eq_true, decide_eq_true_eq] at range shown
  have place : rowAt k.phys k.bank (i - rowAt k.phys k.bank 0) = i := by
    have low := range.1
    unfold rowAt at low ⊢
    omega
  show (sget freeRow a.rows (rowAt k.phys k.bank (i - rowAt k.phys k.bank 0))).valid = true
  rw [place, sget_of_mem rising held]
  exact shown.1

theorem rowAt_inj (same : rowAt phys bank r = rowAt phys bank q) : r = q := Nat.add_left_cancel same

theorem makeRow_valid {pos slot : Nat} {plane : Bool} {key care : Word} {payload : Word32} :
    (a.makeRow pos plane slot key care payload n).valid = true := rfl

end

/-! ## The visible step of an entry -/

section
variable {s : State} {x : PatchItem}

/-- The arrays once the row that an entry reserved is no longer held for it. -/
def unreserved (a : Arrays) (x : PatchItem) : Arrays :=
  match x.newRow with
  | some r => { a with reserved := a.reserved.filter (· != rowAt x.phys x.bank r) }
  | none => a

theorem unreserved_rows (a : Arrays) (x : PatchItem) : (unreserved a x).rows = a.rows := by
  unfold unreserved
  split <;> rfl

/-- The arrays once the old row of an entry is invalidated. -/
def withoutOld (a : Arrays) (k : RowSpot) (n : Nat) : Arrays :=
  match a.rowIn k n with
  | some (o, _) => a.dropRow k.phys k.bank o
  | none => a

/-- The row that the visible step of an entry validates. -/
def newPlace (s : State) (x : PatchItem) (k : RowSpot) : Option Nat :=
  if x.entry.op = patchDelete then none
  else (x.newRow.filter fun r => (k.phys, k.bank) == (x.phys, x.bank) && (s.arr.row x.phys x.bank r).slot.toNat == k.slotPos).or
    (({ s with arr := unreserved s.arr x } : State).lateRow k x.entry.row)

theorem visibleStep_eq (stands : x.copy = 0 ∨ (s.groupsAt x.entry.array).any (fun h => h.tandem) = true ∧ x.copy = 16) :
    let e := x.entry
    let k := s.spotOn x.copy e.array e.plane e.slotNo
    (s.visibleStep x).arr = match newPlace s x k with
      | some r => (withoutOld (unreserved s.arr x) k e.row).putRow k.phys k.bank r
          ((withoutOld (unreserved s.arr x) k e.row).makeRow e.array e.plane e.slotNo e.key e.care e.payload e.row)
      | none => withoutOld (unreserved s.arr x) k e.row := by
  intro e k
  have here : ¬(x.copy ≠ 0 ∧ (s.copyOffsets x.entry.array).contains x.copy = false) := by
    rintro ⟨other, away⟩
    rcases stands with own | ⟨tandem, twin⟩
    · exact other own
    · rw [State.copyOffsets, if_pos tandem, twin] at away
      cases away
  unfold State.visibleStep
  extract_lets
  rw [if_neg here]
  rfl

theorem rowIn_of_rows {a b : Arrays} (rows : b.rows = a.rows) (k : RowSpot) (n : Nat) : b.rowIn k n = a.rowIn k n := by
  simp only [Arrays.rowIn, Arrays.planeRows, rows]

theorem makeRow_of_moves {a b : Arrays} (moves : b.moves = a.moves) (pos : Nat) (plane : Bool) (slot : Nat) (key care : Word)
    (payload : Word32) (n : Nat) : b.makeRow pos plane slot key care payload n = a.makeRow pos plane slot key care payload n := by
  simp only [Arrays.makeRow, Arrays.present, Arrays.presentPayload, moves]

theorem withoutOld_rising {a : Arrays} {k : RowSpot} {n : Nat} (rising : Rising a.rows) : Rising (withoutOld a k n).rows := by
  unfold withoutOld
  split
  · exact rising_putRow rising
  · exact rising

theorem withoutOld_moves (a : Arrays) (k : RowSpot) (n : Nat) : (withoutOld a k n).moves = a.moves := by
  unfold withoutOld
  split <;> rfl

theorem withoutOld_old {a : Arrays} {k : RowSpot} {n o : Nat} (rising : Rising a.rows) (old : (a.rowIn k n).map Prod.fst = some o) :
    ((withoutOld a k n).row k.phys k.bank o).valid = false := by
  obtain ⟨⟨o', y⟩, first, rfl⟩ := Option.map_eq_some_iff.mp old
  unfold withoutOld
  simp only [first]
  rw [Arrays.dropRow, row_putRow rising, if_pos rfl]
  rfl

theorem withoutOld_other {a : Arrays} {k : RowSpot} {n phys bank q : Nat} (rising : Rising a.rows)
    (other : ∀ o ∈ ((a.rowIn k n).map Prod.fst).toList, rowAt phys bank q ≠ rowAt k.phys k.bank o) :
    (withoutOld a k n).row phys bank q = a.row phys bank q := by
  unfold withoutOld
  rcases found : a.rowIn k n with - | ⟨o, y⟩
  · rfl
  · rw [found] at other
    simp only [Arrays.dropRow]
    rw [row_putRow rising, if_neg (other o List.mem_cons_self)]

/-- A REPLACE or an INSERT makes its reserved row valid and its old row invalid, and changes no other (R114). -/
theorem visibleStep_writes {r : Nat} (rising : Rising s.arr.rows)
    (stands : x.copy = 0 ∨ (s.groupsAt x.entry.array).any (fun h => h.tandem) = true ∧ x.copy = 16) :
    let e := x.entry
    let k := s.spotOn x.copy e.array e.plane e.slotNo
    let old := (s.arr.rowIn k e.row).map Prod.fst
    let u := s.visibleStep x
    e.op ≠ 3 → x.newRow = some r → x.phys = k.phys → x.bank = k.bank → (s.arr.row k.phys k.bank r).slot.toNat = k.slotPos →
    (s.arr.row k.phys k.bank r).valid = false →
    u.arr.row k.phys k.bank r = s.arr.makeRow e.array e.plane e.slotNo e.key e.care e.payload e.row ∧
    (u.arr.row k.phys k.bank r).valid = true ∧ (∀ o, old = some o → (u.arr.row k.phys k.bank o).valid = false) ∧
    ∀ phys bank q, (∀ o ∈ r :: old.toList, rowAt phys bank q ≠ rowAt k.phys k.bank o) → u.arr.row phys bank q = s.arr.row phys bank q :=
        by
  intro e k old u writes reserved array bank slot free
  have place : newPlace s x k = some r := by
    have here : ((k.phys, k.bank) == (x.phys, x.bank) && (s.arr.row x.phys x.bank r).slot.toNat == k.slotPos) = true := by
      rw [array, bank]
      simp [slot]
    unfold newPlace
    rw [if_neg writes, reserved, Option.filter_some, if_pos here]
    rfl
  have stepped : u.arr = (withoutOld (unreserved s.arr x) k e.row).putRow k.phys k.bank r
      (s.arr.makeRow e.array e.plane e.slotNo e.key e.care e.payload e.row) := by
    have moves : (withoutOld (unreserved s.arr x) k e.row).moves = s.arr.moves := by
      rw [withoutOld_moves, unreserved]
      split <;> rfl
    rw [← makeRow_of_moves moves]
    refine (visibleStep_eq stands).trans ?_
    rw [place]
  have rows := unreserved_rows s.arr x
  have rises : Rising (unreserved s.arr x).rows := rows ▸ rising
  have find : (unreserved s.arr x).rowIn k e.row = s.arr.rowIn k e.row := rowIn_of_rows rows k e.row
  have put (phys bank q : Nat) := row_putRow (a := withoutOld (unreserved s.arr x) k e.row) (phys := k.phys) (bank := k.bank) (r := r)
    (x := s.arr.makeRow e.array e.plane e.slotNo e.key e.care e.payload e.row) (phys' := phys) (bank' := bank) (q := q)
    (withoutOld_rising rises)
  have written : u.arr.row k.phys k.bank r = s.arr.makeRow e.array e.plane e.slotNo e.key e.care e.payload e.row := by
    rw [stepped, put, if_pos rfl]
  refine ⟨written, by rw [written]; rfl, fun o found => ?_, fun phys bank q other => ?_⟩
  · have apart : rowAt k.phys k.bank o ≠ rowAt k.phys k.bank r := fun same => by
      have valid := valid_of_rowIn rising found
      rw [rowAt_inj same, free] at valid
      cases valid
    rw [stepped, put, if_neg apart]
    exact withoutOld_old rises (by rw [find]; exact found)
  · rw [stepped, put, if_neg (other r List.mem_cons_self), withoutOld_other rises]
    · show sget freeRow (unreserved s.arr x).rows _ = _
      rw [rows]
      rfl
    · rw [find]
      exact fun o listed => other o (List.mem_cons_of_mem _ listed)

/-- A DELETE makes its old row invalid, and changes no other (R114). -/
theorem visibleStep_deletes (rising : Rising s.arr.rows)
    (stands : x.copy = 0 ∨ (s.groupsAt x.entry.array).any (fun h => h.tandem) = true ∧ x.copy = 16) :
    let e := x.entry
    let k := s.spotOn x.copy e.array e.plane e.slotNo
    let old := (s.arr.rowIn k e.row).map Prod.fst
    let u := s.visibleStep x
    e.op = 3 → (∀ o, old = some o → (u.arr.row k.phys k.bank o).valid = false) ∧
    ∀ phys bank q, (∀ o ∈ old.toList, rowAt phys bank q ≠ rowAt k.phys k.bank o) → u.arr.row phys bank q = s.arr.row phys bank q := by
  intro e k old u deletes
  have stepped : u.arr = withoutOld (unreserved s.arr x) k e.row := by
    have place : newPlace s x k = none := if_pos deletes
    refine (visibleStep_eq stands).trans ?_
    rw [place]
  have rows := unreserved_rows s.arr x
  have rises : Rising (unreserved s.arr x).rows := rows ▸ rising
  have find : (unreserved s.arr x).rowIn k e.row = s.arr.rowIn k e.row := rowIn_of_rows rows k e.row
  rw [stepped]
  refine ⟨fun o found => withoutOld_old rises (by rw [find]; exact found), fun phys bank q other => ?_⟩
  rw [withoutOld_other rises (by rw [find]; exact other)]
  show sget freeRow (unreserved s.arr x).rows _ = _
  rw [rows]
  rfl

end

/-! ## The items of a boundary (R424) -/

theorem items_due {s : State} {p : PatchJob} {g : Group} :
    (∀ x ∈ p.items, x.grp = g.gid → x ∈ s.itemsDue p g) ∧
    ∀ x ∈ p.items, x.grp = g.gid → x.copy = 0 → (s.groupsAt x.entry.array).any (fun h => h.tandem) = true →
      ∃ y ∈ s.itemsDue p g, y.entry = x.entry ∧ y.copy = 16 := by
  have mine (x : PatchItem) (listed : x ∈ p.items) (own : x.grp = g.gid) : x ∈ p.items.filter (fun y => y.grp == g.gid) :=
    List.mem_filter.mpr ⟨listed, beq_iff_eq.mpr own⟩
  refine ⟨fun x listed own => List.mem_append_left _ (mine x listed own), fun x listed own primary tandem => ?_⟩
  by_cases twin : (p.items.filter (fun y => y.grp == g.gid)).any (fun y => y.copy == 16 && y.entry == x.entry) = true
  · obtain ⟨y, held, same⟩ := List.any_eq_true.mp twin
    obtain ⟨copy, entry⟩ := (Bool.and_eq_true _ _).mp same
    exact ⟨y, List.mem_append_left _ held, eq_of_beq entry, eq_of_beq copy⟩
  · refine ⟨{ x with copy := 16, newRow := none, oldRow := none }, List.mem_append_right _ ?_, rfl, rfl⟩
    refine List.mem_flatMap.mpr ⟨x, List.mem_filter.mpr ⟨mine x listed own, beq_iff_eq.mpr primary⟩, List.mem_map.mpr ⟨16, ?_, rfl⟩⟩
    rw [State.copyOffsets, if_pos tandem]
    exact List.mem_filter.mpr ⟨by simp, by simpa using twin⟩

/-! ## The journal (R119) -/

section
variable {s t : State} {g : Group} {es : List JournalEntry} {c : Nat}

theorem journalBytes_length (es : List JournalEntry) : (es.flatMap JournalEntry.bytes).length = 48 * es.length := by
  have each : ∀ e : JournalEntry, e.bytes.length = 48 := fun e => by
    simp only [JournalEntry.bytes, PatchEntry.bytes, List.length_append, leBytes_length]
  simp [List.length_flatMap, each, Nat.mul_comm]

theorem offShelter_mono {base size lo n lo' n' : Nat} (off : OffShelter s base size lo n c) (low : lo ≤ lo') (high : lo' + n' ≤ lo + n) :
    OffShelter s base size lo' n' c := fun b from_ below => off b (by omega) (by omega)

theorem offCopy_mono {lo n lo' n' : Nat} (off : OffCopy s lo n c) (low : lo ≤ lo') (high : lo' + n' ≤ lo + n) : OffCopy s lo' n' c :=
  ⟨offShelter_mono off.1 (by omega) (by omega), fun en => offShelter_mono (off.2 en) (by omega) (by omega)⟩

theorem offCopy_of_pages {lo n : Nat} (live : t.live = s.live) (pages : t.flt.pages = s.flt.pages) (off : OffCopy t lo n c) :
    OffCopy s lo n c := by
  simpa only [OffCopy, OffShelter, State.pageHome, live, pages] using off

theorem copyJournal_other {second : Bool} {length place : Nat} (wf : Memory.wf s.mem = true)
    (off : OffCopy s (s.live.areaOff second + journalOff length + 48 * place) (48 * es.length) c) :
    memByte (s.copyJournal second length place es).mem c = memByte s.mem c := by
  unfold State.copyJournal
  split
  · rfl
  · next some_ =>
    have pos : 0 < es.length := List.length_pos_iff.mpr (by simpa using some_)
    refine copyWrite_other _ _ _ wf ?_ ?_
    · rw [journalBytes_length]
      omega
    · rw [journalBytes_length]
      exact off

/-- The journal of an area as its copy in memory has it. -/
def journalled (s : State) (a : Option HarnessArea) (second : Bool) (es : List JournalEntry) : State :=
  match a with
  | none => s
  | some x => s.copyJournal second x.image.length x.journal.length es

/-- An area with entries in its journal. -/
def withEntries (es : List JournalEntry) (a : HarnessArea) : HarnessArea := { a with journal := a.journal ++ es }

theorem journalled_frame {a : Option HarnessArea} {second : Bool} : OnlyChanges [.mem] s (journalled s a second es) := by
  unfold journalled
  split
  · exact OnlyChanges.refl _ _
  · exact State.copyJournal_frame _ _ _ _ _ (OnlyChanges.refl _ _) (by decide)

theorem journalled_wf {a : Option HarnessArea} {second : Bool} (wf : Memory.wf s.mem = true) :
    Memory.wf (journalled s a second es).mem = true := by
  unfold journalled
  split
  · exact wf
  · exact copyJournal_wf _ _ _ _ wf

theorem journalled_other {a : Option HarnessArea} {second : Bool} (wf : Memory.wf s.mem = true)
    (off : ∀ x, a.map (withEntries es) = some x → OffCopy s (s.live.areaOff second + journalOff x.image.length) (48 * x.journal.length)
        c) :
    memByte (journalled s a second es).mem c = memByte s.mem c := by
  unfold journalled
  split
  · rfl
  · next x =>
    refine copyJournal_other wf (offCopy_mono (off _ rfl) (by simp only [withEntries]; omega) ?_)
    simp only [withEntries, List.length_append]
    omega

theorem appendJournal_eq : s.appendJournal g es =
    if g.ended then
      let t := journalled s s.img.former (!s.img.second) es
      { t with img := { t.img with former := t.img.former.map (withEntries es) } }
    else
      let t := journalled s s.img.live s.img.second es
      { t with img := { t.img with live := t.img.live.map (withEntries es) } } := rfl

/-- What the journal of a boundary leaves: the entries stand in the area of the group's image. -/
theorem appendJournal_img : (g.ended = false → (s.appendJournal g es).img = { s.img with live := s.img.live.map (withEntries es) }) ∧
    (g.ended = true → (s.appendJournal g es).img = { s.img with former := s.img.former.map (withEntries es) }) := by
  rw [appendJournal_eq]
  constructor
  · intro stands
    rw [if_neg (by simp [stands])]
    exact congrArg (fun i : Images => { i with live := i.live.map (withEntries es) }) (img_eq_of_onlyChanges journalled_frame (by decide))
  · intro ended
    rw [if_pos ended]
    exact congrArg (fun i : Images => { i with former := i.former.map (withEntries es) })
      (img_eq_of_onlyChanges journalled_frame (by decide))

theorem appendJournal_wf (wf : Memory.wf s.mem = true) : Memory.wf (s.appendJournal g es).mem = true := by
  rw [appendJournal_eq]
  split
  · exact journalled_wf wf
  · exact journalled_wf wf

/-- The journal of a boundary stores to the journal areas alone. -/
theorem appendJournal_other (wf : Memory.wf s.mem = true) (live : t.live = s.live) (pages : t.flt.pages = s.flt.pages)
    (img : t.img = (s.appendJournal g es).img) (off : OffJournals t c) : memByte (s.appendJournal g es).mem c = memByte s.mem c := by
  obtain ⟨stands, ended⟩ := appendJournal_img (s := s) (g := g) (es := es)
  rw [appendJournal_eq]
  split
  · next past =>
    rw [ended past] at img
    refine journalled_other wf fun x listed => offCopy_of_pages live pages ?_
    rw [← live]
    refine off (!s.img.second) x (List.mem_cons_of_mem _ (List.mem_singleton.mpr ?_))
    rw [img, listed]
  · next here =>
    rw [stands (by simpa using here)] at img
    refine journalled_other wf fun x listed => offCopy_of_pages live pages ?_
    rw [← live]
    refine off s.img.second x ?_
    rw [img, listed]
    exact List.mem_cons_self

end

/-! ## A boundary is taken -/

section
variable {s : State} {id base : Nat} {j : Job} {p : PatchJob} {g : Group}

/-- The entries that a boundary appends to the journal. -/
def appended (p : PatchJob) (g : Group) : List JournalEntry :=
  (primaryItems (p.items.filter (fun x => x.grp == g.gid))).map (fun x => ⟨g.base, g.gen + 1, x.entry⟩)

/-- The rows and the generation of a group once its boundary is taken. -/
def stepped (s : State) (p : PatchJob) (g : Group) : State :=
  ((s.itemsDue p g).foldl State.visibleStep s).modGroup g.gid (fun x => { x with gen := x.gen + 1 })

/-- A patch that has taken its boundary in a group, its journal written. -/
def journalledStep (s : State) (p : PatchJob) (g : Group) : State := (stepped s p g).appendJournal g (appended p g)

theorem visibleSteps_frame : OnlyChanges [.arr] s ((s.itemsDue p g).foldl State.visibleStep s) :=
  OnlyChanges.foldl _ (OnlyChanges.refl _ _) fun _ _ frame => State.visibleStep_frame _ _ frame (by decide)

theorem stepped_frame : OnlyChanges [.arr, .grp] s (stepped s p g) :=
  State.modGroup_frame _ _ _ (onlyChanges_mono (by decide) visibleSteps_frame) (by decide)

theorem journalledStep_frame : OnlyChanges [.img, .arr, .grp, .mem] s (journalledStep s p g) :=
  State.appendJournal_frame _ _ _ (onlyChanges_mono (by decide) stepped_frame) (by decide) (by decide)

theorem exec_patchBoundary_of_due (up : s.up = true) (open_ : s.openJob id 5 = some j)
    (patch : s.jobs.patches.find? (fun q => q.job == id) = some p)
    (group : s.grp.groups.find? (fun x => x.base == base && p.groups.contains x.gid) = some g) (due : s.boundaryDue j g = true) :
    exec (.patchBoundary id base) s = .next (s.applyPatch j p g) := by
  refine congrArg Host.Outcome.next ?_
  rw [open_, patch]
  show (match s.grp.groups.find? (fun x => x.base == base && p.groups.contains x.gid) with | none => s | some g => _) = _
  rw [group]
  exact if_pos (by simp [up, due])

/-- The patches that still wait for a boundary. -/
def patchesLeft (s : State) (p : PatchJob) (g : Group) : List PatchJob :=
  s.jobs.patches.filter (fun q => q.job != p.job) ++
    if (p.groups.filter (· != g.gid)).isEmpty then []
    else [{ p with items := p.items.filter (fun x => x.grp != g.gid), groups := p.groups.filter (· != g.gid) }]

/-- A boundary taken, before its job ends. -/
def taken (s : State) (p : PatchJob) (g : Group) : State :=
  { journalledStep s p g with jobs := { s.jobs with patches := patchesLeft s p g } }

theorem applyPatch_eq : s.applyPatch j p g = if (p.groups.filter (· != g.gid)).isEmpty then
    (taken s p g).finishJob p.job stJobOk (descPatchEntries j.desc) 0 else taken s p g := by
  have jobs : (journalledStep s p g).jobs = s.jobs := jobs_eq_of_onlyChanges journalledStep_frame (by decide)
  have given : s.applyPatch j p g = if (p.groups.filter (· != g.gid)).isEmpty then
      ({ journalledStep s p g with jobs := { (journalledStep s p g).jobs with
          patches := (journalledStep s p g).jobs.patches.filter (fun q => q.job != p.job) } } : State).finishJob p.job stJobOk
        (descPatchEntries j.desc) 0
    else { journalledStep s p g with jobs := { (journalledStep s p g).jobs with
        patches := (journalledStep s p g).jobs.patches.filter (fun q => q.job != p.job) ++
          [{ p with items := p.items.filter (fun x => x.grp != g.gid), groups := p.groups.filter (· != g.gid) }] } } := rfl
  rw [given, taken, patchesLeft, jobs]
  split
  · rw [List.append_nil]
  · rfl

theorem taken_frame : OnlyChanges [.img, .jobs, .arr, .grp, .mem] s (taken s p g) :=
  OnlyChanges.trans (onlyChanges_mono (by decide) journalledStep_frame) rfl

theorem journal_frame : OnlyChanges [.img, .mem] (stepped s p g) (journalledStep s p g) :=
  State.appendJournal_frame _ _ _ (OnlyChanges.refl _ _) (by decide) (by decide)

theorem taken_parts : (taken s p g).live = s.live ∧ (taken s p g).flt = s.flt ∧ (taken s p g).img = (journalledStep s p g).img ∧
    (taken s p g).arr = ((s.itemsDue p g).foldl State.visibleStep s).arr ∧
    (taken s p g).grp = { s.grp with groups := s.grp.groups.map (fun x => if x.gid = g.gid then { x with gen := x.gen + 1 } else x) } :=
        by
  refine ⟨live_eq_of_onlyChanges taken_frame (by decide), flt_eq_of_onlyChanges taken_frame (by decide), rfl, ?_, ?_⟩
  · have journal : (journalledStep s p g).arr = (stepped s p g).arr := arr_eq_of_onlyChanges journal_frame (by decide)
    exact journal
  · have journal : (journalledStep s p g).grp = (stepped s p g).grp := grp_eq_of_onlyChanges journal_frame (by decide)
    have steps : ((s.itemsDue p g).foldl State.visibleStep s).grp = s.grp := grp_eq_of_onlyChanges visibleSteps_frame (by decide)
    show (journalledStep s p g).grp = _
    rw [journal, stepped, State.modGroup, steps]

theorem stepped_mem : (stepped s p g).mem = s.mem := mem_eq_of_onlyChanges stepped_frame (by decide)

theorem taken_wf (wf : Memory.wf s.mem = true) : Memory.wf (taken s p g).mem = true :=
  appendJournal_wf (stepped_mem (s := s) (p := p) (g := g) ▸ wf)

/-- What a boundary leaves of the image, of the rows, of the groups and of memory, whether or not its job ends with it. -/
structure Taken (s : State) (p : PatchJob) (g : Group) (t : State) : Prop where
  live : t.live = s.live
  flt : t.flt = s.flt
  img : t.img = (taken s p g).img
  arr : t.arr = (taken s p g).arr
  grp : t.grp = (taken s p g).grp
  patches : t.jobs.patches = patchesLeft s p g

theorem taken_img : (g.ended = false → (taken s p g).img = { s.img with live := s.img.live.map (withEntries (appended p g)) }) ∧
    (g.ended = true → (taken s p g).img = { s.img with former := s.img.former.map (withEntries (appended p g)) }) := by
  have before : (stepped s p g).img = s.img := img_eq_of_onlyChanges stepped_frame (by decide)
  have journal := appendJournal_img (s := stepped s p g) (g := g) (es := appended p g)
  rw [before] at journal
  exact journal

theorem taken_other {t : State} {c : Nat} (wf : Memory.wf s.mem = true) (done : Taken s p g t) (off : OffJournals t c) :
    memByte (taken s p g).mem c = memByte s.mem c := by
  have written := appendJournal_other (s := stepped s p g) (t := t) (g := g) (es := appended p g) (c := c)
    (stepped_mem (s := s) (p := p) (g := g) ▸ wf)
    (done.live.trans (live_eq_of_onlyChanges stepped_frame (by decide)).symm)
    (congrArg Faults.pages (done.flt.trans (flt_eq_of_onlyChanges stepped_frame (by decide)).symm :)) done.img off
  exact written.trans (congrArg (memByte · c) stepped_mem)

theorem taken_taken : Taken s p g (taken s p g) := by
  obtain ⟨live, flt, -⟩ := taken_parts (s := s) (p := p) (g := g)
  exact ⟨live, flt, rfl, rfl, rfl, rfl⟩

/-- An end of a job keeps the patches that wait. -/
theorem finishJob_patches {status done detail : Nat} : (s.finishJob id status done detail).jobs.patches = s.jobs.patches := by
  cases found : s.job id with
  | none => simp only [State.finishJob, found]
  | some j =>
    have spent := congrArg Jobs.patches
      (jobs_eq_of_onlyChanges (JobEntries.unreserve_frame (JobEntries.entered s id status done detail j) j.costLeft) (by decide))
    have entry := congrArg Jobs.patches (jobs_eq_of_onlyChanges
      (State.writeEntry_frame j.ring j.entrySlot (jobBody status j.op j.tag done detail) s (OnlyChanges.refl [.mem, .rings] s)
        (by decide) (by decide)) (by decide))
    rw [JobEntries.finishJob_of_job found]
    exact spent.trans entry

theorem finished_taken {status done detail : Nat} : Taken s p g ((taken s p g).finishJob id status done detail) := by
  have frame := finishJob_frame (taken s p g) id status done detail
  obtain ⟨live, flt, -⟩ := taken_parts (s := s) (p := p) (g := g)
  exact ⟨(live_eq_of_onlyChanges frame (by decide)).trans live, (flt_eq_of_onlyChanges frame (by decide)).trans flt,
    img_eq_of_onlyChanges frame (by decide), arr_eq_of_onlyChanges frame (by decide), grp_eq_of_onlyChanges frame (by decide),
    finishJob_patches⟩

/-- What a boundary leaves where a patch has no group left to come. -/
theorem patchesLeft_of_last (last : ∀ n ∈ p.groups, n = g.gid) : patchesLeft s p g = s.jobs.patches.filter (fun q => q.job != p.job) := by
  rw [patchesLeft, if_pos, List.append_nil]
  simpa using last

theorem taken_image {t : State} (done : Taken s p g t) :
    (g.ended = false → t.img.former = s.img.former ∧ t.img.live = s.img.live.map (withEntries (appended p g))) ∧
    (g.ended = true → t.img.live = s.img.live ∧ t.img.former = s.img.former.map (withEntries (appended p g))) := by
  obtain ⟨stands, ended⟩ := taken_img (s := s) (p := p) (g := g)
  rw [done.img]
  exact ⟨fun here => by rw [stands here]; exact ⟨rfl, rfl⟩, fun past => by rw [ended past]; exact ⟨rfl, rfl⟩⟩

theorem groups_left_iff : (p.groups.filter (· != g.gid)).isEmpty = true ↔ ∀ n ∈ p.groups, n = g.gid := by
  simp

/-- A boundary with groups to come leaves the jobs in flight. -/
theorem applyPatch_of_rest (rest : ∃ n ∈ p.groups, n ≠ g.gid) : s.applyPatch j p g = taken s p g := by
  rw [applyPatch_eq, if_neg]
  rw [groups_left_iff]
  obtain ⟨n, listed, other⟩ := rest
  exact fun all => other (all n listed)

theorem applyPatch_of_last (last : ∀ n ∈ p.groups, n = g.gid) :
    s.applyPatch j p g = (taken s p g).finishJob p.job stJobOk (descPatchEntries j.desc) 0 := by
  rw [applyPatch_eq, if_pos (groups_left_iff.mpr last)]

/-- The whole of a boundary, whether or not it is the patch's last. -/
theorem applyPatch_taken : Taken s p g (s.applyPatch j p g) ∧
    OnlyChanges [.img, .rings, .jobs, .arr, .grp, .led, .gait, .mem, .out] s (s.applyPatch j p g) := by
  have frame : OnlyChanges [.img, .rings, .jobs, .arr, .grp, .led, .gait, .mem, .out] s (taken s p g) :=
    onlyChanges_mono (by decide) taken_frame
  rw [applyPatch_eq]
  split
  · exact ⟨finished_taken, OnlyChanges.trans frame (onlyChanges_mono (by decide) (finishJob_frame _ _ _ _ _))⟩
  · exact ⟨taken_taken, frame⟩

theorem taken_job (held : s.job id = some j) : (taken s p g).job id = some j := held

/-- The job entry of the last boundary (R117). -/
theorem applyPatch_ends (wf : Memory.wf s.mem = true) (held : s.job p.job = some j) (last : ∀ n ∈ p.groups, n = g.gid) :
    JobEnds s (s.applyPatch j p g) j 0x100 (descPatchEntries j.desc) 0 ∧ ∀ q ∈ (s.applyPatch j p g).jobs.patches, q.job ≠ p.job := by
  constructor
  · rw [applyPatch_of_last last]
    exact jobEnds_of_live taken_taken.live (finishJob_jobEnds (taken_wf wf) (taken_job held))
  · rw [applyPatch_taken.1.patches, patchesLeft_of_last last]
    intro q left
    simpa using (List.mem_filter.mp left).2

/-- A boundary stores to the journals, and at its last group to the slot of its job entry. -/
theorem applyPatch_other {c : Nat} (wf : Memory.wf s.mem = true) (held : s.job p.job = some j) (off : OffJournals (s.applyPatch j p g) c)
    (slot : Apart ((s.live.ring j.ring).slotAddr j.entrySlot) 16 c) : memByte (s.applyPatch j p g).mem c = memByte s.mem c := by
  have journal : memByte (taken s p g).mem c = memByte s.mem c := taken_other wf applyPatch_taken.1 off
  by_cases last : ∀ n ∈ p.groups, n = g.gid
  · rw [applyPatch_of_last last]
    refine (finishJob_onlySlots (taken_wf wf) (taken_job held) c fun e listed => ?_).trans journal
    rw [List.mem_singleton.mp listed, taken_taken.live]
    exact slot
  · rw [applyPatch_of_rest (by simpa using last)]
    exact journal

end

/-- Settles O44: the steps of the entries one at a time, then the journal and the job entry over what they leave. -/
theorem patchBoundary : Obligations.PatchBoundary := by
  refine ⟨fun id base j p g s up wf open_ patch group due => ?taken, fun p g s => items_due, fun x s ok stands => ?visible,
    fun id base j p g s open_ patch group due => ?waits⟩
  case taken =>
    obtain ⟨held, -, -⟩ := openJob_eq_some_iff.mp open_
    have own : p.job = id := by simpa using List.find?_some patch
    subst own
    obtain ⟨done, frame⟩ := applyPatch_taken (s := s) (p := p) (g := g) (j := j)
    obtain ⟨-, -, -, rows, groups⟩ := taken_parts (s := s) (p := p) (g := g)
    obtain ⟨stands, ended⟩ := taken_image done
    refine ⟨s.applyPatch j p g, exec_patchBoundary_of_due up open_ patch group due, frame, done.grp.trans groups, done.arr.trans rows,
      stands, ended, fun a off slot => applyPatch_other wf held off slot, fun last => applyPatch_ends wf held last, fun rest => ?_⟩
    rw [applyPatch_of_rest rest]
    rfl
  case visible =>
    obtain ⟨-, -, ⟨-, rising⟩, -⟩ := (storesOk_iff s).mp ok
    exact ⟨fun r => visibleStep_writes rising stands, visibleStep_deletes rising stands⟩
  case waits =>
    refine congrArg Host.Outcome.next ?_
    rw [open_, patch]
    show (match s.grp.groups.find? (fun x => x.base == base && p.groups.contains x.gid) with | none => s | some g => _) = _
    rw [group]
    exact if_neg (by simp [due])

end Sys2Proof.Boundaries
end

section
/-! PROOFS. The frame of a returned line (O3) fails as stated: a spare page may stand for a page that no protected region holds any
more, and a line of it is stored to the page itself. A Mount that takes the mirror away leaves such a page behind. -/

namespace Sys2Proof.SparePages
open Sys2Proof Sys2Proof.Machine Sys2Proof.Safety
open Sys2Proof.LineReturns (answered exec_memoryReadReturn memRead_write)

/-- A running engine with one spare page, at 0x1000, directed to it from page 7, which stands in plain memory. -/
def leftBehind : State :=
  { State.reset with
    pwr := { Power.reset with phase := .running }
    link := [{ LinkModule.reset with state := 2 }, LinkModule.reset]
    live := { Staged.reset with spare := 0x1000000001000 }
    flt := { Faults.reset with pages := [(7, 0)] } }

/-- A line of ones. -/
def line : List Byte := List.replicate 128 1

/-- The line returns from the spare page, and its first byte stands at the page that was left behind. -/
theorem leftBehind_stores : ∃ t, exec (.memoryReadReturn 0x1000 line []) leftBehind = .next t ∧ memByte t.mem 0x7000 = 1 := by
  have plain : leftBehind.regionOf (leftBehind.carried 0x1000) = .plain := by decide
  have home : leftBehind.carried 0x1000 = 0x7000 := by decide
  have runs := exec_memoryReadReturn (s := leftBehind) (addr := 0x1000) (line := line) (check := []) rfl (by decide)
  rw [if_pos plain, home] at runs
  refine ⟨_, runs, ?_⟩
  have read := memRead_write (s := answered leftBehind 0x1000) (a := 0x7000) (data := line) (off := 128) (by decide)
    List.length_replicate (by decide)
  have first := congrArg (fun bs : List Byte => bs.head?) read
  rw [memRead, List.range_succ_eq_map] at first
  exact Option.some.inj first

/-- Refutes O3: the page of the line is in no region, and the line is stored to it. -/
theorem not_framesOfRecordsAndJobs : ¬ Obligations.FramesOfRecordsAndJobs := by
  unfold Obligations.FramesOfRecordsAndJobs
  rintro ⟨-, -, -, lines⟩
  obtain ⟨t, runs, stored⟩ := leftBehind_stores
  have plain : leftBehind.regionBase (leftBehind.carried 0x1000) = none := by decide
  have single : leftBehind.otherCopy (leftBehind.carried 0x1000) = none := by decide
  have home : leftBehind.redirect (leftBehind.carried 0x1000) = 0x1000 := by decide
  have kept := lines 0x1000 0x7000 line [] leftBehind t (by decide) (by decide) List.length_replicate runs
  have apart : Apart 0x1000 128 0x7000 := fun i range => by
    unfold portAddr
    omega
  specialize kept apart (home ▸ apart) (fun base size region => ?_) (fun q other => ?_)
  · rw [plain] at region
    cases region
  · rw [single] at other
    cases other
  · rw [stored] at kept
    exact absurd kept (by decide)

end Sys2Proof.SparePages
end

section
/-! PROOFS. The frames of the slots (O4, O5) fail as stated: a job that is not a scoring job has one completion slot, and no premise
keeps it from holding record places, whose result entries are written behind it. No run reaches such a job. -/

namespace Sys2Proof.StraySlots
open Sys2Proof Sys2Proof.Machine Sys2Proof.Safety

/-- A fence that holds record indices 0 and 1, both committed; index 1 has the status VOID_ROUTE. -/
def holder : Job where
  id := 0
  ring := 0
  op := opFence
  tag := 0
  desc := 0
  slot := 0
  n := 2
  model := some ⟨0, false, 1, 0, 1, false, 0, [], 0, [], [], []⟩
  groups := []
  tile := 0
  tiles := 0
  stride := 0
  add := false
  k := 0
  stream := 0
  first := 0
  next := 2
  committed := 2
  voided := 0
  costRec := 0
  costLeft := 0
  voidGroups := []
  routeGone := none
  special := [(1, 0x008)]
  owed := []
  begun := true
  acked := 0
  owns := false
  written := false
  ended := false
  status := 0
  done := 0
  detail := 0

/-- The place of index 0: settled and committed, and still to be scored again. -/
def again : JobPlace := { JobPlace.fresh 0 0 with settled := true, replay := true, commit := true, status := 0x008 }

/-- The record of that place. -/
def record (bad : Bool) : Head := ⟨0, none, 0, 0, 0, 0, [], [], bad, false, [again]⟩

/-- A group of one array that has records ready. -/
def group (ready : List (Nat × Nat)) : Group where
  gid := 1
  base := 0
  size := 1
  ended := false
  dbl := false
  refold := false
  plane := false
  switchDue := false
  gen := 0
  digest := []
  models := [0]
  suspended := []
  tandem := false
  paused := false
  ready := ready
  marked := []
  tremolo := none
  run := []
  runPos := 0
  inB := false

/-- Ring 0 is up, its 64 completion slots at address 0. -/
def ringUp : Staged := { Staged.reset with rings := Staged.reset.rings.set 0 ⟨0, 0x6000000000000, 1⟩ }

/-- A running engine with that job in flight. -/
def inFlight (bad due : Bool) (ready : List (Nat × Nat)) : State :=
  { State.reset with
    pwr := { Power.reset with phase := .running, replayDue := due }
    live := ringUp
    jobs := { Jobs.reset with jobs := [holder], nextId := 1 }
    acc := ⟨[record bad], [], []⟩
    grp := { Groups.reset with groups := [group ready] } }

/-- Byte 17 lies in slot 1 of ring 0, which no job in flight has. -/
theorem off_slots (bad due : Bool) (ready : List (Nat × Nat)) : OffSlots (inFlight bad due ready) 17 := by
  intro j listed up i range k inside
  obtain rfl : j = holder := List.mem_singleton.mp listed
  obtain rfl : i = 0 := by
    have one : holder.slots = 1 := rfl
    omega
  have first : (ringUp.ring 0).slotAddr (0 + BitVec.ofNat 32 0) = 0 := by decide
  show portAddr 17 ≠ portAddr ((ringUp.ring 0).slotAddr (0 + BitVec.ofNat 32 0) + k)
  rw [first]
  unfold portAddr
  omega

/-- The result entries of the record that is lost are written, index 1 with them. -/
theorem dispatch_stores : ∃ t, exec (.recordDispatch 0 false []) (inFlight true false [(0, 0)]) = .next t ∧ memByte t.mem 17 = 8 :=
  ⟨_, rfl, by decide⟩

/-- The result entries of the record that keeps its status are written, index 1 with them. -/
theorem replay_stores : ∃ t, exec (.replay false) (inFlight false true []) = .next t ∧ memByte t.mem 17 = 8 :=
  ⟨_, rfl, by decide⟩

theorem memory_empty (bad due : Bool) (ready : List (Nat × Nat)) : memByte (inFlight bad due ready).mem 17 = 0 := rfl

/-- Refutes O4: a dispatch stores to a slot that no job in flight has. -/
theorem not_framesOfImagesAndScoring : ¬ Obligations.FramesOfImagesAndScoring := by
  unfold Obligations.FramesOfImagesAndScoring
  rintro ⟨-, slots, -⟩
  obtain ⟨t, runs, stored⟩ := dispatch_stores
  have kept := slots _ _ t 17 (.inr rfl) rfl (by decide) runs (off_slots _ _ _)
  rw [stored, memory_empty] at kept
  exact absurd kept (by decide)

/-- Refutes O5: a replay stores to a slot that no job in flight has. -/
theorem not_framesOfRegistersSuppliesAndBoard : ¬ Obligations.FramesOfRegistersSuppliesAndBoard := by
  unfold Obligations.FramesOfRegistersSuppliesAndBoard
  rintro ⟨-, slots, -⟩
  obtain ⟨t, runs, stored⟩ := replay_stores
  have kept := slots _ _ t 17 rfl rfl (by decide) runs (off_slots _ _ _)
  rw [stored, memory_empty] at kept
  exact absurd kept (by decide)

end Sys2Proof.StraySlots
end

section
/-! PROOFS. How a Mount comes out (R351 to R353): the values in effect and the image at its apply point, and what its end leaves. -/

-- Each theorem is checked before the next one, which bounds the threads that the compiler takes.
set_option Elab.async false

namespace Sys2Proof.MountEnds
open Sys2Proof Sys2Proof.Machine Sys2Proof.Safety Sys2Proof.Laws Sys2Proof.PartsKept
open Sys2Proof.JobEntries (live_eq_of_onlyChanges jobs_eq_of_onlyChanges finishJob_jobEnds finishJob_frame finishJob_contexts
    jobEnds_of_live)
open Sys2Proof.InOrder (mem_eq_of_onlyChanges)
open Sys2Proof.ThermalThresholds (grp_eq_of_onlyChanges)
open Sys2Proof.StagedFields (mnt_eq_of_onlyChanges)
open Sys2Proof.ExpectWrites (shadow_eq_of_onlyChanges)
open Sys2Proof.Answering (onlyChanges_mono)

variable {s : State} {status done detail id : Nat} {f : MountFail} {j : Job}

/-! ## The end of a Mount -/

/-- The job of the Mount in progress writes its entry. -/
def entryWritten (s : State) (status done detail : Nat) : State :=
  match s.mnt.active with
  | some (.job id) => s.finishJob id status done detail
  | _ => s

theorem entryWritten_frame : OnlyChanges [.rings, .jobs, .led, .gait, .mem, .out] s (entryWritten s status done detail) := by
  unfold entryWritten
  split
  · exact finishJob_frame _ _ _ _ _
  · exact OnlyChanges.refl _ _

theorem entryWritten_of_job (own : s.mnt.active = some (.job id)) : entryWritten s status done detail = s.finishJob id status done detail
    := by
  rw [entryWritten, own]

/-- An end of a Mount takes the next request, and leaves its counters and its outcome. -/
theorem endMount_eq : ∃ active waiting applied, s.endMount status done detail =
    { entryWritten s status done detail with mnt := { s.mnt with active := active, waiting := waiting, applied := applied } } := by
  have kept : (entryWritten s status done detail).mnt = s.mnt := mnt_eq_of_onlyChanges entryWritten_frame (by decide)
  have given : s.endMount status done detail =
      ({ entryWritten s status done detail with mnt := { (entryWritten s status done detail).mnt with active := none, applied := false } }
        : State).nextMount := rfl
  rw [given, kept, State.nextMount]
  split
  · exact ⟨_, _, _, rfl⟩
  · exact ⟨_, _, _, rfl⟩

theorem endMount_frame : OnlyChanges [.rings, .jobs, .led, .gait, .mem, .out, .mnt] s (s.endMount status done detail) :=
  State.endMount_frame _ _ _ _ (OnlyChanges.refl _ _) (by decide) (by decide) (by decide) (by decide) (by decide) (by decide) (by decide)

/-- The job of a Mount that ends has its entry. -/
theorem endMount_jobEnds (wf : Memory.wf s.mem = true) (own : s.mnt.active = some (.job id)) (found : s.job id = some j) :
    JobEnds s (s.endMount status done detail) j status done detail := by
  obtain ⟨active, waiting, applied, ends⟩ := endMount_eq (s := s) (status := status) (done := done) (detail := detail)
  rw [ends, entryWritten_of_job own]
  exact finishJob_jobEnds wf found

theorem endMount_contexts (own : s.mnt.active = some (.job id)) {x : Job} (left : x ∈ (s.endMount status done detail).jobs.jobs)
    (same : x.id = id) : x.written = true ∧ x.status = status ∧ x.done = done ∧ x.detail = detail := by
  obtain ⟨active, waiting, applied, ends⟩ := endMount_eq (s := s) (status := status) (done := done) (detail := detail)
  rw [ends, entryWritten_of_job own] at left
  cases found : s.job id with
  | some j => exact finishJob_contexts found left same
  | none =>
    rw [State.finishJob, found] at left
    exact absurd (List.find?_eq_none.mp found x left) (by simp [same])

/-! ## A Mount that fails (R353) -/

/-- The outcome of a Mount that fails, its held writes back in the shadows. -/
def failing (s : State) (f : MountFail) : State :=
  (({ s with mnt := { s.mnt with failedCnt := satAdd 16 s.mnt.failedCnt 1, lastOk := false, fail := f.word } } : State).thaw).retarget

theorem failing_frame : OnlyChanges [.mnt, .shadow, .gait, .out] s (failing s f) :=
  State.retarget_frame _ (State.thaw_frame _ (rfl : OnlyChanges [.mnt, .shadow, .gait, .out] s _) (by decide) (by decide)) (by decide)
    (by decide)

theorem failing_mnt : (failing s f).mnt =
    { s.mnt with failedCnt := satAdd 16 s.mnt.failedCnt 1, lastOk := false, fail := f.word, frozen := [] } :=
  mnt_eq_of_onlyChanges (State.retarget_frame (fs := [.gait, .out]) _ (OnlyChanges.refl _ _) (by decide) (by decide)) (by decide)

theorem failing_shadow : (failing s f).shadow = s.mnt.frozen.foldl (fun c w => c.stage w.1 w.2) s.shadow :=
  shadow_eq_of_onlyChanges (State.retarget_frame (fs := [.gait, .out]) _ (OnlyChanges.refl _ _) (by decide) (by decide)) (by decide)

theorem exec_mountApply_of_fail (up : s.up = true) (freezing : s.mnt.freezing = true) (fails : s.mountFail = some f) :
    exec .mountApply s = .next ((failing s f).endMount stMountFailed 0 f.code) := by
  refine congrArg Host.Outcome.next ?_
  rw [if_neg (by simp [up, freezing]), fails]
  rfl

theorem failed_mnt : let m := ((failing s f).endMount status done detail).mnt
    m.frozen = [] ∧ m.fail = f.word ∧ m.lastOk = false ∧ m.failedCnt = min (s.mnt.failedCnt + 1) 65535 := by
  obtain ⟨active, waiting, applied, ends⟩ := endMount_eq (s := failing s f) (status := status) (done := done) (detail := detail)
  have mnt := congrArg State.mnt ends
  rw [failing_mnt] at mnt
  intro m
  rw [show m = _ from mnt]
  exact ⟨rfl, rfl, rfl, rfl⟩

theorem failed_jobEnds (wf : Memory.wf s.mem = true) (own : s.mnt.active = some (.job id)) (found : s.job id = some j) :
    JobEnds s ((failing s f).endMount status done detail) j status done detail := by
  have mem : (failing s f).mem = s.mem := mem_eq_of_onlyChanges failing_frame (by decide)
  have jobs : (failing s f).jobs = s.jobs := jobs_eq_of_onlyChanges failing_frame (by decide)
  have active : (failing s f).mnt.active = some (.job id) := (congrArg MountState.active failing_mnt).trans own
  have held : (failing s f).job id = some j := by
    rw [State.job, jobs]
    exact found
  exact jobEnds_of_live (live_eq_of_onlyChanges failing_frame (by decide)) (endMount_jobEnds (mem ▸ wf) active held)

theorem mount_fails (up : s.up = true) (wf : Memory.wf s.mem = true) (freezing : s.mnt.freezing = true) (fails : s.mountFail = some f) :
    ∃ t, exec .mountApply s = .next t ∧ t.live = s.live ∧ t.img = s.img ∧ t.arr = s.arr ∧ t.grp = s.grp ∧
      t.shadow = s.mnt.frozen.foldl (fun c w => c.stage w.1 w.2) s.shadow ∧
      t.mnt.frozen = [] ∧ t.mnt.fail = f.word ∧ t.mnt.lastOk = false ∧ t.mnt.failedCnt = min (s.mnt.failedCnt + 1) 65535 ∧
      (∀ id j, s.mnt.active = some (.job id) → s.job id = some j → JobEnds s t j 0x10A 0 f.code) := by
  have frame : OnlyChanges [.rings, .jobs, .led, .gait, .mem, .out, .mnt, .shadow] s ((failing s f).endMount stMountFailed 0 f.code) :=
    OnlyChanges.trans (onlyChanges_mono (by decide) failing_frame) (onlyChanges_mono (by decide) endMount_frame)
  obtain ⟨frozen, word, lastOk, failed⟩ := failed_mnt (s := s) (f := f)
  exact ⟨_, exec_mountApply_of_fail up freezing fails, live_eq_of_onlyChanges frame (by decide), img_eq_of_onlyChanges frame (by decide),
    arr_eq_of_onlyChanges frame (by decide), grp_eq_of_onlyChanges frame (by decide),
    (shadow_eq_of_onlyChanges endMount_frame (by decide)).trans failing_shadow, frozen, word, lastOk, failed,
    fun id j own found => failed_jobEnds wf own found⟩

/-! ## A Mount that applies (R351) -/

/-- The staged values are in effect. -/
def shadowed (s : State) : State := { s with live := s.shadow }

/-- The tables, the streams and the groups of a Mount, its shadows in effect. -/
def imaged (s : State) : State :=
  match s.img.pend with
  | some p => ((shadowed s).mountImage p).mountStreams s.tables s.routesRemoved
  | none => shadowed s

/-- ABANDON acts in the Mount that it is staged for. -/
def abandons (s : State) : Bool := s.shadow.abandon && !s.live.abandon && s.pwr.replayDue

/-- The settings at the apply point have acted. -/
def settled (s : State) : State := (if abandons s then (imaged s).abandon else imaged s).mountSettings s.live

/-- The values that the apply point puts in effect. -/
def inEffect (s : State) : Staged := if abandons s then { s.shadow with holdCfg := s.shadow.holdCfg &&& 0xFFFF } else s.shadow

theorem imaged_frame : OnlyChanges [.acc, .flt, .gait, .grp, .img, .jobs, .led, .mem, .out, .pwr, .rings, .tally, .ing] (shadowed s)
    (imaged s) := by
  unfold imaged
  split
  · apply State.mountStreams_frame
    apply State.mountImage_frame
    exact OnlyChanges.refl _ _
    all_goals decide
  · exact OnlyChanges.refl _ _

/-- The pending image becomes live (R351). -/
theorem mountImage_img {p : Pending} : (s.mountImage p).img.pend = none ∧
    ∃ a, (s.mountImage p).img.live = some a ∧ a.image = p.area.image := by
  unfold State.mountImage
  dsimp only [State.freeTables]
  rw [img_eq_of_onlyChanges (State.copyJournal_frame (fs := [.mem]) _ _ _ _ _ (OnlyChanges.refl _ _) (by decide)) (by decide)]
  exact ⟨rfl, _, rfl, rfl⟩

/-- The image of a Mount: the pending one, where there is one (R351). -/
theorem imaged_img : (imaged s).img.pend = none ∧ (s.img.pend = none → (imaged s).img.live = s.img.live) ∧
    ∀ p, s.img.pend = some p → ∃ a, (imaged s).img.live = some a ∧ a.image = p.area.image := by
  unfold imaged
  split
  · next p pend =>
    have streams := img_eq_of_onlyChanges (State.mountStreams_frame (fs := [.ing, .jobs]) s.tables s.routesRemoved
      ((shadowed s).mountImage p) (OnlyChanges.refl _ _) (by decide) (by decide)) (by decide)
    obtain ⟨none, a, live, image⟩ := mountImage_img (s := shadowed s) (p := p)
    rw [streams]
    refine ⟨none, fun absent => ?_, fun q same => ?_⟩
    · rw [pend] at absent
      cases absent
    · rw [pend] at same
      cases same
      exact ⟨a, live, image⟩
  · next absent => exact ⟨absent, fun _ => rfl, fun p pend => by rw [absent] at pend; cases pend⟩

theorem settled_frame : OnlyChanges [.acc, .flt, .gait, .grp, .ing, .jobs, .led, .mem, .out, .pins, .pwr, .rings, .snd, .tally] (imaged
    s) (settled s) := by
  unfold settled
  apply State.mountSettings_frame
  split
  · apply State.abandon_frame
    exact OnlyChanges.refl _ _
    all_goals decide
  · exact OnlyChanges.refl _ _
  all_goals decide

/-- The apply point, before the held writes land. -/
def effective (s : State) : State :=
  { settled s with live := inEffect s, shadow := inEffect s, mnt := { s.mnt with applied := true } }

theorem applyMount_eq : s.applyMount = (((effective s).thaw).retarget).ledgerMoved.reportMount := by
  have live : (settled s).live = s.shadow :=
    (live_eq_of_onlyChanges settled_frame (by decide)).trans (live_eq_of_onlyChanges imaged_frame (by decide))
  have mnt : (settled s).mnt = s.mnt :=
    (mnt_eq_of_onlyChanges settled_frame (by decide)).trans (mnt_eq_of_onlyChanges (t := imaged s) (s := shadowed s) imaged_frame (by
        decide) :)
  have given : s.applyMount = ((({ settled s with
      live := if abandons s then { (settled s).live with holdCfg := (settled s).live.holdCfg &&& 0xFFFF } else (settled s).live
      shadow := if abandons s then { (settled s).live with holdCfg := (settled s).live.holdCfg &&& 0xFFFF } else (settled s).live
      mnt := { (settled s).mnt with applied := true } } : State).thaw).retarget).ledgerMoved.reportMount := rfl
  rw [given, live, mnt]
  rfl

/-- The apply point, its held writes in the shadows and the gait derived anew. -/
def landed (s : State) : State := (((effective s).thaw).retarget).ledgerMoved

theorem landed_frame : OnlyChanges [.gait, .led, .out] (effective s).thaw (landed s) := by
  unfold landed
  apply State.ledgerMoved_frame
  apply State.retarget_frame
  exact OnlyChanges.refl _ _
  all_goals decide

theorem landed_live : (landed s).live = inEffect s := live_eq_of_onlyChanges landed_frame (by decide)

theorem landed_shadow : (landed s).shadow = s.mnt.frozen.foldl (fun c w => c.stage w.1 w.2) (inEffect s) :=
  shadow_eq_of_onlyChanges landed_frame (by decide)

theorem landed_mnt : (landed s).mnt = { s.mnt with applied := true, frozen := [] } := mnt_eq_of_onlyChanges landed_frame (by decide)

theorem landed_img : (landed s).img = (imaged s).img := by
  have kept : (settled s).img = (imaged s).img := img_eq_of_onlyChanges settled_frame (by decide)
  exact (img_eq_of_onlyChanges landed_frame (by decide)).trans kept

/-! ## The report of a Mount (R352, step 6) -/

theorem reportMount_frame : OnlyChanges [.rings, .jobs, .led, .gait, .mem, .out, .mnt] s s.reportMount :=
  State.reportMount_frame _ (OnlyChanges.refl _ _) (by decide) (by decide) (by decide) (by decide) (by decide) (by decide) (by decide)

/-- A Mount counts as applied. -/
def counted (s : State) : State := { s with mnt := { s.mnt with appliedCnt := satAdd 16 s.mnt.appliedCnt 1, lastOk := true } }

theorem reportMount_of_done (active : s.mnt.active.isSome = true) (applied : s.mnt.applied = true)
    (switched : ∀ g ∈ s.liveGroups, g.switchDue = false) : s.reportMount = (counted s).endMount stJobOk 1 0 :=
  if_pos (by simpa [active, applied] using switched)

theorem reportMount_of_due (due : ∃ g ∈ s.liveGroups, g.switchDue = true) : s.reportMount = s := by
  obtain ⟨g, listed, waits⟩ := due
  exact if_neg (by simpa using fun _ _ => ⟨g, listed, waits⟩)

/-- A Mount whose groups have all switched is counted, and its job has its entry (R352). -/
theorem reportMount_ends (active : s.mnt.active.isSome = true) (applied : s.mnt.applied = true)
    (switched : ∀ g ∈ s.liveGroups, g.switchDue = false) :
    s.reportMount.mnt.appliedCnt = min (s.mnt.appliedCnt + 1) 65535 ∧ s.reportMount.mnt.lastOk = true ∧
      ∀ id x, s.mnt.active = some (.job id) → x ∈ s.reportMount.jobs.jobs → x.id = id →
        x.written = true ∧ x.status = 0x100 ∧ x.done = 1 ∧ x.detail = 0 := by
  rw [reportMount_of_done active applied switched]
  obtain ⟨next, waiting, again, ends⟩ := endMount_eq (s := counted s) (status := stJobOk) (done := 1) (detail := 0)
  refine ⟨?_, ?_, fun id x own left same => endMount_contexts (s := counted s) own left same⟩
  · rw [ends]
    rfl
  · rw [ends]
    rfl

theorem reportMount_frozen : s.reportMount.mnt.frozen = s.mnt.frozen := by
  unfold State.reportMount
  split
  · obtain ⟨next, waiting, again, ends⟩ := endMount_eq (s := counted s) (status := stJobOk) (done := 1) (detail := 0)
    have kept := congrArg (fun t : State => t.mnt.frozen) ends
    exact kept
  · rfl

theorem exec_mountApply_of_pass (up : s.up = true) (freezing : s.mnt.freezing = true) (passes : s.mountFail = none)
    (ready : s.mountWaits = false) : exec .mountApply s = .next (landed s).reportMount := by
  refine congrArg Host.Outcome.next ?_
  rw [if_neg (by simp [up, freezing]), passes, ← show s.applyMount = (landed s).reportMount from applyMount_eq]
  exact if_neg (by simp [ready])

theorem liveGroups_reportMount : s.reportMount.liveGroups = s.liveGroups := by
  rw [State.liveGroups, grp_eq_of_onlyChanges reportMount_frame (by decide), State.liveGroups]

/-- Settles O47: the parts that the apply point keeps, and the report over what it leaves. -/
theorem mountOutcome : Obligations.MountOutcome := by
  refine ⟨fun f s up wf freezing fails => mount_fails up wf freezing fails, fun s up freezing passes waits => ?waits,
    fun s up freezing passes ready => ?applies⟩
  case waits =>
    refine congrArg Host.Outcome.next ?_
    rw [if_neg (by simp [up, freezing]), passes]
    exact if_pos waits
  case applies =>
    have active : (landed s).mnt.active.isSome = true := by
      rw [landed_mnt]
      exact ((Bool.and_eq_true _ _).mp freezing).1
    have applied : (landed s).mnt.applied = true := by rw [landed_mnt]
    have live : (landed s).reportMount.live = inEffect s := (live_eq_of_onlyChanges reportMount_frame (by decide)).trans landed_live
    have shadow : (landed s).reportMount.shadow = s.mnt.frozen.foldl (fun c w => c.stage w.1 w.2) (inEffect s) :=
      (shadow_eq_of_onlyChanges reportMount_frame (by decide)).trans landed_shadow
    have img : (landed s).reportMount.img = (imaged s).img := (img_eq_of_onlyChanges reportMount_frame (by decide)).trans landed_img
    obtain ⟨pend, keeps, takes⟩ := imaged_img (s := s)
    refine ⟨_, exec_mountApply_of_pass up freezing passes ready, ?_, ?_, ?frozen, ?_, ?_, ?_, fun switched => ?_, fun due => ?_⟩
    case frozen => rw [reportMount_frozen, landed_mnt]
    · rw [live, inEffect, abandons]
      simp only [Bool.and_eq_true, Bool.not_eq_true', and_assoc]
    · rw [shadow, live]
    · rw [img, pend]
    · rw [img]
      exact keeps
    · rw [img]
      exact takes
    · rw [liveGroups_reportMount] at switched
      obtain ⟨count, lastOk, ends⟩ := reportMount_ends active applied switched
      rw [landed_mnt] at count ends
      exact ⟨count, lastOk, ends⟩
    · rw [liveGroups_reportMount] at due
      rw [reportMount_of_due due, landed_mnt]
      exact ⟨rfl, rfl⟩

end Sys2Proof.MountEnds
end

section
/-! PROOFS. Group switches and ended planes (R82, R124, R352, R357, R424): that nothing makes a switch due again, and the rows that
an ended plane frees. -/

-- Each theorem is checked before the next one, which bounds the threads that the compiler takes.
set_option Elab.async false

namespace Sys2Proof.PlaneSwitches
open Sys2Proof Sys2Proof.Machine Sys2Proof.Safety Sys2Proof.Laws Sys2Proof.PartsKept
open Sys2Proof.JobEntries (live_eq_of_onlyChanges)
open Sys2Proof.ThermalThresholds (grp_eq_of_onlyChanges)
open Sys2Proof.StagedFields (mnt_eq_of_onlyChanges)
open Sys2Proof.Answering (onlyChanges_mono)
open Sys2Proof.Recoveries (foldl_kept)
open Sys2Proof.MountEnds (reportMount_frame reportMount_ends liveGroups_reportMount)

/-! ## The switches that are due -/

section
variable {s t : State} {g : Group} {d : Detected} {pos n : Nat} {bad : List (Nat × Nat)}

/-- The groups by their running numbers, with the switches that are due. -/
def switches (s : State) : List (Nat × Bool) := s.grp.groups.map (fun g => (g.gid, g.switchDue))

theorem switches_of_frame {fs : List Part} (frame : OnlyChanges fs s t) (kept : Part.grp ∉ fs) : switches t = switches s := by
  rw [switches, grp_eq_of_onlyChanges frame kept, switches]

theorem switches_modGroup {f : Group → Group} (gid : ∀ x, (f x).gid = x.gid) (due : ∀ x, (f x).switchDue = x.switchDue) :
    switches (s.modGroup n f) = switches s := by
  simp only [switches, State.modGroup, List.map_map, List.map_inj_left]
  intro x _
  by_cases own : x.gid = n
  · simp [own, gid, due]
  · simp [own]

theorem switches_forget {j i : Nat} : switches (s.forget j i) = switches s := by
  simp only [switches, State.forget, List.map_map, List.map_inj_left]
  intro x _
  rfl

theorem switches_voidPlace {j : Job} {i status : Nat} {multi overs : Bool} : switches (s.voidPlace j i status multi overs) = switches s
    := by
  have placed : switches (s.ensurePlace j i) = switches s :=
    switches_of_frame (State.ensurePlace_frame (fs := [.acc]) _ _ _ (OnlyChanges.refl _ _) (by decide)) (by decide)
  unfold State.voidPlace
  dsimp only
  split
  · exact placed
  · next x p found =>
    have undone : OnlyChanges [.acc, .tally, .mem, .rings] (s.ensurePlace j i)
        (((((s.ensurePlace j i).undoWrite j i p).countVoided j i p.markB p.oweB).modPlace j.stream (j.seqOf i) j.id
          (fun q => { q with markA := true, markB := true, oweA := [], oweB := [], paid := true })).settle j i status multi overs false)
              := by
      apply State.settle_frame
      apply State.modPlace_frame
      apply State.countVoided_frame
      apply State.undoWrite_frame
      exact OnlyChanges.refl _ _
      all_goals decide
    have forgotten := (switches_forget (j := j.id) (i := i)).trans ((switches_of_frame undone (by decide)).trans placed)
    split
    · exact forgotten
    · exact (switches_of_frame (State.pay_frame (fs := [.gait, .jobs, .led, .out]) _ _ (OnlyChanges.refl _ _) (by decide) (by decide)
        (by decide) (by decide)) (by decide)).trans forgotten

theorem switches_logEvent {ev cls rung detail : Nat} : switches (s.logEvent ev cls rung d detail) = switches s :=
  switches_of_frame (State.logEvent_frame (fs := [.flt, .out, .pins]) _ _ _ _ _ _ (OnlyChanges.refl _ _) (by decide) (by decide) (by
      decide))
    (by decide)

theorem switches_suspendModels {ms : List Nat} : switches (s.suspendModels g ms) = switches s := by
  have voided : switches (s.voidSuspended g ms) = switches s := by
    refine foldl_kept (side := switches) (fun t x => ?_) _ s
    split
    · split
      · exact switches_voidPlace
      · rfl
    · rfl
  exact (switches_modGroup (f := fun x => { x with suspended := ms.foldl insertNat x.suspended }) (fun _ => rfl) (fun _ => rfl)).trans
      voided

theorem switches_suspendAt : switches (s.suspendAt pos d) = switches s := by
  have suspended : switches ((s.groupsAt pos).foldl (fun (t : State) g => t.suspendModels g (s.modelsAt g pos)) s) = switches s :=
    foldl_kept (side := switches) (fun _ _ => switches_suspendModels) _ s
  have out (u : State) : switches ((u.interruptLoad pos).putOut pos) = switches u :=
    switches_of_frame (fs := [.arr, .gait, .img, .out]) (State.putOut_frame _ _ (State.interruptLoad_frame _ _ (OnlyChanges.refl _ _)
      (by decide) (by decide) (by decide) (by decide)) (by decide)) (by decide)
  exact switches_logEvent.trans ((out _).trans suspended)

theorem switches_foldDouble {r : State × Nat} (doubled : s.foldDouble pos = some r) : switches r.1 = switches s := by
  unfold State.foldDouble at doubled
  split at doubled
  · next g only =>
    dsimp only at doubled
    split at doubled
    · cases doubled
    · obtain ⟨u, moved, rfl⟩ := Option.map_eq_some_iff.mp doubled
      have cut : OnlyChanges [.arr, .gait, .img, .out] s (((List.range g.size).map (g.base + ·)).foldl State.interruptLoad s) :=
        OnlyChanges.foldl _ (OnlyChanges.refl _ _) fun _ _ frame =>
          State.interruptLoad_frame _ _ frame (by decide) (by decide) (by decide) (by decide)
      have moves := switches_of_frame (State.moveTrees_frame _ cut _ _ _ _ (by decide) _ moved) (by decide)
      exact (switches_modGroup (f := Group.refolded) (fun _ => rfl) (fun _ => rfl)).trans moves
  · cases doubled

/-- A refold keeps the switches: no rung of it makes one due (R410 to R413). -/
theorem switches_refoldAt : switches (s.refoldAt pos d) = switches s := by
  have out (u : State) {ev cls rung n : Nat} : switches (((u.interruptLoad pos).putOut pos).logEvent ev cls rung d n) = switches u :=
    switches_logEvent.trans (switches_of_frame (fs := [.arr, .gait, .img, .out]) (State.putOut_frame _ _ (State.interruptLoad_frame _ _
      (OnlyChanges.refl _ _) (by decide) (by decide) (by decide) (by decide)) (by decide)) (by decide))
  unfold State.refoldAt
  split
  · exact switches_of_frame (State.borrow_frame (fs := [.arr, .flt, .gait, .img, .out, .pins]) _ _ _ _ (OnlyChanges.refl _ _) (by decide)
      (by decide) (by decide) (by decide) (by decide) (by decide)) (by decide)
  · split
    · next t m spreads =>
      split at spreads
      · cases spreads
      · exact (out t).trans (switches_of_frame (State.spread_frame (fs := [.arr]) _ (OnlyChanges.refl _ _) _ (by decide) _ spreads)
          (by decide))
    · split
      · next t m doubles =>
        split at doubles
        · cases doubles
        · exact (out t).trans (switches_foldDouble doubles)
      · exact switches_suspendAt

theorem switches_leaveTandem : switches (s.leaveTandem g d) = switches s := by
  have freed : OnlyChanges [.arr] s (((List.range g.size).map (g.base + ·)).foldl State.freeTwin s) :=
    OnlyChanges.foldl _ (OnlyChanges.refl _ _) fun _ _ frame => State.freeTwin_frame _ _ frame (by decide)
  have left (u : State) : switches ((u.modGroup g.gid (fun x => { x with tandem := false })).retarget) = switches u :=
    (switches_of_frame (State.retarget_frame (fs := [.gait, .out]) _ (OnlyChanges.refl _ _) (by decide) (by decide)) (by decide)).trans
      (switches_modGroup (f := fun x => { x with tandem := false }) (fun _ => rfl) (fun _ => rfl))
  have kept := switches_of_frame freed (by decide)
  exact switches_logEvent.trans ((left _).trans kept)

theorem switches_replaceArray : switches (s.replaceArray pos bad d) = switches s := by
  have spare : switches (s.takeSpare bad d 2).2 = switches s :=
    switches_of_frame (State.takeSpare_frame (fs := [.arr, .flt, .out, .pins]) _ _ _ _ (OnlyChanges.refl _ _) (by decide) (by decide)
      (by decide) (by decide)) (by decide)
  unfold State.replaceArray
  split
  · next p t taken =>
    rw [taken] at spare
    exact (switches_of_frame (State.remountOnto_frame (fs := [.arr, .flt, .gait, .img, .out, .pins]) _ _ _ _ (OnlyChanges.refl _ _)
      (by decide) (by decide) (by decide) (by decide) (by decide) (by decide)) (by decide)).trans spare
  · next t none =>
    rw [none] at spare
    split
    · exact switches_refoldAt.trans spare
    · split
      · exact switches_leaveTandem.trans spare
      · exact spare

theorem switches_loadTwin : switches (s.loadTwin bad n pos) = switches s := by
  have logged (u : State) (e : Detected) (ws : List Nat) : switches (u.logReadbacks e ws) = switches u :=
    switches_of_frame (State.logReadbacks_frame (fs := [.flt, .out, .pins]) _ _ _ (OnlyChanges.refl _ _) (by decide) (by decide)
      (by decide)) (by decide)
  have copied : switches (s.copyTwin pos) = switches s :=
    switches_of_frame (State.copyTwin_frame (fs := [.arr]) _ _ (OnlyChanges.refl _ _) (by decide)) (by decide)
  unfold State.loadTwin
  split
  · unfold State.checkTwin
    dsimp only
    split
    · exact (logged _ _ _).trans copied
    · exact switches_replaceArray.trans (switches_logEvent.trans ((logged _ _ _).trans copied))
  · rfl

end

/-! ## The switch of a group (R82) -/

section
variable {s : State} {g : Group} {bad : List (Nat × Nat)} {base : Nat}

/-- A group is marked as switched, with its Tandem setting (R423). -/
def switched (s : State) (g : Group) : State :=
  s.modGroup g.gid (fun x => { x with switchDue := false, tandem := s.tandemSet s.live.twin g.base g.size })

/-- The twins of a group that has switched are loaded, or free. -/
def twinned (s : State) (g : Group) (bad : List (Nat × Nat)) : State :=
  if s.tandemSet s.live.twin g.base g.size then
    ((List.range g.size).map (g.base + ·)).foldl (fun (t : State) p => t.loadTwin bad g.gid p) (switched s g)
  else if g.tandem then ((List.range g.size).map (g.base + ·)).foldl State.freeTwin (switched s g)
  else switched s g

theorem switchGroup_eq : s.switchGroup g bad = (twinned s g bad).retarget := rfl

theorem exec_groupPlaneSwitch_of_due (up : s.up = true) (found : s.group base = some g) (due : g.switchDue = true)
    (runs : g.paused = false) (boundary : s.atBoundary g = true) :
    exec (.groupPlaneSwitch base bad) s = .next (s.switchGroup g bad).reportMount := by
  refine congrArg Host.Outcome.next ?_
  rw [found]
  exact if_pos (by simp [up, due, runs, boundary])

theorem exec_groupPlaneSwitch_of_waiting (found : s.group base = some g)
    (waits : g.switchDue = false ∨ g.paused = true ∨ s.atBoundary g = false) : exec (.groupPlaneSwitch base bad) s = .next s := by
  refine congrArg Host.Outcome.next ?_
  rw [found]
  refine if_neg ?_
  rcases waits with quiet | paused | inside
  · simp [quiet]
  · simp [paused]
  · simp [inside]

theorem switches_switchGroup : switches (s.switchGroup g bad) = switches (switched s g) := by
  have twins : switches (twinned s g bad) = switches (switched s g) := by
    unfold twinned
    split
    · exact foldl_kept (side := switches) (fun _ _ => switches_loadTwin) _ _
    · split
      · exact foldl_kept (side := switches) (fun _ _ => switches_of_frame (State.freeTwin_frame (fs := [.arr]) _ _ (OnlyChanges.refl _ _)
          (by decide)) (by decide)) _ _
      · rfl
  exact (switches_of_frame (State.retarget_frame (fs := [.gait, .out]) _ (OnlyChanges.refl _ _) (by decide) (by decide)) (by
      decide)).trans
    twins

/-- A group that has switched has no switch due. -/
theorem switchGroup_done {x : Group} (listed : x ∈ (s.switchGroup g bad).grp.groups) (own : x.gid = g.gid) : x.switchDue = false := by
  have shown : (x.gid, x.switchDue) ∈ switches (switched s g) :=
    switches_switchGroup (s := s) (g := g) (bad := bad) ▸ List.mem_map_of_mem listed
  obtain ⟨y, held, same⟩ := List.mem_map.mp shown
  obtain ⟨z, -, rfl⟩ := List.mem_map.mp held
  obtain ⟨gid, due⟩ := Prod.mk.inj same
  rw [← due]
  split
  · rfl
  · next other =>
    rw [if_neg other] at gid
    exact absurd (gid.trans own) other

theorem switchGroup_frame :
    OnlyChanges [.img, .acc, .rings, .jobs, .arr, .grp, .tally, .led, .gait, .flt, .pins, .mem, .out] s (s.switchGroup g bad) :=
  State.switchGroup_frame _ _ _ (OnlyChanges.refl _ _) (by decide) (by decide) (by decide) (by decide) (by decide) (by decide) (by decide)
    (by decide) (by decide) (by decide) (by decide) (by decide) (by decide)

/-- A group that is not in Tandem has only twins to free. -/
theorem switchGroup_of_alone (alone : s.tandemSet s.live.twin g.base g.size = false) :
    OnlyChanges [.arr, .grp, .gait, .out] s (s.switchGroup g bad) ∧ (s.switchGroup g bad).grp = (switched s g).grp := by
  have twins : OnlyChanges [.arr] (switched s g) (twinned s g bad) := by
    unfold twinned
    rw [if_neg (by simp [alone])]
    split
    · exact OnlyChanges.foldl _ (OnlyChanges.refl _ _) fun _ _ frame => State.freeTwin_frame _ _ frame (by decide)
    · exact OnlyChanges.refl _ _
  have aimed : OnlyChanges [.arr, .gait, .out] (switched s g) (s.switchGroup g bad) :=
    State.retarget_frame _ (onlyChanges_mono (by decide) twins) (by decide) (by decide)
  refine ⟨OnlyChanges.trans ?_ (onlyChanges_mono (by decide) aimed), grp_eq_of_onlyChanges aimed (by decide)⟩
  exact State.modGroup_frame _ _ _ (OnlyChanges.refl _ _) (by decide)

end

/-! ## The rows of an ended plane (R124) -/

section
variable {s : State} {g : Group} {a b : Arrays} {phys pos : Nat} {π : Bool}

/-- No row of a plane of an array is valid. -/
def PlaneFree (phys : Nat) (π : Bool) (a : Arrays) : Prop :=
  ∀ x ∈ a.rows, rowAt phys 0 0 ≤ x.1 → x.1 < rowAt phys 0 0 + 18432 → x.2.plane = π → x.2.valid = false

theorem planeFree_clearPlane : PlaneFree phys π (a.clearPlane pos phys π) := by
  intro x listed low high plane
  obtain ⟨y, -, rfl⟩ := List.mem_map.mp listed
  by_cases kept : (!(decide (rowAt phys 0 0 ≤ y.1) && decide (y.1 < rowAt phys 0 0 + 18432)) || y.2.plane != π) = true
  · rw [if_pos kept] at low high plane
    simp [low, high, plane] at kept
  · rw [if_neg kept]
    rfl

theorem PlaneFree.clearPlane {phys' : Nat} {π' : Bool} (free : PlaneFree phys π a) : PlaneFree phys π (a.clearPlane pos phys' π') := by
  intro x listed low high plane
  obtain ⟨y, held, rfl⟩ := List.mem_map.mp listed
  by_cases kept : (!(decide (rowAt phys' 0 0 ≤ y.1) && decide (y.1 < rowAt phys' 0 0 + 18432)) || y.2.plane != π') = true
  · rw [if_pos kept] at low high plane ⊢
    exact free y held low high plane
  · rw [if_neg kept]
    rfl

/-- A row of a plane that is free is not valid. -/
theorem PlaneFree.row {bank r : Nat} (free : PlaneFree phys π a) (bankRange : bank < 16) (rowRange : r < 1152)
    (plane : (a.row phys bank r).plane = π) : (a.row phys bank r).valid = false := by
  by_cases default : a.row phys bank r = freeRow
  · rw [default]
    rfl
  · obtain ⟨x, listed, place⟩ : ∃ x ∈ a.rows, x = (rowAt phys bank r, a.row phys bank r) := ⟨_, KeptStores.mem_of_sget_ne default, rfl⟩
    have shown := free x listed
    rw [place] at shown
    exact shown (by unfold rowAt; omega) (by unfold rowAt; omega) plane

/-- The wipe of a plane of a position. -/
def wiped (s : State) (g : Group) (a : Arrays) (x : Nat × Nat) (π : Bool) : Arrays :=
  if s.grp.groups.any (fun h => h.gid != g.gid && h.planes.contains π && decide (h.base ≤ x.1) && decide (x.1 < h.base + h.size)) then a
  else { a.clearPlane x.1 (s.physOf x.2) π with
    moves := (a.clearPlane x.1 (s.physOf x.2) π).moves.filter (fun m => !(m.fromPos == x.1 && m.fromPlane == π)) }

/-- The wipes of the planes of a group at the places of one position after another. -/
def wipedAll (s : State) (g : Group) (spots : List (Nat × Nat)) (a : Arrays) : Arrays :=
  spots.foldl (fun (a : Arrays) x => g.planes.foldl (fun (b : Arrays) π => wiped s g b x π) a) a

/-- The places of a group's positions. -/
def spots (s : State) (g : Group) : List (Nat × Nat) :=
  ((List.range g.size).map (g.base + ·)).flatMap (fun p => (s.copiesOf p).map (fun q => (p, q)))

theorem endGroup_eq : (s.endGroup g).arr = wipedAll s g (spots s g) s.arr ∧
    (s.endGroup g).grp = { s.grp with groups := s.grp.groups.filter (fun h => h.gid != g.gid) } := by
  unfold State.endGroup
  dsimp only
  split <;> exact ⟨rfl, rfl⟩

theorem PlaneFree.wiped {x : Nat × Nat} {π' : Bool} (free : PlaneFree phys π a) : PlaneFree phys π (wiped s g a x π') := by
  unfold PlaneSwitches.wiped
  split
  · exact free
  · exact free.clearPlane (pos := x.1)

theorem foldl_invariant {α β : Type} {P : β → Prop} {f : β → α → β} {xs : List α} {b : β} (kept : ∀ b x, P b → P (f b x)) (holds : P b) :
    P (xs.foldl f b) := by
  induction xs generalizing b with
  | nil => exact holds
  | cons x xs ih => exact ih (kept b x holds)

/-- A fold brings about what one of its steps does, where every step keeps it. -/
theorem foldl_reaches {α β : Type} {P : β → Prop} {f : β → α → β} {xs : List α} {x : α} (b : β) (kept : ∀ b x, P b → P (f b x))
    (listed : x ∈ xs) (reaches : ∀ b, P (f b x)) : P (xs.foldl f b) := by
  induction xs generalizing b with
  | nil => cases listed
  | cons y ys ih =>
    rw [List.foldl_cons]
    rcases List.mem_cons.mp listed with rfl | later
    · exact foldl_invariant (P := P) kept (reaches b)
    · exact ih (f b y) later

theorem planeFree_wipedAll {x : Nat × Nat} {xs : List (Nat × Nat)} (listed : x ∈ xs) (plane : π ∈ g.planes)
    (alone : ∀ h ∈ s.grp.groups, h.gid ≠ g.gid → π ∈ h.planes → ¬(h.base ≤ x.1 ∧ x.1 < h.base + h.size)) :
    PlaneFree (s.physOf x.2) π (wipedAll s g xs a) := by
  refine foldl_reaches (P := PlaneFree (s.physOf x.2) π) a (fun b y free => foldl_invariant (fun c p free => free.wiped) free) listed
    fun b => foldl_reaches (P := PlaneFree (s.physOf x.2) π) b (fun c p free => free.wiped) plane fun c => ?_
  have idle : s.grp.groups.any (fun h => h.gid != g.gid && h.planes.contains π && decide (h.base ≤ x.1) && decide (x.1 < h.base +
      h.size)) =
      false := by
    rw [List.any_eq_false]
    intro h listed holds
    simp only [Bool.and_eq_true, bne_iff_ne, ne_eq, List.contains_iff_mem, decide_eq_true_eq] at holds
    obtain ⟨⟨⟨other, held⟩, low⟩, high⟩ := holds
    exact alone h listed other held ⟨low, high⟩
  unfold PlaneSwitches.wiped
  rw [idle]
  exact planeFree_clearPlane (pos := x.1)

theorem mem_copiesOf_self : pos ∈ s.copiesOf pos := by
  unfold State.copiesOf State.copyOffsets
  split <;> simp

theorem mem_spots (low : g.base ≤ pos) (high : pos < g.base + g.size) : (pos, pos) ∈ spots s g := by
  refine List.mem_flatMap.mpr ⟨pos, List.mem_map.mpr ⟨pos - g.base, List.mem_range.mpr (by omega), by omega⟩, ?_⟩
  exact List.mem_map.mpr ⟨pos, mem_copiesOf_self, rfl⟩

theorem endGroup_frame : OnlyChanges [.img, .arr, .grp, .flt] s (s.endGroup g) := by
  unfold State.endGroup
  dsimp only
  split <;> rfl

end

/-- Settles O48: a switch makes none due again, and the planes of an ended group are wiped one after the other. -/
theorem groupSwitches : Obligations.GroupSwitches := by
  refine ⟨fun base bad g s up found due runs boundary => ?switches, fun base bad g s found waits => exec_groupPlaneSwitch_of_waiting
      found waits,
    fun n g s up found ended idle empty runs patches => ?ends, fun n g s found stays => ?stays⟩
  case switches =>
    have whole : OnlyChanges [.img, .acc, .rings, .jobs, .arr, .grp, .tally, .mnt, .led, .gait, .flt, .pins, .mem, .out] s
        (s.switchGroup g bad).reportMount :=
      OnlyChanges.trans (onlyChanges_mono (by decide) switchGroup_frame) (onlyChanges_mono (by decide) reportMount_frame)
    have groups : (s.switchGroup g bad).reportMount.grp = (s.switchGroup g bad).grp := grp_eq_of_onlyChanges reportMount_frame (by decide)
    have mnt : (s.switchGroup g bad).mnt = s.mnt := mnt_eq_of_onlyChanges switchGroup_frame (by decide)
    refine ⟨_, exec_groupPlaneSwitch_of_due up found due runs boundary, whole, fun x listed own => ?_, fun alone => ?_,
      fun all active applied => ?_⟩
    · rw [groups] at listed
      exact switchGroup_done listed own
    · obtain ⟨frame, only⟩ := switchGroup_of_alone (bad := bad) alone
      refine ⟨OnlyChanges.trans (onlyChanges_mono (by decide) frame) (onlyChanges_mono (by decide) reportMount_frame), ?_⟩
      rw [groups, only, switched, alone]
      rfl
    · rw [liveGroups_reportMount] at all
      obtain ⟨count, lastOk, done⟩ := reportMount_ends (mnt ▸ active) (mnt ▸ applied) all
      rw [mnt] at count done
      refine ⟨count, lastOk, fun id x own left same => ?_⟩
      obtain ⟨written, status, one, -⟩ := done id x own left same
      exact ⟨written, status, one⟩
  case ends =>
    have own : g.gid = n := by simpa using List.find?_some found
    subst own
    obtain ⟨arr, grp⟩ := endGroup_eq (s := s) (g := g)
    have runsEnd : exec (.planeEndInvalidate g.gid) s = .next (s.endGroup g) := by
      refine congrArg Host.Outcome.next ?_
      rw [found]
      exact if_pos (by simpa [up, ended, idle, empty, runs] using patches)
    refine ⟨_, runsEnd, endGroup_frame, grp, fun pos bank r π low high plane bankRange rowRange alone => ?_⟩
    rw [arr]
    exact (planeFree_wipedAll (mem_spots low high) plane alone).row bankRange rowRange
  case stays =>
    refine congrArg Host.Outcome.next ?_
    rw [found]
    refine if_neg ?_
    rcases stays with live | busy
    · simp [live]
    · simp [busy]

end Sys2Proof.PlaneSwitches
end

section
/-! PROOFS. Dispatch into a group (R17, R78, R119, R257, R298, R334, R391): the feature buffers that a pass is loaded into, the attempt
that it begins, the check that stops it, the run of a group in Double, and an entry whose CRC fails. -/

-- Each theorem is checked before the next one, which bounds the threads that the compiler takes.
set_option Elab.async false

namespace Sys2Proof.Dispatching
open Sys2Proof Sys2Proof.Machine Sys2Proof.Safety Sys2Proof.Laws Sys2Proof.PartsKept
open Sys2Proof.JobEntries (job_id)
open Sys2Proof.Answering (onlyChanges_mono)

/-! ## Feature buffers (R17) -/

section
variable {a : Arrays} {phys phys' : Nat} {x : FeaturePlace} {s : State} {g : Group} {ps : List Nat}

/-- What an array compares is given. -/
def Compares (x : FeaturePlace) (phys : Nat) (a : Arrays) : Prop := a.buffer phys (a.comparePlace phys) = x

theorem loadPlace_le_one : a.loadPlace phys ≤ 1 := by
  unfold Arrays.loadPlace flag
  split <;> omega

theorem loadPlace_load : (a.load phys x).loadPlace phys' =
    flag (bitOf a.nextPlace.toNat phys' ^^ bitOf (2 ^ phys % 2 ^ 34) phys') := by
  show flag (bitOf (a.nextPlace ^^^ BitVec.ofNat 34 (2 ^ phys)).toNat phys') = _
  rw [BitVec.toNat_xor, BitVec.toNat_ofNat, bitOf, Nat.testBit_xor, bitOf, bitOf]

theorem loadPlace_load_same (array : phys < 34) : (a.load phys x).loadPlace phys = 1 - a.loadPlace phys := by
  have bit : bitOf (2 ^ phys % 2 ^ 34) phys = true := by
    rw [Nat.mod_eq_of_lt (Nat.pow_lt_pow_right (by decide) array), bitOf, Nat.testBit_two_pow_self]
  rw [loadPlace_load, bit, Arrays.loadPlace]
  cases bitOf a.nextPlace.toNat phys <;> rfl

theorem loadPlace_load_other (other : phys' ≠ phys) : (a.load phys x).loadPlace phys' = a.loadPlace phys' := by
  have bit : bitOf (2 ^ phys % 2 ^ 34) phys' = false := by
    rw [bitOf, Nat.testBit_mod_two_pow, Nat.testBit_two_pow_of_ne (Ne.symm other), Bool.and_false]
  rw [loadPlace_load, bit, Bool.xor_false]
  rfl

theorem buffer_load {place : Nat} (canonical : sparseOk FeaturePlace.empty a.buffers = true) :
    (a.load phys x).buffer phys' place = if phys' * 2 + place = phys * 2 + a.loadPlace phys then x else a.buffer phys' place :=
  sget_sset canonical

/-- A load is what the array compares next. -/
theorem compares_load (canonical : sparseOk FeaturePlace.empty a.buffers = true) (array : phys < 34) : Compares x phys (a.load phys x) :=
    by
  have low := loadPlace_le_one (a := a) (phys := phys)
  rw [Compares, Arrays.comparePlace, loadPlace_load_same array, buffer_load canonical, if_pos (by omega)]

/-- A load leaves what another array compares. -/
theorem Compares.load (compares : Compares x phys a) (canonical : sparseOk FeaturePlace.empty a.buffers = true) (array : phys < 34) :
    Compares x phys (a.load phys' x) := by
  by_cases same : phys' = phys
  · rw [same]
    exact compares_load canonical array
  · have low := loadPlace_le_one (a := a) (phys := phys')
    rw [Compares, Arrays.comparePlace, loadPlace_load_other (Ne.symm same), buffer_load canonical, if_neg (by omega)]
    exact compares

/-- The arrays of some positions, each loaded. -/
def loadAll (s : State) (x : FeaturePlace) (ps : List Nat) (a : Arrays) : Arrays := ps.foldl (fun a pos => a.load (s.physOf pos) x) a

theorem loadAll_canonical (canonical : sparseOk FeaturePlace.empty a.buffers = true) :
    sparseOk FeaturePlace.empty (loadAll s x ps a).buffers = true :=
  List.foldlRecOn (motive := fun b : Arrays => sparseOk FeaturePlace.empty b.buffers = true) ps _ canonical fun _ ok _ _ => sparseOk_sset
      ok

theorem compares_loadAll {q : Nat} (canonical : sparseOk FeaturePlace.empty a.buffers = true) (array : s.physOf q < 34)
    (done : q ∈ ps ∨ Compares x (s.physOf q) a) : Compares x (s.physOf q) (loadAll s x ps a) := by
  induction ps generalizing a with
  | nil => exact done.resolve_left List.not_mem_nil
  | cons p ps ih =>
    refine ih (sparseOk_sset canonical) ?_
    rcases done with listed | compares
    · rcases List.mem_cons.mp listed with rfl | later
      · exact .inr (compares_load canonical array)
      · exact .inl later
    · exact .inr (compares.load canonical array)

/-- A load touches the buffers and the places that they take next. -/
theorem loadAll_eq : ∃ buffers next, loadAll s x ps a = { a with buffers := buffers, nextPlace := next } := by
  refine List.foldlRecOn (motive := fun b : Arrays => ∃ buffers next, b = { a with buffers := buffers, nextPlace := next }) ps _ ⟨_, _,
      rfl⟩ ?_
  rintro b ⟨buffers, next, rfl⟩ p -
  exact ⟨_, _, rfl⟩

/-- The arrays of a group with the features of a pass. -/
def loaded (s : State) (g : Group) (x : FeaturePlace) : Arrays := loadAll s x (s.comparing g) s.arr

theorem loadBuffers_eq : s.loadBuffers g x [] = { s with arr := loaded s g x } := rfl

theorem loaded_comparing : (s.loadBuffers g x []).comparing g = s.comparing g := by
  obtain ⟨buffers, next, same⟩ := loadAll_eq (s := s) (x := x) (ps := s.comparing g) (a := s.arr)
  rw [loadBuffers_eq, loaded, same]
  rfl

theorem loaded_physOf {pos : Nat} : (s.loadBuffers g x []).physOf pos = s.physOf pos := by
  obtain ⟨buffers, next, same⟩ := loadAll_eq (s := s) (x := x) (ps := s.comparing g) (a := s.arr)
  rw [loadBuffers_eq, loaded, same]
  rfl

theorem loaded_usedSlots {plane : Bool} : (loaded s g x).usedSlots phys plane = s.arr.usedSlots phys plane := by
  obtain ⟨buffers, next, same⟩ := loadAll_eq (s := s) (x := x) (ps := s.comparing g) (a := s.arr)
  rw [loaded, same]
  rfl

theorem loaded_cell {plane : Bool} {slot c : Nat} : (loaded s g x).cell phys plane slot c = s.arr.cell phys plane slot c := by
  obtain ⟨buffers, next, same⟩ := loadAll_eq (s := s) (x := x) (ps := s.comparing g) (a := s.arr)
  rw [loaded, same]
  rfl

end

/-! ## The attempt of a pass (R78, R119) -/

section
variable {s : State} {g : Group} {j : Job} {h : Head} {i pass : Nat} {plane : Bool} {m : ModelDef} {x : FeaturePlace}

/-- The slot words that the positions of a group latch. -/
def latched (s : State) (g : Group) (m : ModelDef) (plane : Bool) (x : FeaturePlace) : List (Nat × Word) :=
  (s.comparing g).flatMap (fun pos => (s.arr.usedSlots (s.physOf pos) plane).map (fun d =>
    (pos * 256 + d.1, slotWord ((s.loadBuffers g x []).sample m (s.physOf pos)) (fun c => (s.arr.cell (s.physOf pos) plane d.1 c).cfg))))

/-- The attempt that a pass of a record begins. -/
def begun (s : State) (g : Group) (j : Job) (h : Head) (i pass : Nat) (plane : Bool) (m : ModelDef) : Attempt :=
  (s.loadBuffers g (h.features m (j.op == opTremolo) pass) []).newAttempt g j h i pass plane m

theorem begun_words : (begun s g j h i pass plane m).words = latched s g m plane (h.features m (j.op == opTremolo) pass) := by
  show ((s.loadBuffers g (h.features m (j.op == opTremolo) pass) []).comparing g).flatMap _ = _
  rw [loaded_comparing]
  refine List.flatMap_congr fun pos _ => ?_
  rw [State.wordsAt, loaded_physOf, loadBuffers_eq, loaded_usedSlots]
  dsimp only
  simp only [loaded_cell]

/-- The first check of the comparison that fails. -/
def stopped (s : State) (g : Group) (j : Job) (h : Head) (i pass : Nat) (plane : Bool) (m : ModelDef) : Option Detected :=
  (s.loadBuffers g (h.features m (j.op == opTremolo) pass) []).attemptFault g (begun s g j h i pass plane m) m.model

/-- A pass has entered its group, before its checks. -/
def entered (s : State) (g : Group) (j : Job) (h : Head) (i pass : Nat) (plane : Bool) (m : ModelDef) : State :=
  { s.modPlace h.stream h.seq j.id (fun p => p.take g s.grp.nextAttempt plane) with
    arr := loaded s g (h.features m (j.op == opTremolo) pass)
    grp := { s.grp with nextAttempt := s.grp.nextAttempt + 1, attempts := s.grp.attempts ++ [begun s g j h i pass plane m] } }

theorem enter_eq : s.enter g j h i pass plane m [] = match stopped s g j h i pass plane m with
    | some d => (entered s g j h i pass plane m).failAttempt (begun s g j h i pass plane m) d
    | none => entered s g j h i pass plane m := rfl

theorem entered_frame : OnlyChanges [.acc, .arr, .grp] s (entered s g j h i pass plane m) := rfl

theorem stopped_eq_none (clean : ∀ pos ∈ s.comparing g, (s.loadBuffers g (h.features m (j.op == opTremolo) pass) []).compareFault g plane
    pos = none)
    (twins : g.tandem = true → tandemWordFault g (latched s g m plane (h.features m (j.op == opTremolo) pass)) = none) :
    stopped s g j h i pass plane m = none := by
  have none_ : (s.comparing g).findSome? ((s.loadBuffers g (h.features m (j.op == opTremolo) pass) []).compareFault g plane) = none :=
    List.findSome?_eq_none_iff.mpr clean
  unfold stopped State.attemptFault
  rw [loaded_comparing, show (begun s g j h i pass plane m).plane = plane from rfl, none_, begun_words]
  dsimp only
  split
  · next tandem =>
    rw [twins tandem]
    rfl
  · rfl

/-- The fault that stops a pass: the first of its comparison, or else that of its twins' words (R391, R425). -/
theorem stopped_eq_some (fault : (∃ pos ∈ s.comparing g, (s.loadBuffers g (h.features m (j.op == opTremolo) pass) []).compareFault g
    plane pos ≠ none) ∨
      (g.tandem = true ∧ tandemWordFault g (latched s g m plane (h.features m (j.op == opTremolo) pass)) ≠ none)) :
    ∃ d, stopped s g j h i pass plane m = some d ∧ d.grp = g.gid ∧
      (∀ e, (s.comparing g).findSome? ((s.loadBuffers g (h.features m (j.op == opTremolo) pass) []).compareFault g plane) = some e → d =
          e) ∧
      ((s.comparing g).findSome? ((s.loadBuffers g (h.features m (j.op == opTremolo) pass) []).compareFault g plane) = none →
        d.check = evTandem ∧ some (d.pos, d.slot) = tandemWordFault g (latched s g m plane (h.features m (j.op == opTremolo) pass))) := by
  unfold stopped State.attemptFault
  rw [loaded_comparing, show (begun s g j h i pass plane m).plane = plane from rfl, begun_words]
  cases first : (s.comparing g).findSome? ((s.loadBuffers g (h.features m (j.op == opTremolo) pass) []).compareFault g plane) with
  | some d =>
    refine ⟨d, rfl, ?_, fun e same => Option.some.inj same, fun absent => by cases absent⟩
    obtain ⟨pos, -, shown⟩ := List.exists_of_findSome?_eq_some first
    unfold State.compareFault at shown
    dsimp only at shown
    split at shown
    · cases shown
      rfl
    · split at shown
      · cases shown
      · cases shown
        rfl
  | none =>
    have clean := List.findSome?_eq_none_iff.mp first
    obtain ⟨tandem, words⟩ := fault.resolve_left fun ⟨pos, listed, fails⟩ => fails (clean pos listed)
    obtain ⟨w, word⟩ := Option.ne_none_iff_exists'.mp words
    rw [if_pos tandem, word]
    exact ⟨_, rfl, rfl, fun e absent => by (cases absent), fun _ => ⟨rfl, rfl⟩⟩

end

/-! ## A pass that a check stops (R391) -/

section
variable {s : State} {a : Attempt} {d : Detected} {g : Group}

theorem mem_insertMark {x : Nat × Nat × Nat} (xs : List (Nat × Nat × Nat)) : x ∈ insertMark xs x := by
  induction xs with
  | nil => exact List.mem_singleton.mpr rfl
  | cons y ys ih =>
    unfold insertMark
    split
    · exact List.mem_cons_self
    · exact List.mem_cons_of_mem _ ih

theorem cut_gid : g.cut.gid = g.gid := by
  unfold Group.cut
  split <;> rfl

theorem cut_hasMark {j i : Nat} : g.cut.hasMark j i = g.hasMark j i := by
  unfold Group.cut
  split <;> rfl

theorem mark_gid : (g.mark a).gid = g.gid := cut_gid

theorem mark_hasMark : (g.mark a).hasMark a.job a.idx = true := by
  unfold Group.mark
  dsimp only
  split
  · next held => exact held
  · exact List.any_eq_true.mpr ⟨_, mem_insertMark _, by simp⟩

/-- The record of an attempt is marked, and its attempts are gone. -/
def marked (s : State) (a : Attempt) : State :=
  { s with grp := { s.grp with
    groups := s.grp.groups.map (fun g => if g.gid = a.grp then g.mark a else g)
    attempts := s.grp.attempts.filter (fun x => !(x.job == a.job && x.idx == a.idx))
    gathered := s.grp.gathered.filter (fun x => !(x.job == a.job && x.idx == a.idx)) } }

theorem failAttempt_eq : s.failAttempt a d =
    if s.recovering a.grp then (marked s a).pauseGroup a.grp else (marked s a).enqueueFault { d with work := some a.work } := rfl

/-- The group of a marked record that pauses. -/
theorem pauseGroup_marked {t : State} (groups : t.grp.groups = (marked s a).grp.groups) {x : Group}
    (listed : x ∈ (t.pauseGroup a.grp).grp.groups) (own : x.gid = a.grp) : x.hasMark a.job a.idx = true ∧ x.paused = true := by
  obtain ⟨y, held, rfl⟩ := List.mem_map.mp listed
  rw [groups] at held
  obtain ⟨z, -, rfl⟩ := List.mem_map.mp held
  by_cases same : z.gid = a.grp
  · rw [if_pos same, if_pos (mark_gid.trans same)]
    exact ⟨cut_hasMark.trans mark_hasMark, rfl⟩
  · rw [if_neg same, if_neg same] at own
    exact absurd own same

theorem failAttempt_groups (own : d.grp = a.grp) {x : Group} (listed : x ∈ (s.failAttempt a d).grp.groups) (same : x.gid = a.grp) :
    x.hasMark a.job a.idx = true ∧ x.paused = true := by
  rw [failAttempt_eq] at listed
  split at listed
  · exact pauseGroup_marked rfl listed same
  · rw [State.enqueueFault, own] at listed
    exact pauseGroup_marked rfl listed same

theorem failAttempt_attempts : (s.failAttempt a d).grp.attempts = s.grp.attempts.filter (fun x => !(x.job == a.job && x.idx == a.idx)) :=
    by
  rw [failAttempt_eq]
  split <;> rfl

theorem failAttempt_flt : (s.recovering a.grp = true → (s.failAttempt a d).flt = s.flt) ∧
    (s.recovering a.grp = false → (s.failAttempt a d).flt = { s.flt with queue := s.flt.queue ++ [{ d with work := some a.work }] }) := by
  rw [failAttempt_eq]
  constructor
  · intro recovers
    rw [if_pos recovers]
    rfl
  · intro free
    rw [if_neg (by simp [free])]
    rfl

theorem failAttempt_frame : OnlyChanges [.grp, .flt] s (s.failAttempt a d) := by
  rw [failAttempt_eq]
  split <;> rfl

end

/-! ## A dispatch -/

section
variable {s : State} {base id i n : Nat} {pk : Pick} {g : Group} {j : Job} {h : Head} {p : JobPlace} {m : ModelDef} {again : Bool}

/-- The plane that a dispatch compares in. -/
def planeOf (g : Group) (pk : Pick) (p : JobPlace) : Bool :=
  if g.dbl then (match pk with
    | .run _ _ => g.inB
    | _ => false)
  else p.plane.getD g.plane

/-- A group has taken what it dispatches. -/
def tookUp (s : State) (g : Group) (pk : Pick) (j : Job) : State :=
  s.modGroup g.gid (fun x => x.taking pk (if j.op = opTremolo then j.k else 0))

theorem dispatchPick_of_sound (place : s.openPlace id i = some (j, h, p)) (model : j.model = some m) (head : h.headBad = false)
    (block : h.blockBad = false) : s.dispatchPick g pk id i n again [] = (tookUp s g pk j).enter g j h i n (planeOf g pk p) m [] := by
  unfold State.dispatchPick
  simp only [place, model, State.entryLost, head, block, Bool.or_self, Bool.false_and, Bool.false_eq_true, if_false]
  rfl

theorem exec_recordDispatch (up : s.up = true) (dispatcher : s.dispatcher base = some g) (picks : s.pick g ≠ .none) :
    exec (.recordDispatch base again []) s = .next (s.dispatchGroup g again []) := by
  refine congrArg Host.Outcome.next ?_
  rw [if_pos up, dispatcher]
  exact if_neg picks

/-- What a group dispatches, but a new run. -/
def Named (g : Group) (pk : Pick) (id i n : Nat) : Prop :=
  pk = .pass id i n ∨ (pk = .marked id i ∧ n = 0) ∨ (pk = .run id i ∧ n = g.runPass) ∨ (pk = .fresh id i ∧ n = 0 ∧ g.dbl = false)

theorem dispatchGroup_of_named (picks : s.pick g = pk) (named : Named g pk id i n) :
    s.dispatchGroup g again [] = s.dispatchPick g pk id i n again [] := by
  unfold State.dispatchGroup
  rcases named with rfl | ⟨rfl, rfl⟩ | ⟨rfl, rfl⟩ | ⟨rfl, rfl, single⟩
  · rw [picks]
  · rw [picks]
  · rw [picks]
  · rw [picks]
    simp only [single, Bool.false_eq_true, if_false]

theorem Named.ne_none (named : Named g pk id i n) : pk ≠ .none := by
  rcases named with rfl | ⟨rfl, -⟩ | ⟨rfl, -⟩ | ⟨rfl, -, -⟩ <;> exact fun same => by cases same

theorem planeOf_eq (named : Named g pk id i n) : planeOf g pk p = if g.dbl then decide (pk = .run id i) && g.inB else p.plane.getD
    g.plane := by
  unfold planeOf
  split
  · rcases named with rfl | ⟨rfl, -⟩ | ⟨rfl, -⟩ | ⟨rfl, -, -⟩ <;> simp
  · rfl

/-- A dispatch of a record in sound entries is the entry of its pass. -/
theorem exec_recordDispatch_of_named (up : s.up = true) (dispatcher : s.dispatcher base = some g) (picks : s.pick g = pk) (named : Named
    g pk id i n)
    (place : s.openPlace id i = some (j, h, p)) (model : j.model = some m) (head : h.headBad = false) (block : h.blockBad = false) :
    exec (.recordDispatch base again []) s = .next ((tookUp s g pk j).enter g j h i n (planeOf g pk p) m []) := by
  rw [exec_recordDispatch up dispatcher (by rw [picks]; exact named.ne_none), dispatchGroup_of_named picks named,
    dispatchPick_of_sound place model head block]

theorem tookUp_frame : OnlyChanges [.grp] s (tookUp s g pk j) := rfl

theorem take_eq {q : JobPlace} {attempt : Nat} {plane : Bool} : q.take g attempt plane = { q with
    first := q.first.or (some attempt)
    gen := if q.dispatched then q.gen else g.gen
    dispatched := true
    grp := g.gid
    plane := some (q.plane.getD plane) } := by
  unfold JobPlace.take
  cases q.plane <;> rfl

theorem begun_tookUp {plane : Bool} : begun (tookUp s g pk j) g j h i n plane m = begun s g j h i n plane m := rfl

theorem stopped_tookUp {plane : Bool} : stopped (tookUp s g pk j) g j h i n plane m = stopped s g j h i n plane m := rfl

/-- A pass whose checks pass (R78, R119). -/
theorem dispatch_enters {plane : Bool} (clean : stopped s g j h i n plane m = none) :
    let k := if j.op = 2 then j.k else 0
    ∃ t a, (tookUp s g pk j).enter g j h i n plane m [] = t ∧ OnlyChanges [.acc, .arr, .grp] s t ∧
      t.arr = loaded s g (h.features m (j.op == opTremolo) n) ∧
      t.grp.attempts = s.grp.attempts ++ [a] ∧ t.grp.nextAttempt = s.grp.nextAttempt + 1 ∧
      a.id = s.grp.nextAttempt ∧ a.grp = g.gid ∧ a.job = j.id ∧ a.idx = i ∧ a.pass = n ∧ a.plane = plane ∧
      a.words = latched s g m plane (h.features m (j.op == opTremolo) n) ∧
      a.contribs = [] ∧ a.partials = [] ∧ a.nodes = [] ∧ a.tuned = false ∧
      t.grp.groups = s.grp.groups.map (fun x => if x.gid = g.gid then x.taking pk k else x) ∧
      t.acc = (s.modPlace h.stream h.seq j.id (fun q => { q with
        first := q.first.or (some s.grp.nextAttempt)
        gen := if q.dispatched then q.gen else g.gen
        dispatched := true
        grp := g.gid
        plane := some (q.plane.getD plane) })).acc := by
  refine ⟨_, begun s g j h i n plane m, rfl, ?_⟩
  rw [enter_eq, stopped_tookUp, clean]
  refine ⟨rfl, rfl, rfl, rfl, rfl, rfl, rfl, rfl, rfl, rfl, begun_words, rfl, rfl, rfl, rfl, rfl, ?_⟩
  simp only [← take_eq]
  rfl

/-- A pass that a check stops (R391). -/
theorem dispatch_stops {plane : Bool} {d : Detected} (fault : stopped s g j h i n plane m = some d) (own : d.grp = g.gid) :
    ∃ t, (tookUp s g pk j).enter g j h i n plane m [] = t ∧ OnlyChanges [.acc, .arr, .grp, .flt] s t ∧
      (∀ x ∈ t.grp.attempts, x ∈ s.grp.attempts ∧ ¬(x.job = j.id ∧ x.idx = i)) ∧
      (∀ x ∈ t.grp.groups, x.gid = g.gid → x.hasMark j.id i = true ∧ x.paused = true) ∧
      (s.recovering g.gid = true → t.flt = s.flt) ∧
      (s.recovering g.gid = false → t.flt = { s.flt with queue := s.flt.queue ++ [{ d with work := some ⟨j.id, i, n, plane⟩ }] }) := by
  refine ⟨_, rfl, ?_⟩
  rw [enter_eq, stopped_tookUp, fault]
  obtain ⟨recovers, free⟩ := failAttempt_flt (s := entered (tookUp s g pk j) g j h i n plane m) (a := begun s g j h i n plane m) (d := d)
  refine ⟨?_, fun x listed => ?_, fun x listed same => failAttempt_groups (a := begun s g j h i n plane m) own listed same, recovers,
      free⟩
  · refine OnlyChanges.trans ?_ (onlyChanges_mono (by decide) failAttempt_frame)
    exact rfl
  · dsimp only at listed
    rw [failAttempt_attempts] at listed
    obtain ⟨held, other⟩ := List.mem_filter.mp listed
    have apart : ¬(x.job = j.id ∧ x.idx = i) := fun ⟨job, idx⟩ => by
      simp [begun, State.newAttempt, job, idx] at other
    rcases List.mem_append.mp held with before | new
    · exact ⟨before, apart⟩
    · rw [List.mem_singleton.mp new] at apart
      exact absurd ⟨rfl, rfl⟩ apart

/-! ## Features (R257) -/

/-- The codes of the features that a Tremolo pass has perturbed. -/
def perturbed (h : Head) (m : ModelDef) (n : Nat) (es : List Tremolo) (codes : Sparse Code) : Sparse Code :=
  es.foldl (fun acc e => sset 0xFFFF acc e.feature (passCode m h.stream h.seq n e.feature (sget 0xFFFF h.narrow e.feature))) codes

theorem perturbed_code {es : List Tremolo} {codes : Sparse Code} {f : Nat} (canonical : sparseOk (0xFFFF : Code) codes = true) :
    sget 0xFFFF (perturbed h m n es codes) f =
      if f ∈ es.map (·.feature) then passCode m h.stream h.seq n f (sget 0xFFFF h.narrow f) else sget 0xFFFF codes f := by
  induction es generalizing codes with
  | nil => rfl
  | cons e es ih =>
    rw [perturbed, List.foldl_cons, ← perturbed, ih (sparseOk_sset canonical), sget_sset canonical]
    by_cases later : f ∈ es.map (·.feature)
    · rw [if_pos later, if_pos (by simp [List.mem_map.mp later])]
    · by_cases own : f = e.feature
      · subst own
        simp
      · rw [if_neg later, if_neg own, if_neg]
        rw [List.map_cons, List.mem_cons, not_or]
        exact ⟨own, later⟩

/-- A feature without an entry keeps its code. -/
theorem passCode_of_unlisted {st : Nat} {sq : Word32} {f : Nat} {c : Code} (unlisted : f ∉ m.tremolo.map (·.feature)) :
    passCode m st sq n f c = c := by
  have none_ : m.tremolo.find? (fun e => e.feature == f) = none :=
    List.find?_eq_none.mpr fun e listed same => unlisted (List.mem_map.mpr ⟨e, listed, by simpa using same⟩)
  rw [passCode, none_]

theorem features_code {f : Nat} (canonical : sparseOk (0xFFFF : Code) h.narrow = true) :
    sget 0xFFFF (h.features m true n).narrow f = passCode m h.stream h.seq n f (sget 0xFFFF h.narrow f) := by
  refine (perturbed_code (h := h) (m := m) (n := n) (es := m.tremolo) canonical).trans ?_
  split
  · rfl
  · next unlisted => rw [passCode_of_unlisted unlisted]

/-! ## The plane of a group in Double (R265) -/

/-- The passes of the Tremolo record of a group. -/
def passes (s : State) (g : Group) : Nat := (g.tremolo.map (fun x => ((s.job x.1).map (·.k)).getD 0)).getD 0

theorem exec_doubleRunSwitch (found : s.grp.groups.find? (fun g => g.base == base && s.switchReady g) = some g) (up : s.up = true) :
    exec (.doubleRunSwitch base) s = .next (s.modGroup g.gid (fun x => x.switched (passes s g))) := by
  refine congrArg Host.Outcome.next ?_
  rw [found]
  exact if_pos up

theorem switched_eq {k : Nat} : g.switched k = { g with
      runPos := 0, inB := !g.inB, run := (g.switched k).run, tremolo := (g.switched k).tremolo } ∧
    (g.inB = false → (g.switched k).run = g.run ∧ (g.switched k).tremolo = g.tremolo) ∧
    (g.inB = true → g.tremolo = none → (g.switched k).run = [] ∧ (g.switched k).tremolo = none) ∧
    (g.inB = true → ∀ tj ti tp, g.tremolo = some (tj, ti, tp) →
      (tp + 1 < k → (g.switched k).tremolo = some (tj, ti, tp + 1) ∧ (g.switched k).run = g.run) ∧
      (k ≤ tp + 1 → (g.switched k).tremolo = none ∧ (g.switched k).run = [])) := by
  cases inB : g.inB with
  | false =>
    have next : g.switched k = { g with inB := true, runPos := 0 } := by
      rw [Group.switched, inB]
      rfl
    rw [next]
    exact ⟨rfl, fun _ => ⟨rfl, rfl⟩, fun (absent : false = true) => absurd absent Bool.false_ne_true,
      fun (absent : false = true) => absurd absent Bool.false_ne_true⟩
  | true =>
    cases tremolo : g.tremolo with
    | none =>
      have next : g.switched k = { g with inB := false, runPos := 0, run := [] } := by
        rw [Group.switched, inB, tremolo]
        rfl
      rw [next]
      exact ⟨rfl, fun absent => (by cases absent),
          fun _ _ => ⟨rfl, tremolo⟩, fun _ _ _ _ absent => (by cases absent)⟩
    | some x =>
      obtain ⟨tj, ti, tp⟩ := x
      have next : g.switched k = if tp + 1 < k then { g with inB := false, runPos := 0, tremolo := some (tj, ti, tp + 1) }
          else { g with inB := false, runPos := 0, tremolo := none, run := [] } := by
        rw [Group.switched, inB, tremolo]
        rfl
      rw [next]
      by_cases more : tp + 1 < k
      · rw [if_pos more]
        refine ⟨rfl, fun absent => (by cases absent), fun _ absent => (by cases absent), fun _ tj' ti' tp' same => ?_⟩
        cases same
        exact ⟨fun _ => ⟨rfl, rfl⟩, fun last => by omega⟩
      · rw [if_neg more]
        refine ⟨rfl, fun absent => (by cases absent), fun _ absent => (by cases absent), fun _ tj' ti' tp' same => ?_⟩
        cases same
        exact ⟨fun one => absurd one more, fun _ => ⟨rfl, rfl⟩⟩

/-- The group whose run is over is the one that switches. -/
theorem find_switchReady (listed : g ∈ s.grp.groups) (own : g.base = base) (ready : s.switchReady g = true)
    (only : ∀ y ∈ s.grp.groups, y.base = base ∨ y.gid = g.gid → y = g) :
    s.grp.groups.find? (fun g => g.base == base && s.switchReady g) = some g := by
  cases found : s.grp.groups.find? (fun g => g.base == base && s.switchReady g) with
  | none => exact absurd (List.find?_eq_none.mp found g listed) (by simp [own, ready])
  | some y =>
    have shown := List.find?_some found
    rw [Bool.and_eq_true] at shown
    rw [only y (List.mem_of_find?_eq_some found) (.inl (eq_of_beq shown.1))]

theorem doubleRun_switches (up : s.up = true) (listed : g ∈ s.grp.groups) (own : g.base = base) (dbl : g.dbl = true) (run : g.run ≠ [])
    (whole : g.runPos = g.run.length) (ended : ∀ a ∈ s.grp.attempts, a.grp ≠ g.gid)
    (only : ∀ y ∈ s.grp.groups, y.base = base ∨ y.gid = g.gid → y = g) :
    ∃ t, exec (.doubleRunSwitch base) s = .next t ∧ OnlyChanges [.grp] s t ∧
      ∀ x ∈ t.grp.groups, x.gid = g.gid → x = { g with runPos := 0, inB := !g.inB, run := x.run, tremolo := x.tremolo } ∧
        (g.inB = false → x.run = g.run ∧ x.tremolo = g.tremolo) ∧
        (g.inB = true → g.tremolo = none → x.run = [] ∧ x.tremolo = none) ∧
        (g.inB = true → ∀ tj ti tp jj, g.tremolo = some (tj, ti, tp) → s.job tj = some jj →
          (tp + 1 < jj.k → x.tremolo = some (tj, ti, tp + 1) ∧ x.run = g.run) ∧ (jj.k ≤ tp + 1 → x.tremolo = none ∧ x.run = [])) := by
  have ready : s.switchReady g = true := by
    unfold State.switchReady
    simpa [dbl, run, whole] using ended
  refine ⟨_, exec_doubleRunSwitch (find_switchReady listed own ready only) up, State.modGroup_frame _ _ _ (OnlyChanges.refl _ _) (by
      decide),
    fun x held same => ?_⟩
  obtain ⟨y, before, rfl⟩ := List.mem_map.mp held
  obtain ⟨shape, inA, last, tremolo⟩ := switched_eq (g := g) (k := passes s g)
  have kept : (g.switched (passes s g)).gid = g.gid := by rw [shape]
  by_cases mine : y.gid = g.gid
  · rw [if_pos mine, only y before (.inr mine)]
    refine ⟨shape, inA, last, fun inB tj ti tp jj record job => ?_⟩
    have count : passes s g = jj.k := by
      rw [passes, record]
      simp [job]
    rw [← count]
    exact tremolo inB tj ti tp record
  · rw [if_neg mine] at same
    exact absurd same mine

theorem doubleRun_waits (busy : ∀ g ∈ s.grp.groups, g.base = base → g.dbl = true → g.run ≠ [] → g.runPos = g.run.length →
    ∃ a ∈ s.grp.attempts, a.grp = g.gid) : exec (.doubleRunSwitch base) s = .next s := by
  have none_ : s.grp.groups.find? (fun g => g.base == base && s.switchReady g) = none := by
    refine List.find?_eq_none.mpr fun g listed shown => ?_
    simp only [State.switchReady, Bool.and_eq_true, beq_iff_eq, Bool.not_eq_true', List.isEmpty_eq_false_iff, List.all_eq_true,
        bne_iff_ne] at shown
    obtain ⟨own, ⟨⟨dbl, run⟩, whole⟩, ended⟩ := shown
    obtain ⟨a, held, same⟩ := busy g listed own dbl run whole
    exact ended a held same
  refine congrArg Host.Outcome.next ?_
  rw [none_]

/-! ## The run of a group in Double (R298) -/

theorem mem_of_dispatcher (dispatcher : s.dispatcher base = some g) : g ∈ s.grp.groups := by
  unfold State.dispatcher at dispatcher
  split at dispatcher
  · next y found =>
    cases dispatcher
    exact (List.mem_filter.mp (List.mem_of_find?_eq_some found)).1
  · exact List.mem_of_find?_eq_some dispatcher

theorem find?_map_of_kept {α : Type} {q : α → Bool} {f : α → α} (kept : ∀ x, q (f x) = q x) (xs : List α) :
    (xs.map f).find? q = (xs.find? q).map f := by
  rw [List.find?_map, show q ∘ f = q from funext kept]

theorem openPlace_eq_some_iff : s.openPlace id i = some (j, h, p) ↔ s.job id = some j ∧ s.placeAt j i = some (h, p) ∧ p.open = true := by
  unfold State.openPlace
  cases s.job id with
  | none => simp
  | some y =>
    dsimp only
    constructor
    · intro found
      split at found
      · cases found
      · next x q held =>
        split at found
        · next opens =>
          cases found
          exact ⟨rfl, held, opens⟩
        · cases found
    · rintro ⟨same, held, opens⟩
      cases same
      rw [held]
      exact if_pos opens

/-- A place that is taken, or voided, keeps whether it is open, in all other records as in its own. -/
theorem openPlace_modPlace {st x k : Nat} {sq : Word32} {f : JobPlace → JobPlace} (job : ∀ p, (f p).job = p.job)
    (open_ : ∀ p, (f p).open = p.open) : ((s.modPlace st sq id f).openPlace x k).isSome = (s.openPlace x k).isSome := by
  have place (y : Job) : ((s.modPlace st sq id f).placeAt y k).map (fun z => z.2.open) = (s.placeAt y k).map (fun z => z.2.open) := by
    have places (h : Head) : ((Places.onPlaces id f h).placeOf y.id).map JobPlace.open = (h.placeOf y.id).map JobPlace.open := by
      have found : (Places.onPlaces id f h).placeOf y.id = (h.placeOf y.id).map (fun p => if p.job = id then f p else p) := by
        refine find?_map_of_kept (f := fun p => if p.job = id then f p else p) (fun p => ?_) h.places
        split <;> simp [job]
      rw [found, Option.map_map]
      refine Option.map_congr fun p _ => ?_
      simp only [Function.comp_apply]
      split <;> simp [open_]
    have heads : (s.modPlace st sq id f).head y.stream (y.seqOf k) =
        (s.head y.stream (y.seqOf k)).map (fun h => if h.stream = st ∧ h.seq = sq then Places.onPlaces id f h else h) := by
      refine find?_map_of_kept (f := fun h => if h.stream = st ∧ h.seq = sq then Places.onPlaces id f h else h) (fun h => ?_) s.acc.heads
      split <;> rfl
    unfold State.placeAt
    rw [heads]
    cases s.head y.stream (y.seqOf k) with
    | none => rfl
    | some h =>
      simp only [Option.map_some, Option.map_map]
      split
      · exact places h
      · rfl
  unfold State.openPlace
  show Option.isSome (match s.job x with | none => none | some j => _) = _
  cases s.job x with
  | none => rfl
  | some y =>
    have here := place y
    dsimp only
    revert here
    rcases (s.modPlace st sq id f).placeAt y k with - | ⟨h, p⟩ <;> rcases s.placeAt y k with - | ⟨h', p'⟩ <;> intro here
    · rfl
    · cases here
    · cases here
    · dsimp only
      rw [Option.map_some, Option.map_some, Option.some.injEq] at here
      rw [here]
      split <;> rfl

/-- A job whose indices are all offered offers no other. -/
theorem offers_done (found : s.job id = some j) (offered : j.n ≤ j.next) (xs : List Head) : xs.foldl (fun (t : State) _ => t.offer id) s
    = s :=
  List.foldlRecOn (motive := fun t : State => t = s) xs _ rfl fun t same _ _ => by
    rw [same]
    unfold State.offer
    rw [found]
    exact if_pos (.inr offered)

/-- The records that a run takes besides its first (R298). -/
def more (s : State) (g : Group) (id i : Nat) : List (Nat × Nat) :=
  ((g.ready.filter (fun x => x.1 == id && decide (i < x.2) && s.unheld g x)).mergeSort (fun x y => x.2 ≤ y.2)).take 63

/-- A group with the records of a run. -/
def withRun (ys : List (Nat × Nat)) (x : Group) : Group := { x with ready := x.ready.filter (fun y => !ys.contains y), run := x.run ++ ys
    }

theorem fillRun_eq {g1 : Group} (found : s.job id = some j) (offered : j.n ≤ j.next) (group : s.groupNo g.gid = some g1) (single : j.op =
    1) :
    s.fillRun g id i = s.modGroup g.gid (withRun (more s g1 id i)) := by
  unfold State.fillRun
  rw [offers_done found offered]
  simp only [found, group, single]
  exact if_neg (by decide)

theorem mem_more {y : Nat × Nat} (listed : y ∈ more s g id i) : y.1 = id ∧ i < y.2 ∧ y ∈ g.ready := by
  obtain ⟨ready, shown⟩ := List.mem_filter.mp (List.mem_mergeSort.mp (List.mem_of_mem_take listed))
  simp only [Bool.and_eq_true, beq_iff_eq, decide_eq_true_eq] at shown
  exact ⟨shown.1.1, shown.1.2, ready⟩

theorem more_length : (more s g id i).length ≤ 63 := List.length_take_le _ _

/-- A run takes every record of its job that is ready and that no patch holds, up to 64 (R298). -/
theorem mem_more_or_full {y : Nat × Nat} (ready : y ∈ g.ready) (own : y.1 = id) (later : i < y.2) (free : s.unheld g y = true) :
    y ∈ more s g id i ∨ (more s g id i).length = 63 := by
  have sorted : y ∈ (g.ready.filter (fun x => x.1 == id && decide (i < x.2) && s.unheld g x)).mergeSort (fun x y => x.2 ≤ y.2) :=
    List.mem_mergeSort.mpr (List.mem_filter.mpr ⟨ready, by simp [own, later, free]⟩)
  by_cases short : ((g.ready.filter (fun x => x.1 == id && decide (i < x.2) && s.unheld g x)).mergeSort (fun x y => x.2 ≤ y.2)).length ≤
      63
  · exact .inl (by rw [more, List.take_of_length_le short]; exact sorted)
  · exact .inr (by rw [more, List.length_take]; omega)

/-- Where no patch is in flight, no record is held. -/
theorem unheld_of_open {y : Nat × Nat} (patches : ∀ x ∈ s.jobs.jobs, x.op ≠ opPatch) (waiting : s.jobs.patches = [])
    (place : (s.openPlace y.1 y.2).isSome = true) : s.unheld g y = true := by
  obtain ⟨o, found⟩ := Option.isSome_iff_exists.mp place
  have jobs : s.jobs.jobs.any (fun p => p.op == opPatch && !p.written && !p.begun && p.ring == o.1.ring && decide (p.id < o.1.id) &&
      s.patchNames p g) = false :=
    List.any_eq_false.mpr fun p listed shown => by simp [patches p listed] at shown
  rw [State.unheld, found, Option.any_some, State.patchHolds, jobs, waiting]
  rfl

theorem taking_fresh (dbl : g.dbl = true) : g.taking (.fresh id i) 0 = { g with
    ready := g.ready.filter (fun x => !(x.1 == id && x.2 == i)), run := [(id, i)], runPos := 1, inB := false, tremolo := none } := by
  simp only [Group.taking, dbl, if_true]

theorem dispatchGroup_of_run (picks : s.pick g = .fresh id i) (dbl : g.dbl = true) :
    s.dispatchGroup g again [] = (s.dispatchPick g (.fresh id i) id i 0 again []).fillRun g id i := by
  unfold State.dispatchGroup
  rw [picks]
  exact if_pos dbl

/-- The group whose first record has entered, before its run is filled. -/
def opened (s : State) (g : Group) (j : Job) (h : Head) (id i : Nat) (m : ModelDef) : State :=
  entered (tookUp s g (.fresh id i) j) g j h i 0 false m

theorem opened_openPlace {x k : Nat} : ((opened s g j h id i m).openPlace x k).isSome = (s.openPlace x k).isSome :=
  openPlace_modPlace (s := s) (st := h.stream) (sq := h.seq) (id := j.id) (fun _ => rfl) (fun _ => rfl)

theorem opened_groupNo (single : j.op = 1) (only : ∀ y ∈ s.grp.groups, y.gid = g.gid → y = g) (listed : g ∈ s.grp.groups) :
    (opened s g j h id i m).groupNo g.gid = some (g.taking (.fresh id i) 0) := by
  have before : s.groupNo g.gid = some g := by
    cases found : s.groupNo g.gid with
    | none => exact absurd (List.find?_eq_none.mp found g listed) (by simp)
    | some y => rw [only y (List.mem_of_find?_eq_some found) (by simpa using List.find?_some found)]
  have after := State.modGroup_groupNo (s := s) g.gid g.gid (fun x => x.taking (.fresh id i) 0) fun x => by
    unfold Group.taking
    dsimp only
    split <;> rfl
  rw [if_pos rfl, before] at after
  have none_ : (if j.op = opTremolo then j.k else 0) = 0 := if_neg (by rw [single]; decide)
  refine Eq.trans ?_ after
  rw [← none_]
  rfl

/-- The group once its run is filled. -/
theorem opened_groups {ys : List (Nat × Nat)} (dbl : g.dbl = true) (single : j.op = 1) (only : ∀ y ∈ s.grp.groups, y.gid = g.gid → y = g)
    :
    ∀ x ∈ ((opened s g j h id i m).modGroup g.gid (withRun ys)).grp.groups, x.gid = g.gid → x = withRun ys { g with
      ready := g.ready.filter (fun x => !(x.1 == id && x.2 == i)), run := [(id, i)], runPos := 1, inB := false, tremolo := none } := by
  intro x listed same
  obtain ⟨y, held, rfl⟩ := List.mem_map.mp listed
  obtain ⟨z, before, rfl⟩ := List.mem_map.mp held
  by_cases own : z.gid = g.gid
  · obtain rfl := only z before own
    have none_ : (if j.op = opTremolo then j.k else 0) = 0 := if_neg (by rw [single]; decide)
    rw [if_pos rfl, none_]
    exact (if_pos (congrArg Group.gid (taking_fresh dbl))).trans (congrArg (withRun ys) (taking_fresh dbl))
  · rw [if_neg own, if_neg own] at same
    exact absurd same own

/-- A new record of a group in Double begins a run (R298). -/
theorem dispatch_opensRun (up : s.up = true) (dispatcher : s.dispatcher base = some g) (dbl : g.dbl = true) (picks : s.pick g = .fresh id
    i)
    (place : s.openPlace id i = some (j, h, p)) (model : j.model = some m) (single : j.op = 1) (offered : j.n ≤ j.next)
    (head : h.headBad = false) (block : h.blockBad = false) (only : ∀ y ∈ s.grp.groups, y.gid = g.gid → y = g)
    (clean : stopped s g j h i 0 false m = none) :
    ∃ t more, exec (.recordDispatch base again []) s = .next t ∧ OnlyChanges [.acc, .arr, .grp] s t ∧ more.length ≤ 63 ∧
      (∀ y ∈ more, y.1 = id ∧ i < y.2 ∧ y ∈ g.ready) ∧
      ((∀ x ∈ s.jobs.jobs, x.op ≠ opPatch) → s.jobs.patches = [] →
        ∀ y ∈ g.ready, y.1 = id → i < y.2 → (s.openPlace y.1 y.2).isSome = true → y ∈ more ∨ more.length = 63) ∧
      t.grp.attempts.length = s.grp.attempts.length + 1 ∧
      ∀ x ∈ t.grp.groups, x.gid = g.gid → x.run = (id, i) :: more ∧ x.runPos = 1 ∧ x.inB = false ∧ (id, i) ∉ x.ready ∧ ∀ y ∈ more, y ∉
          x.ready := by
  have plane : planeOf g (.fresh id i) p = false := if_pos dbl
  have found : (opened s g j h id i m).job id = some j := (openPlace_eq_some_iff.mp place).1
  have group := opened_groupNo (h := h) (m := m) (id := id) (i := i) single only (mem_of_dispatcher dispatcher)
  have runs : s.dispatchGroup g again [] =
      (opened s g j h id i m).modGroup g.gid (withRun (more (opened s g j h id i m) (g.taking (.fresh id i) 0) id i)) := by
    rw [dispatchGroup_of_run picks dbl, dispatchPick_of_sound place model head block, enter_eq, stopped_tookUp, plane, clean]
    exact fillRun_eq found offered group single
  have ready : (g.taking (.fresh id i) 0).ready = g.ready.filter (fun x => !(x.1 == id && x.2 == i)) := by rw [taking_fresh dbl]
  refine ⟨_, more (opened s g j h id i m) (g.taking (.fresh id i) 0) id i,
    (exec_recordDispatch up dispatcher (by rw [picks]; exact fun same => by cases same)).trans (congrArg _ runs), rfl, more_length,
    fun y listed => ?_, fun patches waiting y listed own later open_ => ?_, ?_, fun x listed same => ?_⟩
  · obtain ⟨own, later, taken⟩ := mem_more listed
    rw [ready] at taken
    exact ⟨own, later, (List.mem_filter.mp taken).1⟩
  · refine mem_more_or_full ?_ own later (unheld_of_open patches waiting (opened_openPlace.trans open_))
    rw [ready]
    refine List.mem_filter.mpr ⟨listed, ?_⟩
    have other : y.2 ≠ i := by omega
    simp [other]
  · show (s.grp.attempts ++ [_]).length = _
    rw [List.length_append, List.length_singleton]
  · generalize more (opened s g j h id i m) (g.taking (.fresh id i) 0) id i = ys at listed ⊢
    rw [opened_groups dbl single only x listed same]
    refine ⟨rfl, rfl, rfl, fun held => ?_, fun y chosen held => ?_⟩
    · obtain ⟨left, -⟩ := List.mem_filter.mp held
      simpa using (List.mem_filter.mp left).2
    · simpa [chosen] using (List.mem_filter.mp held).2

/-! ## An entry whose CRC fails (R334, R422) -/

theorem retirePlace_heads {b : Bool} : (s.retirePlace b n).acc.heads = s.acc.heads := by
  have logged {u : State} {ev cls rung detail : Nat} {d : Detected} : (u.logEvent ev cls rung d detail).acc = u.acc :=
    Places.acc_of_frame (State.logEvent_frame (fs := [.flt, .out, .pins]) _ _ _ _ _ _ (OnlyChanges.refl _ _) (by decide) (by decide) (by
        decide))
      (by decide)
  unfold State.retirePlace
  dsimp only
  split_ifs <;> simp only [logged]

/-- The places of a buffer entry that fails twice are retired. -/
def retiredPlaces (s : State) (h : Head) : State :=
  let s1 := if h.headBad then s.retirePlace false h.place else s
  match h.block with
  | some b => if h.blockBad then s1.retirePlace true b else s1
  | none => s1

theorem retiredPlaces_frame : OnlyChanges [.acc, .flt, .out, .pins] s (retiredPlaces s h) ∧ (retiredPlaces s h).acc.heads = s.acc.heads
    := by
  have head : OnlyChanges [.acc, .flt, .out, .pins] s (if h.headBad then s.retirePlace false h.place else s) ∧
      (if h.headBad then s.retirePlace false h.place else s).acc.heads = s.acc.heads := by
    split
    · exact ⟨State.retirePlace_frame _ _ _ (OnlyChanges.refl _ _) (by decide) (by decide) (by decide) (by decide), retirePlace_heads⟩
    · exact ⟨OnlyChanges.refl _ _, rfl⟩
  unfold retiredPlaces
  dsimp only
  split
  · split
    · exact ⟨State.retirePlace_frame _ _ _ head.1 (by decide) (by decide) (by decide) (by decide), retirePlace_heads.trans head.2⟩
    · exact head
  · exact head

/-- Voiding a record takes it from its groups. -/
theorem voidPlace_grp {status : Nat} {multi overs : Bool} (found : s.head j.stream (j.seqOf i) = some h) :
    (s.voidPlace j i status multi overs).grp = (s.forget j.id i).grp := by
  obtain ⟨y, ensured⟩ := Places.placeAt_ensurePlace found
  unfold State.voidPlace
  simp only [ensured]
  generalize settled : State.settle _ j i status multi overs false = u
  have kept : u.grp = s.grp := by
    have frame : OnlyChanges [.acc, .tally, .mem, .rings] s u := by
      rw [← settled]
      refine State.settle_frame _ _ _ _ _ _ _ (State.modPlace_frame _ _ _ _ _ (State.countVoided_frame _ _ _ _ _
        (State.undoWrite_frame _ _ _ _ (State.ensurePlace_frame _ _ _ (OnlyChanges.refl _ _) ?_) ?_ ?_) ?_) ?_) ?_ ?_ ?_ <;> decide
    exact ThermalThresholds.grp_eq_of_onlyChanges frame (by decide)
  have forgotten : (u.forget j.id i).grp = (s.forget j.id i).grp := by rw [State.forget, kept, State.forget]
  split
  · exact forgotten
  · exact (ThermalThresholds.grp_eq_of_onlyChanges (State.pay_frame (fs := [.gait, .jobs, .led, .out]) _ _ (OnlyChanges.refl _ _) (by
        decide)
      (by decide) (by decide) (by decide)) (by decide)).trans forgotten

theorem dispatchGroup_of_fresh (picks : s.pick g = .fresh id i) (single : g.dbl = false) :
    s.dispatchGroup g again [] = s.dispatchPick g (.fresh id i) id i 0 again [] :=
  dispatchGroup_of_named picks (.inr (.inr (.inr ⟨rfl, rfl, single⟩)))

theorem dispatchPick_of_lost (place : s.openPlace id i = some (j, h, p)) (model : j.model = some m) (lost : s.entryLost h again = true) :
    s.dispatchPick g pk id i n again [] = s.voidBuffer h := by
  unfold State.dispatchPick
  simp only [place, model, lost, if_true]

/-- What a record is once the entry of its one place is lost (R334). -/
theorem voidBuffer_voids (job : s.job j.id = some j) (place : s.placeAt j i = some (h, p)) (only : h.places = [p]) (unsettled : p.settled
    = false)
    (idx : p.idx = i) (index : j.indexOf h.stream h.seq = some i) :
    ∃ h' q, (s.voidBuffer h).placeAt j i = some (h', q) ∧ q.settled = true ∧ q.status = 0x000A ∧
      (∀ a ∈ (s.voidBuffer h).grp.attempts, ¬(a.job = j.id ∧ a.idx = i)) ∧ ∀ x ∈ (s.voidBuffer h).grp.groups, (j.id, i) ∉ x.ready := by
  obtain ⟨held, own⟩ := Places.placeAt_eq_some_iff.mp place
  have named : p.job = j.id := by simpa using List.find?_some own
  obtain ⟨frame, heads⟩ := retiredPlaces_frame (s := s) (h := h)
  have jobs : (retiredPlaces s h).jobs = s.jobs := JobEntries.jobs_eq_of_onlyChanges frame (by decide)
  have runs : s.voidBuffer h = (retiredPlaces s h).voidPlace j i stVoidBuffer false false := by
    show h.places.foldl (fun t p => t.bufferPlace h.stream h.seq p) (retiredPlaces s h) = _
    have found : (retiredPlaces s h).job p.job = some j := by
      rw [State.job, jobs, named]
      exact job
    rw [only, List.foldl_cons, List.foldl_nil, State.bufferPlace, found]
    simp only [unsettled, Bool.false_eq_true, if_false, idx, index, if_true]
  have head : (retiredPlaces s h).head j.stream (j.seqOf i) = some h := by
    rw [State.head, heads]
    exact held
  obtain ⟨y, placed⟩ := Places.placeAt_voidPlace (multi := false) (overs := false) (st := stVoidBuffer) head
  rw [runs]
  refine ⟨y, _, placed, rfl, rfl, ?_⟩
  rw [voidPlace_grp head]
  refine ⟨fun a listed same => ?_, fun x listed ready => ?_⟩
  · simpa [same.1, same.2] using (List.mem_filter.mp listed).2
  · obtain ⟨z, -, rfl⟩ := List.mem_map.mp listed
    simpa using (List.mem_filter.mp ready).2

theorem dispatchPick_of_reread (place : s.openPlace id i = some (j, h, p)) (model : j.model = some m) (bad : h.headBad = true ∨
    h.blockBad = true)
    (sound : s.worn (bufferPart h) = false) :
    s.dispatchPick g pk id i n true [] = (tookUp (s.rereadBuffer h) g pk j).enter g j h i n (planeOf g pk p) m [] := by
  have flags : (h.headBad || h.blockBad) = true := by simpa using bad
  have kept : s.entryLost h true = false := by
    rw [State.entryLost, sound]
    simp
  unfold State.dispatchPick
  simp only [place, model, kept, flags, Bool.false_eq_true, if_false, if_true]
  rfl

theorem stopped_rereadBuffer {plane : Bool} : stopped (s.rereadBuffer h) g j h i n plane m = stopped s g j h i n plane m := rfl

/-- A record whose entry passes at its second read is dispatched (R334). -/
theorem reread_enters {plane : Bool} (clean : stopped s g j h i n plane m = none) :
    ∃ t, (tookUp (s.rereadBuffer h) g pk j).enter g j h i n plane m [] = t ∧ OnlyChanges [.acc, .arr, .grp, .flt] s t ∧
      t.grp.attempts.length = s.grp.attempts.length + 1 ∧ t.flt.transients = min (s.flt.transients + 1) 65535 ∧ t.flt.log = s.flt.log ∧
      ∀ x ∈ t.acc.heads, x.stream = h.stream → x.seq = h.seq → x.headBad = false ∧ x.blockBad = false := by
  refine ⟨_, rfl, ?_⟩
  rw [enter_eq, stopped_tookUp, stopped_rereadBuffer, clean]
  refine ⟨?_, ?_, rfl, rfl, fun x listed stream seq => ?_⟩
  · have read : OnlyChanges [.acc, .arr, .grp, .flt] s (s.rereadBuffer h) :=
      State.rereadBuffer_frame _ _ (OnlyChanges.refl _ _) (by decide) (by decide)
    exact OnlyChanges.trans read (OnlyChanges.trans (onlyChanges_mono (by decide) (tookUp_frame (pk := pk)))
      (onlyChanges_mono (by decide) entered_frame))
  · show (s.grp.attempts ++ [_]).length = _
    rw [List.length_append, List.length_singleton]
  · obtain ⟨y, held, rfl⟩ := List.mem_map.mp listed
    obtain ⟨z, -, rfl⟩ := List.mem_map.mp held
    by_cases own : z.stream = h.stream ∧ z.seq = h.seq
    · rw [if_pos own, if_pos ⟨own.1, own.2⟩]
      exact ⟨rfl, rfl⟩
    · rw [if_neg own, if_neg own] at stream seq
      exact absurd ⟨stream, seq⟩ own

end

/-- Settles O50: the entry of a pass, then the run, the lost entry and the plane over it. -/
theorem recordDispatch : Obligations.RecordDispatch := by
  refine ⟨fun base id i n again pk g j h p m s up ok dispatcher picks named place model head block => ?dispatch,
    fun h m n f _ canonical => ⟨rfl, fun b => ⟨rfl, rfl⟩, features_code canonical⟩,
    fun base id i again g j h p m s up dispatcher dbl picks place model single offered head block only clean alone => ?run,
    fun base i again g j h p m s up dispatcher single picks place model bad => ⟨fun lost only unsettled idx index => ?lost,
      fun second sound clean alone => ?reread⟩,
    fun base g s up listed own dbl run whole ended only => doubleRun_switches up listed own dbl run whole ended only,
    fun base s busy => doubleRun_waits busy⟩
  case dispatch =>
    intro k plane x s0 words
    have canonical : sparseOk FeaturePlace.empty s.arr.buffers = true := by
      obtain ⟨-, -, -, buffers, -⟩ := ok
      exact buffers
    have same : planeOf g pk p = plane := planeOf_eq named
    have runs := exec_recordDispatch_of_named (again := again) up dispatcher picks named place model head block
    rw [same] at runs
    refine ⟨fun q listed array => compares_loadAll canonical array (.inl listed), fun clean twins => ?_, fun fault => ?_⟩
    · obtain ⟨t, a, next, left⟩ := dispatch_enters (pk := pk) (stopped_eq_none clean twins)
      exact ⟨t, a, runs.trans (congrArg _ next), left⟩
    · obtain ⟨d, stops, own, first, twin⟩ := stopped_eq_some fault
      obtain ⟨t, next, frame, attempts, groups, recovers, free⟩ := dispatch_stops (pk := pk) stops own
      refine ⟨t, runs.trans (congrArg _ next), frame, attempts, groups, recovers, fun none_ => ⟨_, free none_, own, rfl, fun e found =>
          ?_,
        fun absent => twin absent⟩⟩
      rw [first e found]
  case run =>
    exact dispatch_opensRun up dispatcher dbl picks place model single offered head block only
      (stopped_eq_none (by rw [single]; exact clean) fun tandem => by rw [alone] at tandem; cases tandem)
  case lost =>
    have twice : s.entryLost h again = true := by
      simp only [State.entryLost, Bool.and_eq_true, Bool.or_eq_true, Bool.not_eq_true']
      refine ⟨bad, ?_⟩
      rcases lost with once | worn
      · simp [once]
      · simp [worn]
    have runs : exec (.recordDispatch base again []) s = .next (s.voidBuffer h) := by
      rw [exec_recordDispatch up dispatcher (by rw [picks]; exact fun absent => by cases absent), dispatchGroup_of_fresh picks single,
        dispatchPick_of_lost place model twice]
    obtain ⟨t, answers, frame⟩ := Answering.exec_answers (.recordDispatch base again []) s
    rw [runs] at answers
    cases answers
    obtain ⟨job, held, -⟩ := openPlace_eq_some_iff.mp place
    obtain ⟨h', q, left⟩ := voidBuffer_voids job held only unsettled idx index
    exact ⟨_, h', q, runs, frame, left⟩
  case reread =>
    subst second
    have runs := (exec_recordDispatch (again := true) up dispatcher (by rw [picks]; exact fun absent => by cases absent)).trans
      (congrArg _ ((dispatchGroup_of_fresh picks single).trans (dispatchPick_of_reread place model bad sound)))
    have plane : planeOf g (.fresh j.id i) p = p.plane.getD g.plane := if_neg (by simp [single])
    rw [plane] at runs
    obtain ⟨t, next, left⟩ := reread_enters (pk := .fresh j.id i) (stopped_eq_none clean fun tandem => by rw [alone] at tandem; cases
        tandem)
    exact ⟨t, runs.trans (congrArg _ next), left⟩

end Sys2Proof.Dispatching
end
